-- ==== Sys2Proof/Word.lean ====
section
/-! DEFINITION. The word types of the HK-DX960-L (00 R4, R5; 01 R12). -/
namespace Sys2Proof

/-- One byte of memory. -/
abbrev Byte := BitVec 8
/-- A 32-bit instruction or literal word (R36), or an FP32 pattern. -/
abbrev W32 := BitVec 32
/-- A 64-bit scalar register (R12), predicate mask or control register. -/
abbrev Word := BitVec 64
/-- A 512-bit vector register (R12). -/
abbrev VWord := BitVec 512
/-- The 20-bit program counter (R12, R26). -/
abbrev PcWord := BitVec 20

end Sys2Proof
end

