-- ==== Sys2Proof/Machine/Bits.lean ====
section
/-! DEFINITION. Bit fields, sign extension and byte order (00 R5, R8): the helpers every other file uses. -/
namespace Sys2Proof

/-- x[lo+n-1:lo] of a natural number (R5, R8). -/
def bitsOf (x lo n : Nat) : Nat := x / 2 ^ lo % 2 ^ n

/-- Bit `k` of `x` as a Bool. -/
def bitOf (x k : Nat) : Bool := x / 2 ^ k % 2 == 1

/-- The signed reading of the low `n` bits of `x` (R78). -/
def signedOf (n x : Nat) : Int :=
  let y := x % 2 ^ n
  if y < 2 ^ (n - 1) then (y : Int) else (y : Int) - (2 ^ n : Nat)

/-- The low `n` bits of an integer (R8: narrowing keeps the low bits). -/
def wrapOf (n : Nat) (x : Int) : Nat := (x % ((2 ^ n : Nat) : Int)).toNat

/-- 64-bit word of a natural number, narrowing (R8). -/
def w64 (n : Nat) : Word := BitVec.ofNat 64 n

/-- 64-bit word of an integer, narrowing (R8). -/
def w64i (x : Int) : Word := BitVec.ofInt 64 x

/-- Sign extension of an `n`-bit field to 64 bits (R38). -/
def sext64 {n : Nat} (x : BitVec n) : Word := x.signExtend 64

/-- Zero extension of an `n`-bit field to 64 bits. -/
def zext64 {n : Nat} (x : BitVec n) : Word := x.setWidth 64

/-- The little-endian value of a list of bytes, lowest address first (R5). -/
def leValue : List Byte → Nat
  | [] => 0
  | b :: bs => b.toNat + 256 * leValue bs

/-- The `n` little-endian bytes of a value (R5). -/
def leBytes : Nat → Nat → List Byte
  | 0, _ => []
  | n + 1, v => BitVec.ofNat 8 v :: leBytes n (v / 256)

/-- The number of significant bits of `n`. -/
def bitLen (n : Nat) : Nat := if n = 0 then 0 else Nat.log2 n + 1

/-- The number of one bits among the low `n` bits of `x`. -/
def popcount : Nat → Nat → Nat
  | 0, _ => 0
  | n + 1, x => x % 2 + popcount n (x / 2)

/-- The number of zero bits below the lowest one bit, counted to at most `n`. -/
def trailingZeros : Nat → Nat → Nat
  | 0, _ => 0
  | n + 1, x => if x % 2 = 1 then 0 else 1 + trailingZeros n (x / 2)

/-- ceil(a / b) of natural numbers. -/
def ceilDiv (a b : Nat) : Nat := (a + b - 1) / b

/-- The element of a list at an index, with a default. -/
def nth {α : Type} (d : α) : List α → Nat → α
  | [], _ => d
  | x :: _, 0 => x
  | _ :: xs, n + 1 => nth d xs n

/-- The list with the element at an index replaced (unchanged past its end). -/
def setNth {α : Type} : List α → Nat → α → List α
  | [], _, _ => []
  | _ :: xs, 0, y => y :: xs
  | x :: xs, n + 1, y => x :: setNth xs n y

/-- The list with the element at an index removed. -/
def dropNth {α : Type} : List α → Nat → List α
  | [], _ => []
  | _ :: xs, 0 => xs
  | x :: xs, n + 1 => x :: dropNth xs n

/-- The element at an index, if there is one. -/
def nth? {α : Type} : List α → Nat → Option α
  | [], _ => none
  | x :: _, 0 => some x
  | _ :: xs, n + 1 => nth? xs n

/-- The list with the element at an index changed by a function. -/
def modNth {α : Type} (f : α → α) : List α → Nat → List α
  | [], _ => []
  | x :: xs, 0 => f x :: xs
  | x :: xs, n + 1 => x :: modNth f xs n

/-- Every element that meets a test, changed by a function. -/
def modWhere {α : Type} (p : α → Bool) (f : α → α) (xs : List α) : List α :=
  xs.map fun x => if p x then f x else x

/-- The value of a key in a list of pairs, with a default. -/
def lookupD {α : Type} (d : α) : List (Nat × α) → Nat → α
  | [], _ => d
  | (k, x) :: xs, n => if k = n then x else lookupD d xs n

/-- The list of pairs, sorted by key, with the value of one key set. -/
def insertKey {α : Type} (n : Nat) (y : α) : List (Nat × α) → List (Nat × α)
  | [] => [(n, y)]
  | (k, x) :: xs =>
    if n < k then (n, y) :: (k, x) :: xs
    else if n = k then (n, y) :: xs
    else (k, x) :: insertKey n y xs

/-- 0, 1, …, n − 1 mapped by a function. -/
def genList {α : Type} (n : Nat) (f : Nat → α) : List α := (List.range n).map f

/-- The sum of a list of natural numbers. -/
def sumList : List Nat → Nat
  | [] => 0
  | x :: xs => x + sumList xs

/-- A fixed number of like things, built by a function of the index. -/
def vecGen {α : Type} (n : Nat) (f : Nat → α) : Vector α n :=
  Vector.mk ((List.range n).map f).toArray (by simp)

/-- The element at an index taken modulo the length. -/
def vecGet {α : Type} {n : Nat} (x : Vector α (n + 1)) (i : Nat) : α :=
  x[i % (n + 1)]'(Nat.mod_lt _ (Nat.succ_pos n))

/-- The vector with the element at an index (taken modulo the length) replaced. -/
def vecSet {α : Type} {n : Nat} (x : Vector α (n + 1)) (i : Nat) (y : α) : Vector α (n + 1) :=
  x.set (i % (n + 1)) y (Nat.mod_lt _ (Nat.succ_pos n))

end Sys2Proof
end

