-- ==== Sys2Proof/Syntax.lean ====
section
/-! DEFINITION. The instructions of the HK-DX960-L as syntax: one constructor for every row of spec/opcode_table.json.
The first 271 rows are instruction words (02 R36 to R61); the other rows are the device's own steps (95_what_each_step_holds.md),
whose operands name what the step acts on and what it takes from outside the device. -/
namespace Sys2Proof

/-- A scalar register number s0–s31 (R37). -/
abbrev Reg := BitVec 5
/-- A vector register number v0–v31 (R37). -/
abbrev VReg := BitVec 5
/-- A predicate register number q0–q7 (R37). -/
abbrev QReg := BitVec 3
/-- A palette entry p0–p15 (R37). -/
abbrev Pal := BitVec 4
/-- An accumulator m0–m3 (R60). -/
abbrev Acc := BitVec 2

/-- Operand b of an A-format instruction: a register, or the trailing literal word (R39). -/
inductive OpB where
  | reg (r : Reg)
  | lit (x : W32)
  deriving DecidableEq, Repr

/-- The rounding field rm (R46): the static modes of R18, or `.dyn`. -/
inductive Rnd where
  | rne | rtz | rup | rdn | rna | sr | dyn
  deriving DecidableEq, Repr

/-- The precision of a scalar FP operation (R47). -/
inductive Prec where
  | s | d
  deriving DecidableEq, Repr

/-- The element types of the V format (R55). -/
inductive VTy where
  | i8 | i16 | i32 | i64 | f16 | bf16 | f32 | f64
  deriving DecidableEq, Repr

/-- The order field of the S format (R37). -/
inductive Order where
  | rlx | acq | rel | acqrel
  deriving DecidableEq, Repr

/-- The sizes of LD (R51). -/
inductive LdSize where
  | b | h | w | d | bu | hu | wu
  deriving DecidableEq, Repr

/-- The sizes of ST (R51). -/
inductive StSize where
  | b | h | w | d
  deriving DecidableEq, Repr

/-- The firmware registers reached through aperture 0x405 (R466): the router firewall register, the lane registers,
the port registers and SUMSTAT. -/
inductive FwReg where
  | fwctl (core : Nat)
  | lane (die n : Nat)
  | oportcfg (die port : Nat)
  | oportstat (die port : Nat)
  | sumstat (die : Nat)
  deriving DecidableEq, Repr

/-- A group of the counting bus that a partition uses at one sum port (23 R430, R447): its GRP number, the die of the sum
port, its registered participants, straggle wait and levels, the packages it spans, and the SEQ it starts from. -/
structure GroupRec where
  grp : Nat
  die : Nat
  nreg : Nat
  stw : Nat
  levels : Nat
  pkgs : Nat
  seq0 : Nat
  deriving DecidableEq, Repr

/-- A pairing of a partition with a peer partition on a link port, and the package and port at the far end (22 R428,
23 R453). -/
structure PairRec where
  die : Nat
  port : Nat
  pkg : Nat
  far : Nat
  deriving DecidableEq, Repr

/-- A partition record as the host asks firmware for it (R389). -/
structure PartRec where
  pid : Nat
  cores : List Nat
  g : Nat
  shareM : Nat
  shareX : Nat
  shareO : Nat
  root : Nat
  hbm : List (Nat × Nat)
  privwin : Nat
  plg : Nat
  qtable : Nat
  faultq : Nat
  statblk : Nat
  pool : Nat
  nframe : Nat
  vecbase : Nat
  penhost : Nat
  penq : Nat
  pwin : List (Nat × Nat)
  groups : List GroupRec
  pairs : List PairRec
  deriving DecidableEq, Repr

/-- The atomic operations of the companion processor (R419): those of the device on integers (R292). -/
inductive HostAmo where
  | add | and | or | xor | min | max | minu | maxu | swap | cas
  deriving DecidableEq, Repr

/-- An aligned coherent access of the companion processor of 1, 2, 4 or 8 bytes, to its own memory or through the windows of
a partition (R419): the partition, the physical address, and the log2 of the size. -/
inductive HostOp where
  | read (pid pa lg : Nat)
  | write (pid pa lg : Nat) (x : Word)
  | amo (pid pa : Nat) (op : HostAmo) (lg : Nat) (x c : Word)
  deriving DecidableEq, Repr

/-- A mesh link, by the router numbers PROW × 68 + PCOL of its two ends (R412, R416). -/
structure Link where
  src : Nat
  dst : Nat
  deriving DecidableEq, Repr

/-- A flow: one source router, one destination router and one virtual network (R415). -/
structure Flow where
  src : Nat
  dst : Nat
  vn : Nat
  deriving DecidableEq, Repr

/-- The routes that the link manager computed for a flow, as the routers they pass: a detour of the dimension-order class, and
a route of the escape class (R416). -/
structure Detour where
  flow : Flow
  route : List Nat
  escape : List Nat
  deriving DecidableEq, Repr

/-- What a link port learns about its outstanding burst `n` (R429, R454), or what a peer sends to this package. -/
inductive BurstIn where
  | acked (n : Nat)
  | refused (n : Nat)
  | peerFault (n code detail : Nat) (addr : Word)
  | arrived (pid : Nat) (va : Nat) (data : List Byte) (ok : Bool)
  | arrivedFlag (pid : Nat) (va : Nat) (x : Word)
  deriving DecidableEq, Repr

/-- A grant of the central arbiter: a fabric slot and the destination it may be used for (R428). -/
structure FabGrant where
  slot : Nat
  pkg : Nat
  port : Nat
  deriving DecidableEq, Repr

/-- What another writer of the segment sends in one block (R434 to R439, R442): its port index, its element values (the count
element last where the operation carries one), and its ground-pass exponent. -/
structure PeerWriter where
  pidx : Nat
  eb : Nat
  elems : List Int
  deriving DecidableEq, Repr

/-- What a sum port meets in one frame (R434 to R442): the other present writers, the errors its detector makes (slot offset,
lane, difference; lane 0 is WL 0 and lane 1 + λ data lane λ), how many other receivers light NAK, and whether another head
lights the notice with FINAL = 1. -/
structure BusObs where
  writers : List PeerWriter
  noise : List (Nat × Nat × Int)
  nak : Nat
  final : Bool
  deriving DecidableEq, Repr

/-- What a calibration frame measures (R433) and the writer-limit proposals exchanged in it (R440). -/
structure CalIn where
  wmax : Nat
  ddly : Nat
  held : Bool
  proposals : List Nat
  deriving DecidableEq, Repr

/-- The instructions and steps of the part. -/
inductive Instr where
  /-- ADD (R108): Writes a + b modulo 2^64 to d. -/
  | add (d : Reg) (a : Reg) (b : OpB)
  /-- SUB (R108): Writes a − b modulo 2^64 to d. -/
  | sub (d : Reg) (a : Reg) (b : OpB)
  /-- MUL (R108): Writes the low 64 bits of a × b to d. -/
  | mul (d : Reg) (a : Reg) (b : OpB)
  /-- MULH (R108): Writes bits 127:64 of the signed product to d. -/
  | mulh (d : Reg) (a : Reg) (b : OpB)
  /-- MULHU (R108): Writes bits 127:64 of the unsigned product to d. -/
  | mulhu (d : Reg) (a : Reg) (b : OpB)
  /-- DIV (R109): Writes the signed quotient truncated toward zero, without trapping. -/
  | div (d : Reg) (a : Reg) (b : OpB)
  /-- DIVU (R109): Writes the unsigned quotient, without trapping. -/
  | divu (d : Reg) (a : Reg) (b : OpB)
  /-- REM (R109): Writes the signed remainder with the sign of the dividend. -/
  | rem (d : Reg) (a : Reg) (b : OpB)
  /-- REMU (R109): Writes the unsigned remainder. -/
  | remu (d : Reg) (a : Reg) (b : OpB)
  /-- AND (R108): Writes the bitwise AND of a and b. -/
  | and (d : Reg) (a : Reg) (b : OpB)
  /-- OR (R108): Writes the bitwise OR of a and b. -/
  | or (d : Reg) (a : Reg) (b : OpB)
  /-- XOR (R108): Writes the bitwise XOR of a and b. -/
  | xor (d : Reg) (a : Reg) (b : OpB)
  /-- SHL (R108): Shifts a left by b[5:0]. -/
  | shl (d : Reg) (a : Reg) (b : OpB)
  /-- SHR (R108): Shifts a right by b[5:0] with zero fill. -/
  | shr (d : Reg) (a : Reg) (b : OpB)
  /-- SRA (R108): Shifts a right by b[5:0] with sign fill. -/
  | sra (d : Reg) (a : Reg) (b : OpB)
  /-- ROTL (R108): Rotates a left by b[5:0]. -/
  | rotl (d : Reg) (a : Reg) (b : OpB)
  /-- MIN (R108): Writes the signed minimum of a and b. -/
  | min (d : Reg) (a : Reg) (b : OpB)
  /-- MAX (R108): Writes the signed maximum of a and b. -/
  | max (d : Reg) (a : Reg) (b : OpB)
  /-- MINU (R108): Writes the unsigned minimum of a and b. -/
  | minu (d : Reg) (a : Reg) (b : OpB)
  /-- MAXU (R108): Writes the unsigned maximum of a and b. -/
  | maxu (d : Reg) (a : Reg) (b : OpB)
  /-- SLT (R108): Writes 1 if a < b signed, else 0. -/
  | slt (d : Reg) (a : Reg) (b : OpB)
  /-- SLTU (R108): Writes 1 if a < b unsigned, else 0. -/
  | sltu (d : Reg) (a : Reg) (b : OpB)
  /-- CLZ (R108): Writes the count of leading zero bits of a. -/
  | clz (d : Reg) (a : Reg)
  /-- CTZ (R108): Writes the count of trailing zero bits of a. -/
  | ctz (d : Reg) (a : Reg)
  /-- POPC (R108): Writes the count of one bits of a. -/
  | popc (d : Reg) (a : Reg)
  /-- LEA_1 (R108): Writes a + b × 1. -/
  | lea1 (d : Reg) (a : Reg) (b : OpB)
  /-- LEA_2 (R108): Writes a + b × 2. -/
  | lea2 (d : Reg) (a : Reg) (b : OpB)
  /-- LEA_4 (R108): Writes a + b × 4. -/
  | lea4 (d : Reg) (a : Reg) (b : OpB)
  /-- LEA_8 (R108): Writes a + b × 8. -/
  | lea8 (d : Reg) (a : Reg) (b : OpB)
  /-- ADDI (R110): Writes a plus the sign-extended immediate. -/
  | addi (d : Reg) (a : Reg) (imm : BitVec 15)
  /-- ANDI (R110): Writes a AND the sign-extended immediate. -/
  | andi (d : Reg) (a : Reg) (imm : BitVec 15)
  /-- ORI (R110): Writes a OR the zero-extended immediate. -/
  | ori (d : Reg) (a : Reg) (imm : BitVec 15)
  /-- XORI (R110): Writes a XOR the zero-extended immediate. -/
  | xori (d : Reg) (a : Reg) (imm : BitVec 15)
  /-- SLTI (R110): Writes 1 if a is below the immediate, signed. -/
  | slti (d : Reg) (a : Reg) (imm : BitVec 15)
  /-- SHLI (R110): Shifts a left by an immediate amount. -/
  | shli (d : Reg) (a : Reg) (n : BitVec 6)
  /-- SHRI (R110): Shifts a right by an immediate amount with zero fill. -/
  | shri (d : Reg) (a : Reg) (n : BitVec 6)
  /-- SRAI (R110): Shifts a right by an immediate amount with sign fill. -/
  | srai (d : Reg) (a : Reg) (n : BitVec 6)
  /-- EXTS (R43): Extracts a bit field of a, sign-extended. -/
  | exts (d : Reg) (a : Reg) (w : BitVec 6) (p : BitVec 6)
  /-- EXTZ (R43): Extracts a bit field of a, zero-extended. -/
  | extz (d : Reg) (a : Reg) (w : BitVec 6) (p : BitVec 6)
  /-- INS (R43): Inserts the low bits of a into a field of d. -/
  | ins (d : Reg) (a : Reg) (w : BitVec 6) (p : BitVec 6)
  /-- SEL (R111): Writes a if c is nonzero, else b. -/
  | sel (d : Reg) (c : Reg) (a : Reg) (b : OpB)
  /-- LDHI (R111): Writes imm20 × 4,096 sign-extended from bit 31. -/
  | ldhi (d : Reg) (imm : BitVec 20)
  /-- ADD_K (R112): Adds a sign-extended constant-bank entry to a. -/
  | addK (d : Reg) (a : Reg) (k : BitVec 10)
  /-- SUB_K (R112): Subtracts a sign-extended constant-bank entry from a. -/
  | subK (d : Reg) (a : Reg) (k : BitVec 10)
  /-- MUL_K (R112): Multiplies a by a sign-extended constant-bank entry. -/
  | mulK (d : Reg) (a : Reg) (k : BitVec 10)
  /-- AND_K (R112): ANDs a with a sign-extended constant-bank entry. -/
  | andK (d : Reg) (a : Reg) (k : BitVec 10)
  /-- OR_K (R112): ORs a with a zero-extended constant-bank entry. -/
  | orK (d : Reg) (a : Reg) (k : BitVec 10)
  /-- XOR_K (R112): XORs a with a zero-extended constant-bank entry. -/
  | xorK (d : Reg) (a : Reg) (k : BitVec 10)
  /-- MIN_K (R112): Signed minimum of a and a constant-bank entry. -/
  | minK (d : Reg) (a : Reg) (k : BitVec 10)
  /-- MAX_K (R112): Signed maximum of a and a constant-bank entry. -/
  | maxK (d : Reg) (a : Reg) (k : BitVec 10)
  /-- FADD (R114): Adds two FP values with one rounding and accrues flags. -/
  | fadd (z : Prec) (r : Rnd) (d : Reg) (a : Reg) (b : OpB)
  /-- FSUB (R114): Subtracts two FP values with one rounding. -/
  | fsub (z : Prec) (r : Rnd) (d : Reg) (a : Reg) (b : OpB)
  /-- FMUL (R114): Multiplies two FP values with one rounding. -/
  | fmul (z : Prec) (r : Rnd) (d : Reg) (a : Reg) (b : OpB)
  /-- FDIV (R114): Divides two FP values with one rounding in the shared divide unit. -/
  | fdiv (z : Prec) (r : Rnd) (d : Reg) (a : Reg) (b : OpB)
  /-- FSQRT (R114): Computes a rounded FP square root. -/
  | fsqrt (z : Prec) (r : Rnd) (d : Reg) (a : Reg)
  /-- FMIN (R116): Returns the lesser FP operand, ignoring a single NaN. -/
  | fmin (z : Prec) (d : Reg) (a : Reg) (b : OpB)
  /-- FMAX (R116): Returns the greater FP operand, ignoring a single NaN. -/
  | fmax (z : Prec) (d : Reg) (a : Reg) (b : OpB)
  /-- FABS (R116): Clears the sign bit. -/
  | fabs (z : Prec) (d : Reg) (a : Reg)
  /-- FNEG (R116): Inverts the sign bit. -/
  | fneg (z : Prec) (d : Reg) (a : Reg)
  /-- FCLASS (R116): Writes the class word of an FP operand. -/
  | fclass (z : Prec) (d : Reg) (a : Reg)
  /-- FCMP_EQ (R117): Writes 1 if the operands are equal. -/
  | fcmpEq (z : Prec) (d : Reg) (a : Reg) (b : OpB)
  /-- FCMP_LT (R117): Writes 1 if a < b, raising NV on any NaN. -/
  | fcmpLt (z : Prec) (d : Reg) (a : Reg) (b : OpB)
  /-- FCMP_LE (R117): Writes 1 if a ≤ b, raising NV on any NaN. -/
  | fcmpLe (z : Prec) (d : Reg) (a : Reg) (b : OpB)
  /-- FCMP_UN (R117): Writes 1 if either operand is a NaN. -/
  | fcmpUn (z : Prec) (d : Reg) (a : Reg) (b : OpB)
  /-- FFMA (R115): Computes a × b + d with one rounding. -/
  | ffma (z : Prec) (r : Rnd) (d : Reg) (a : Reg) (b : OpB)
  /-- FCVT_S_D (R118): Converts FP64 to FP32. -/
  | fcvtSD (r : Rnd) (d : Reg) (a : Reg)
  /-- FCVT_D_S (R118): Converts FP32 to FP64 exactly. -/
  | fcvtDS (r : Rnd) (d : Reg) (a : Reg)
  /-- FCVT_S_H (R118): Converts FP16 to FP32 exactly. -/
  | fcvtSH (r : Rnd) (d : Reg) (a : Reg)
  /-- FCVT_H_S (R118): Converts FP32 to FP16. -/
  | fcvtHS (r : Rnd) (d : Reg) (a : Reg)
  /-- FCVT_S_BF (R118): Converts BF16 to FP32 exactly. -/
  | fcvtSBf (r : Rnd) (d : Reg) (a : Reg)
  /-- FCVT_BF_S (R118): Converts FP32 to BF16. -/
  | fcvtBfS (r : Rnd) (d : Reg) (a : Reg)
  /-- FCVT_S_W (R118): Converts a signed 32-bit integer to FP32. -/
  | fcvtSW (r : Rnd) (d : Reg) (a : Reg)
  /-- FCVT_S_WU (R118): Converts an unsigned 32-bit integer to FP32. -/
  | fcvtSWu (r : Rnd) (d : Reg) (a : Reg)
  /-- FCVT_S_L (R118): Converts a signed 64-bit integer to FP32. -/
  | fcvtSL (r : Rnd) (d : Reg) (a : Reg)
  /-- FCVT_S_LU (R118): Converts an unsigned 64-bit integer to FP32. -/
  | fcvtSLu (r : Rnd) (d : Reg) (a : Reg)
  /-- FCVT_D_W (R118): Converts a signed 32-bit integer to FP64 exactly. -/
  | fcvtDW (r : Rnd) (d : Reg) (a : Reg)
  /-- FCVT_D_WU (R118): Converts an unsigned 32-bit integer to FP64 exactly. -/
  | fcvtDWu (r : Rnd) (d : Reg) (a : Reg)
  /-- FCVT_D_L (R118): Converts a signed 64-bit integer to FP64. -/
  | fcvtDL (r : Rnd) (d : Reg) (a : Reg)
  /-- FCVT_D_LU (R118): Converts an unsigned 64-bit integer to FP64. -/
  | fcvtDLu (r : Rnd) (d : Reg) (a : Reg)
  /-- FCVT_W_S (R118): Converts FP32 to a saturated signed 32-bit integer. -/
  | fcvtWS (r : Rnd) (d : Reg) (a : Reg)
  /-- FCVT_WU_S (R118): Converts FP32 to a saturated unsigned 32-bit integer. -/
  | fcvtWuS (r : Rnd) (d : Reg) (a : Reg)
  /-- FCVT_L_S (R118): Converts FP32 to a saturated signed 64-bit integer. -/
  | fcvtLS (r : Rnd) (d : Reg) (a : Reg)
  /-- FCVT_LU_S (R118): Converts FP32 to a saturated unsigned 64-bit integer. -/
  | fcvtLuS (r : Rnd) (d : Reg) (a : Reg)
  /-- FCVT_W_D (R118): Converts FP64 to a saturated signed 32-bit integer. -/
  | fcvtWD (r : Rnd) (d : Reg) (a : Reg)
  /-- FCVT_WU_D (R118): Converts FP64 to a saturated unsigned 32-bit integer. -/
  | fcvtWuD (r : Rnd) (d : Reg) (a : Reg)
  /-- FCVT_L_D (R118): Converts FP64 to a saturated signed 64-bit integer. -/
  | fcvtLD (r : Rnd) (d : Reg) (a : Reg)
  /-- FCVT_LU_D (R118): Converts FP64 to a saturated unsigned 64-bit integer. -/
  | fcvtLuD (r : Rnd) (d : Reg) (a : Reg)
  /-- FLI_S (R119): Writes imm20 as bits 31:12 of an FP32 value. -/
  | fliS (d : Reg) (imm : BitVec 20)
  /-- FLI_D (R119): Writes imm20 as bits 63:44 of an FP64 value. -/
  | fliD (d : Reg) (imm : BitVec 20)
  /-- FADD_K (R120): Adds a constant-bank entry read as FP32. -/
  | faddK (z : Prec) (d : Reg) (a : Reg) (k : BitVec 10)
  /-- FSUB_K (R120): Subtracts a constant-bank entry read as FP32. -/
  | fsubK (z : Prec) (d : Reg) (a : Reg) (k : BitVec 10)
  /-- FMUL_K (R120): Multiplies by a constant-bank entry read as FP32. -/
  | fmulK (z : Prec) (d : Reg) (a : Reg) (k : BitVec 10)
  /-- FFMA_K (R120): Computes a × k + d with a constant-bank entry. -/
  | ffmaK (z : Prec) (d : Reg) (a : Reg) (k : BitVec 10)
  /-- BEQ (R121): Branches if a = b. -/
  | beq (a : Reg) (b : Reg) (off : BitVec 12)
  /-- BNE (R121): Branches if a ≠ b. -/
  | bne (a : Reg) (b : Reg) (off : BitVec 12)
  /-- BLT (R121): Branches if a < b signed. -/
  | blt (a : Reg) (b : Reg) (off : BitVec 12)
  /-- BGE (R121): Branches if a ≥ b signed. -/
  | bge (a : Reg) (b : Reg) (off : BitVec 12)
  /-- BLTU (R121): Branches if a < b unsigned. -/
  | bltu (a : Reg) (b : Reg) (off : BitVec 12)
  /-- BGEU (R121): Branches if a ≥ b unsigned. -/
  | bgeu (a : Reg) (b : Reg) (off : BitVec 12)
  /-- JAL (R122): Links and jumps PC-relative after the target check. -/
  | jal (d : Reg) (off : BitVec 20)
  /-- JALR (R122): Links and jumps to a register plus immediate. -/
  | jalr (d : Reg) (a : Reg) (imm : BitVec 15)
  /-- FJMP (R123): Jumps as JALR after checking overlay residency of the target page. -/
  | fjmp (d : Reg) (a : Reg) (imm : BitVec 15)
  /-- LD (R281): Loads 1 to 8 bytes from a generic address into d. -/
  | ld (z : LdSize) (d : Reg) (base : Reg) (off : BitVec 12)
  /-- ST (R281): Stores 1 to 8 bytes of d to a generic address. -/
  | st (z : StSize) (d : Reg) (base : Reg) (off : BitVec 12)
  /-- LDV (R289): Reads a named version of a versioned word, waiting if it is not yet created. -/
  | ldv (o : Order) (p : Pal) (d : Reg) (a : Reg) (c : Reg)
  /-- STV (R290): Creates a new version of a versioned word and returns its number. -/
  | stv (o : Order) (p : Pal) (d : Reg) (a : Reg) (c : Reg)
  /-- RECL (R291): Removes live versions older than a bound, keeping the newest. -/
  | recl (o : Order) (p : Pal) (a : Reg) (c : Reg)
  /-- PREF_L1 (R284): Hints a line into the core's L1. -/
  | prefL1 (base : Reg) (off : BitVec 12)
  /-- PREF_L2 (R284): Hints a line into its home slice L2. -/
  | prefL2 (base : Reg) (off : BitVec 12)
  /-- CLEAN (R285): Writes a dirty line back and keeps it. -/
  | clean (base : Reg) (off : BitVec 12)
  /-- INVAL (R285): Writes back if dirty and drops the core's L1 copy of a line. -/
  | inval (base : Reg) (off : BitVec 12)
  /-- CFETCH (R287): Starts the fetch of an overlay segment into local memory, marking its pages LANDING. -/
  | cfetch (a : Reg) (imm : BitVec 15)
  /-- AMOADD_AUTO (R292): Atomic add, placement chosen by the predictor. -/
  | amoaddAuto (o : Order) (ret : Bool) (p : Pal) (d : Reg) (a : Reg) (c : Reg)
  /-- AMOMIN_AUTO (R292): Atomic signed minimum, auto placement. -/
  | amominAuto (o : Order) (ret : Bool) (p : Pal) (d : Reg) (a : Reg) (c : Reg)
  /-- AMOMAX_AUTO (R292): Atomic signed maximum, auto placement. -/
  | amomaxAuto (o : Order) (ret : Bool) (p : Pal) (d : Reg) (a : Reg) (c : Reg)
  /-- AMOMINU_AUTO (R292): Atomic unsigned minimum, auto placement. -/
  | amominuAuto (o : Order) (ret : Bool) (p : Pal) (d : Reg) (a : Reg) (c : Reg)
  /-- AMOMAXU_AUTO (R292): Atomic unsigned maximum, auto placement. -/
  | amomaxuAuto (o : Order) (ret : Bool) (p : Pal) (d : Reg) (a : Reg) (c : Reg)
  /-- AMOFADD_S_AUTO (R292): Atomic FP32 add under RNE, auto placement. -/
  | amofaddSAuto (o : Order) (ret : Bool) (p : Pal) (d : Reg) (a : Reg) (c : Reg)
  /-- AMOFADD_D_AUTO (R292): Atomic FP64 add under RNE, auto placement. -/
  | amofaddDAuto (o : Order) (ret : Bool) (p : Pal) (d : Reg) (a : Reg) (c : Reg)
  /-- AMOADD_LOC (R292): Atomic add performed in the L1. -/
  | amoaddLoc (o : Order) (ret : Bool) (p : Pal) (d : Reg) (a : Reg) (c : Reg)
  /-- AMOMIN_LOC (R292): Atomic signed minimum in the L1. -/
  | amominLoc (o : Order) (ret : Bool) (p : Pal) (d : Reg) (a : Reg) (c : Reg)
  /-- AMOMAX_LOC (R292): Atomic signed maximum in the L1. -/
  | amomaxLoc (o : Order) (ret : Bool) (p : Pal) (d : Reg) (a : Reg) (c : Reg)
  /-- AMOMINU_LOC (R292): Atomic unsigned minimum in the L1. -/
  | amominuLoc (o : Order) (ret : Bool) (p : Pal) (d : Reg) (a : Reg) (c : Reg)
  /-- AMOMAXU_LOC (R292): Atomic unsigned maximum in the L1. -/
  | amomaxuLoc (o : Order) (ret : Bool) (p : Pal) (d : Reg) (a : Reg) (c : Reg)
  /-- AMOFADD_S_LOC (R292): Atomic FP32 add in the L1. -/
  | amofaddSLoc (o : Order) (ret : Bool) (p : Pal) (d : Reg) (a : Reg) (c : Reg)
  /-- AMOFADD_D_LOC (R292): Atomic FP64 add in the L1. -/
  | amofaddDLoc (o : Order) (ret : Bool) (p : Pal) (d : Reg) (a : Reg) (c : Reg)
  /-- AMOADD_HOME (R292): Atomic add at the home slice. -/
  | amoaddHome (o : Order) (ret : Bool) (p : Pal) (d : Reg) (a : Reg) (c : Reg)
  /-- AMOMIN_HOME (R292): Atomic signed minimum at the home slice. -/
  | amominHome (o : Order) (ret : Bool) (p : Pal) (d : Reg) (a : Reg) (c : Reg)
  /-- AMOMAX_HOME (R292): Atomic signed maximum at the home slice. -/
  | amomaxHome (o : Order) (ret : Bool) (p : Pal) (d : Reg) (a : Reg) (c : Reg)
  /-- AMOMINU_HOME (R292): Atomic unsigned minimum at the home slice. -/
  | amominuHome (o : Order) (ret : Bool) (p : Pal) (d : Reg) (a : Reg) (c : Reg)
  /-- AMOMAXU_HOME (R292): Atomic unsigned maximum at the home slice. -/
  | amomaxuHome (o : Order) (ret : Bool) (p : Pal) (d : Reg) (a : Reg) (c : Reg)
  /-- AMOFADD_S_HOME (R292): Atomic FP32 add at the home slice. -/
  | amofaddSHome (o : Order) (ret : Bool) (p : Pal) (d : Reg) (a : Reg) (c : Reg)
  /-- AMOFADD_D_HOME (R292): Atomic FP64 add at the home slice. -/
  | amofaddDHome (o : Order) (ret : Bool) (p : Pal) (d : Reg) (a : Reg) (c : Reg)
  /-- AMOAND_AUTO (R292): Atomic AND, auto placement. -/
  | amoandAuto (o : Order) (ret : Bool) (p : Pal) (d : Reg) (a : Reg) (c : Reg)
  /-- AMOOR_AUTO (R292): Atomic OR, auto placement. -/
  | amoorAuto (o : Order) (ret : Bool) (p : Pal) (d : Reg) (a : Reg) (c : Reg)
  /-- AMOXOR_AUTO (R292): Atomic XOR, auto placement. -/
  | amoxorAuto (o : Order) (ret : Bool) (p : Pal) (d : Reg) (a : Reg) (c : Reg)
  /-- AMOSWAP_AUTO (R292): Atomic exchange, auto placement. -/
  | amoswapAuto (o : Order) (ret : Bool) (p : Pal) (d : Reg) (a : Reg) (c : Reg)
  /-- AMOCAS_AUTO (R292): Atomic compare-and-swap, auto placement. -/
  | amocasAuto (o : Order) (ret : Bool) (p : Pal) (d : Reg) (a : Reg) (c : Reg)
  /-- AMOAND_LOC (R292): Atomic AND in the L1. -/
  | amoandLoc (o : Order) (ret : Bool) (p : Pal) (d : Reg) (a : Reg) (c : Reg)
  /-- AMOOR_LOC (R292): Atomic OR in the L1. -/
  | amoorLoc (o : Order) (ret : Bool) (p : Pal) (d : Reg) (a : Reg) (c : Reg)
  /-- AMOXOR_LOC (R292): Atomic XOR in the L1. -/
  | amoxorLoc (o : Order) (ret : Bool) (p : Pal) (d : Reg) (a : Reg) (c : Reg)
  /-- AMOSWAP_LOC (R292): Atomic exchange in the L1. -/
  | amoswapLoc (o : Order) (ret : Bool) (p : Pal) (d : Reg) (a : Reg) (c : Reg)
  /-- AMOCAS_LOC (R292): Atomic compare-and-swap in the L1. -/
  | amocasLoc (o : Order) (ret : Bool) (p : Pal) (d : Reg) (a : Reg) (c : Reg)
  /-- AMOAND_HOME (R292): Atomic AND at the home slice. -/
  | amoandHome (o : Order) (ret : Bool) (p : Pal) (d : Reg) (a : Reg) (c : Reg)
  /-- AMOOR_HOME (R292): Atomic OR at the home slice. -/
  | amoorHome (o : Order) (ret : Bool) (p : Pal) (d : Reg) (a : Reg) (c : Reg)
  /-- AMOXOR_HOME (R292): Atomic XOR at the home slice. -/
  | amoxorHome (o : Order) (ret : Bool) (p : Pal) (d : Reg) (a : Reg) (c : Reg)
  /-- AMOSWAP_HOME (R292): Atomic exchange at the home slice. -/
  | amoswapHome (o : Order) (ret : Bool) (p : Pal) (d : Reg) (a : Reg) (c : Reg)
  /-- AMOCAS_HOME (R292): Atomic compare-and-swap at the home slice. -/
  | amocasHome (o : Order) (ret : Bool) (p : Pal) (d : Reg) (a : Reg) (c : Reg)
  /-- VAMO_ADD (R296): Non-returning per-element atomic add at scattered addresses. -/
  | vamoAdd (t : VTy) (q : QReg) (s : Reg) (a : VReg) (b : VReg)
  /-- VAMO_MIN (R296): Per-element atomic signed or FP minimum. -/
  | vamoMin (t : VTy) (q : QReg) (s : Reg) (a : VReg) (b : VReg)
  /-- VAMO_MAX (R296): Per-element atomic signed or FP maximum. -/
  | vamoMax (t : VTy) (q : QReg) (s : Reg) (a : VReg) (b : VReg)
  /-- VAMO_MINU (R296): Per-element atomic unsigned minimum. -/
  | vamoMinu (t : VTy) (q : QReg) (s : Reg) (a : VReg) (b : VReg)
  /-- VAMO_MAXU (R296): Per-element atomic unsigned maximum. -/
  | vamoMaxu (t : VTy) (q : QReg) (s : Reg) (a : VReg) (b : VReg)
  /-- VAMO_AND (R296): Per-element atomic AND. -/
  | vamoAnd (t : VTy) (q : QReg) (s : Reg) (a : VReg) (b : VReg)
  /-- VAMO_OR (R296): Per-element atomic OR. -/
  | vamoOr (t : VTy) (q : QReg) (s : Reg) (a : VReg) (b : VReg)
  /-- VAMO_XOR (R296): Per-element atomic XOR. -/
  | vamoXor (t : VTy) (q : QReg) (s : Reg) (a : VReg) (b : VReg)
  /-- FENCE (R299): Orders the thread set's accesses in the classes its palette entry covers. -/
  | fence (o : Order) (p : Pal)
  /-- PALSET (R300): Requests installation of a new membership in a palette entry. -/
  | palset (o : Order) (d : Reg) (a : Reg) (e : Reg)
  /-- PALGET (R302): Reads the core's copy of a palette entry and its status. -/
  | palget (o : Order) (d : Reg) (a : Reg) (e : Reg)
  /-- PALINV (R301): Requests invalidation of a palette entry. -/
  | palinv (o : Order) (e : Reg)
  /-- WAITA (R303): Waits at the home slice while a word equals the expected value. -/
  | waita (o : Order) (p : Pal) (d : Reg) (a : Reg) (c : Reg)
  /-- WAKE (R303): Releases up to n waiters of a word. -/
  | wake (o : Order) (p : Pal) (d : Reg) (a : Reg) (c : Reg)
  /-- BARL (R227): Arrives at the launch barrier of an aligned sub-rectangle and waits for it to fire. -/
  | barl (o : Order) (p : Pal) (a : Reg)
  /-- EVWAIT (R224): Waits on or acts at a quad event line by its type. -/
  | evwait (d : Reg) (base : Reg) (off : BitVec 12)
  /-- EVSIG (R224): Signals a quad event line by its type. -/
  | evsig (base : Reg) (off : BitVec 12)
  /-- CPOST (R228): Posts a continuation record to a stage queue and returns a status. -/
  | cpost (d : Reg) (a : Reg) (stage : BitVec 3)
  /-- TASKEND (R229): Waits for the thread set's writes and ends or idles the thread set. -/
  | taskend
  /-- YIELD (R230): Makes the thread set not READY for one cycle. -/
  | yield
  /-- SEND (R231): Sends a 64-byte channel message to a thread set's inbox. -/
  | send (a : Reg) (b : Reg)
  /-- IBXPOP (R232): Removes the oldest inbox entry into local memory. -/
  | ibxpop (d : Reg) (a : Reg)
  /-- IBXPEEK (R232): Copies the oldest inbox entry without removal. -/
  | ibxpeek (d : Reg) (a : Reg)
  /-- IBXWAIT (R233): Waits for a non-empty inbox and returns its status. -/
  | ibxwait (d : Reg)
  /-- ENQ (R318): Enqueues a tile command word read from local memory. -/
  | enq (a : Reg)
  /-- ENQV (R318): Enqueues a tile command word held in a vector register. -/
  | enqv (a : VReg)
  /-- TRGADD (R325): Adds to a trigger counter as a release on p1. -/
  | trgadd (n : BitVec 6) (a : Reg)
  /-- TRGSET (R325): Sets a trigger counter unless armed commands refuse it. -/
  | trgset (f : Bool) (n : BitVec 6) (d : Reg) (a : Reg)
  /-- TRGWAIT (R325): Waits until a trigger counter passes a threshold. -/
  | trgwait (n : BitVec 6) (a : Reg)
  /-- TRGGET (R325): Reads a trigger counter. -/
  | trgget (n : BitVec 6) (d : Reg)
  /-- VADD (R138): Element-wise add on active elements. -/
  | vadd (t : VTy) (q : QReg) (d : VReg) (a : VReg) (b : VReg)
  /-- VSUB (R138): Element-wise subtract. -/
  | vsub (t : VTy) (q : QReg) (d : VReg) (a : VReg) (b : VReg)
  /-- VMUL (R138): Element-wise multiply. -/
  | vmul (t : VTy) (q : QReg) (d : VReg) (a : VReg) (b : VReg)
  /-- VMULH (R138): Element-wise signed high multiply. -/
  | vmulh (t : VTy) (q : QReg) (d : VReg) (a : VReg) (b : VReg)
  /-- VDIV (R138): Element-wise divide in the shared vector divider. -/
  | vdiv (t : VTy) (q : QReg) (d : VReg) (a : VReg) (b : VReg)
  /-- VMIN (R138): Element-wise signed or FP minimum. -/
  | vmin (t : VTy) (q : QReg) (d : VReg) (a : VReg) (b : VReg)
  /-- VMAX (R138): Element-wise signed or FP maximum. -/
  | vmax (t : VTy) (q : QReg) (d : VReg) (a : VReg) (b : VReg)
  /-- VABS (R138): Element-wise absolute value. -/
  | vabs (t : VTy) (q : QReg) (d : VReg) (a : VReg)
  /-- VAND (R138): Element-wise bitwise AND. -/
  | vand (t : VTy) (q : QReg) (d : VReg) (a : VReg) (b : VReg)
  /-- VOR (R138): Element-wise bitwise OR. -/
  | vor (t : VTy) (q : QReg) (d : VReg) (a : VReg) (b : VReg)
  /-- VXOR (R138): Element-wise bitwise XOR. -/
  | vxor (t : VTy) (q : QReg) (d : VReg) (a : VReg) (b : VReg)
  /-- VSHL (R138): Element-wise shift left. -/
  | vshl (t : VTy) (q : QReg) (d : VReg) (a : VReg) (b : VReg)
  /-- VSHR (R138): Element-wise logical shift right. -/
  | vshr (t : VTy) (q : QReg) (d : VReg) (a : VReg) (b : VReg)
  /-- VSRA (R138): Element-wise arithmetic shift right. -/
  | vsra (t : VTy) (q : QReg) (d : VReg) (a : VReg) (b : VReg)
  /-- VADD_SS (R138): Element-wise signed saturating add. -/
  | vaddSs (t : VTy) (q : QReg) (d : VReg) (a : VReg) (b : VReg)
  /-- VSUB_SS (R138): Element-wise signed saturating subtract. -/
  | vsubSs (t : VTy) (q : QReg) (d : VReg) (a : VReg) (b : VReg)
  /-- VADD_US (R138): Element-wise unsigned saturating add. -/
  | vaddUs (t : VTy) (q : QReg) (d : VReg) (a : VReg) (b : VReg)
  /-- VSUB_US (R138): Element-wise unsigned saturating subtract. -/
  | vsubUs (t : VTy) (q : QReg) (d : VReg) (a : VReg) (b : VReg)
  /-- VMULH_U (R138): Element-wise unsigned high multiply. -/
  | vmulhU (t : VTy) (q : QReg) (d : VReg) (a : VReg) (b : VReg)
  /-- VMIN_U (R138): Element-wise unsigned minimum. -/
  | vminU (t : VTy) (q : QReg) (d : VReg) (a : VReg) (b : VReg)
  /-- VMAX_U (R138): Element-wise unsigned maximum. -/
  | vmaxU (t : VTy) (q : QReg) (d : VReg) (a : VReg) (b : VReg)
  /-- VDIV_U (R138): Element-wise unsigned divide. -/
  | vdivU (t : VTy) (q : QReg) (d : VReg) (a : VReg) (b : VReg)
  /-- VFMA (R139): Element-wise va × vb + vd with one rounding. -/
  | vfma (t : VTy) (q : QReg) (d : VReg) (a : VReg) (b : VReg)
  /-- VFMS (R139): Element-wise va × vb − vd with one rounding. -/
  | vfms (t : VTy) (q : QReg) (d : VReg) (a : VReg) (b : VReg)
  /-- VMUL_L (R140): Multiplies elements by a broadcast trailing literal. -/
  | vmulL (t : VTy) (q : QReg) (d : VReg) (a : VReg) (l : W32)
  /-- VFMA_L (R140): Fused multiply-add of elements by a broadcast trailing literal. -/
  | vfmaL (t : VTy) (q : QReg) (d : VReg) (a : VReg) (l : W32)
  /-- VMUL_K (R140): Multiplies all elements by a broadcast constant-bank entry. -/
  | vmulK (t : VTy) (d : VReg) (a : VReg) (k : BitVec 10)
  /-- VFMA_K (R140): Fused multiply-add of all elements by a constant-bank entry. -/
  | vfmaK (t : VTy) (d : VReg) (a : VReg) (k : BitVec 10)
  /-- VCMP_EQ (R141): Writes a predicate of element equality. -/
  | vcmpEq (t : VTy) (q : QReg) (d : QReg) (a : VReg) (b : VReg)
  /-- VCMP_NE (R141): Writes a predicate of element inequality. -/
  | vcmpNe (t : VTy) (q : QReg) (d : QReg) (a : VReg) (b : VReg)
  /-- VCMP_LT (R141): Writes a predicate of element less-than. -/
  | vcmpLt (t : VTy) (q : QReg) (d : QReg) (a : VReg) (b : VReg)
  /-- VCMP_LE (R141): Writes a predicate of element less-or-equal. -/
  | vcmpLe (t : VTy) (q : QReg) (d : QReg) (a : VReg) (b : VReg)
  /-- VCMP_LTU (R141): Writes a predicate of unsigned less-than. -/
  | vcmpLtu (t : VTy) (q : QReg) (d : QReg) (a : VReg) (b : VReg)
  /-- VCMP_LEU (R141): Writes a predicate of unsigned less-or-equal. -/
  | vcmpLeu (t : VTy) (q : QReg) (d : QReg) (a : VReg) (b : VReg)
  /-- VCMP_UN (R141): Writes a predicate of unordered FP elements. -/
  | vcmpUn (t : VTy) (q : QReg) (d : QReg) (a : VReg) (b : VReg)
  /-- VSEL (R142): Selects each element from va or vb by a predicate. -/
  | vsel (t : VTy) (q : QReg) (d : VReg) (a : VReg) (b : VReg)
  /-- VCVT (R144): Converts elements between types. -/
  | vcvt (sat : Bool) (src : VTy) (t : VTy) (q : QReg) (d : VReg) (a : VReg)
  /-- VPERM (R145): Permutes elements of va by indices in vb. -/
  | vperm (t : VTy) (q : QReg) (d : VReg) (a : VReg) (b : VReg)
  /-- VSLIDE_UP (R145): Slides elements up by a scalar count. -/
  | vslideUp (t : VTy) (q : QReg) (d : VReg) (a : VReg) (b : Reg)
  /-- VSLIDE_DN (R145): Slides elements down by a scalar count. -/
  | vslideDn (t : VTy) (q : QReg) (d : VReg) (a : VReg) (b : Reg)
  /-- VBCAST (R145): Broadcasts one element of va. -/
  | vbcast (t : VTy) (q : QReg) (d : VReg) (a : VReg) (b : Reg)
  /-- VSPLAT (R145): Broadcasts a scalar register into elements. -/
  | vsplat (t : VTy) (q : QReg) (d : VReg) (a : Reg)
  /-- VEXT (R145): Extracts one element into a scalar register. -/
  | vext (t : VTy) (d : Reg) (a : VReg) (b : Reg)
  /-- VINS (R145): Inserts a scalar into one element. -/
  | vins (t : VTy) (d : VReg) (a : Reg) (b : Reg)
  /-- VRED_ADD (R146): Sums elements by the fixed tree into a scalar. -/
  | vredAdd (t : VTy) (q : QReg) (d : Reg) (a : VReg)
  /-- VRED_MIN (R146): Reduces elements to their minimum. -/
  | vredMin (t : VTy) (q : QReg) (d : Reg) (a : VReg)
  /-- VRED_MAX (R146): Reduces elements to their maximum. -/
  | vredMax (t : VTy) (q : QReg) (d : Reg) (a : VReg)
  /-- VRED_MINU (R146): Reduces elements to their unsigned minimum. -/
  | vredMinu (t : VTy) (q : QReg) (d : Reg) (a : VReg)
  /-- VRED_MAXU (R146): Reduces elements to their unsigned maximum. -/
  | vredMaxu (t : VTy) (q : QReg) (d : Reg) (a : VReg)
  /-- VRED_AND (R146): Reduces elements by AND. -/
  | vredAnd (t : VTy) (q : QReg) (d : Reg) (a : VReg)
  /-- VRED_OR (R146): Reduces elements by OR. -/
  | vredOr (t : VTy) (q : QReg) (d : Reg) (a : VReg)
  /-- VRED_XOR (R146): Reduces elements by XOR. -/
  | vredXor (t : VTy) (q : QReg) (d : Reg) (a : VReg)
  /-- VSCAN_ADD (R147): Inclusive serial prefix sum in the scan unit. -/
  | vscanAdd (t : VTy) (q : QReg) (d : VReg) (a : VReg)
  /-- VSCAN_ADDX (R147): Exclusive serial prefix sum. -/
  | vscanAddx (t : VTy) (q : QReg) (d : VReg) (a : VReg)
  /-- VSCAN_MAX (R147): Serial prefix maximum. -/
  | vscanMax (t : VTy) (q : QReg) (d : VReg) (a : VReg)
  /-- VSCAN_MIN (R147): Serial prefix minimum. -/
  | vscanMin (t : VTy) (q : QReg) (d : VReg) (a : VReg)
  /-- VDOT (R148): Signed or FP dot product accumulated into 32-bit lanes. -/
  | vdot (t : VTy) (q : QReg) (d : VReg) (a : VReg) (b : VReg)
  /-- VDOT_U (R148): Unsigned integer dot product into 32-bit lanes. -/
  | vdotU (t : VTy) (q : QReg) (d : VReg) (a : VReg) (b : VReg)
  /-- VCLMUL (R149): Carry-less multiply of selected 64-bit halves per 128-bit lane. -/
  | vclmul (h : BitVec 2) (q : QReg) (d : VReg) (a : VReg) (b : VReg)
  /-- VPOPC (R149): Counts one bits of each active element. -/
  | vpopc (t : VTy) (q : QReg) (d : VReg) (a : VReg)
  /-- QAND (R143): ANDs two predicate registers. -/
  | qand (d : QReg) (a : QReg) (b : QReg)
  /-- QOR (R143): ORs two predicate registers. -/
  | qor (d : QReg) (a : QReg) (b : QReg)
  /-- QXOR (R143): XORs two predicate registers. -/
  | qxor (d : QReg) (a : QReg) (b : QReg)
  /-- QNOT (R143): Inverts a predicate register. -/
  | qnot (d : QReg) (a : QReg)
  /-- VLD (R150): Loads contiguous elements from base plus offset. -/
  | vld (t : VTy) (q : QReg) (d : VReg) (a : Reg) (b : Reg)
  /-- VST (R150): Stores contiguous elements. -/
  | vst (t : VTy) (q : QReg) (d : VReg) (a : Reg) (b : Reg)
  /-- VLDS (R150): Loads strided elements. -/
  | vlds (t : VTy) (q : QReg) (d : VReg) (a : Reg) (b : Reg)
  /-- VSTS (R150): Stores strided elements. -/
  | vsts (t : VTy) (q : QReg) (d : VReg) (a : Reg) (b : Reg)
  /-- VLDX (R150): Gathers elements at vector offsets. -/
  | vldx (t : VTy) (q : QReg) (d : VReg) (a : Reg) (b : VReg)
  /-- VSTX (R150): Scatters elements at vector offsets. -/
  | vstx (t : VTy) (q : QReg) (d : VReg) (a : Reg) (b : VReg)
  /-- SBIND (R156): Binds a register to a stream slot with a pattern descriptor. -/
  | sbind (w : Bool) (v : Bool) (slot : BitVec 3) (d : Reg) (a : Reg)
  /-- SFREE (R161): Frees a stream slot, draining a write slot first. -/
  | sfree (slot : BitVec 3)
  /-- SSTAT (R162): Returns a stream slot's status word. -/
  | sstat (slot : BitVec 3) (d : Reg)
  /-- SSKIP (R161): Advances a stream slot without accessing elements. -/
  | sskip (slot : BitVec 3) (a : Reg)
  /-- SDRAIN (R161): Drains a write slot or discards a read slot's buffer. -/
  | sdrain (slot : BitVec 3)
  /-- MMA (R343): Accepts a dense tile product into an accumulator. -/
  | mma (d : Acc) (a : Reg) (b : Reg)
  /-- MMAS (R344): Accepts a structured-sparse tile product after the metadata check. -/
  | mmas (d : Acc) (a : Reg) (b : Reg)
  /-- MGANG_MMA (R345): Arrives at the quad gang barrier for a joint dense product. -/
  | mgangMma (d : Acc) (a : Reg) (b : Reg)
  /-- MGANG_MMAS (R345): Arrives at the quad gang barrier for a joint sparse product. -/
  | mgangMmas (d : Acc) (a : Reg) (b : Reg)
  /-- MREC (R348): Accepts a microprogrammed recurrence over a tile pair. -/
  | mrec (d : Acc) (a : Reg) (b : Reg)
  /-- MFMT (R341): Installs or ends the matrix format context. -/
  | mfmt (a : Reg)
  /-- MZERO (R342): Accepts zeroing of an accumulator. -/
  | mzero (d : Acc)
  /-- MLDC (R342): Loads an accumulator image from local memory. -/
  | mldc (d : Acc) (a : Reg)
  /-- MSTC (R342): Converts and stores an accumulator to local memory. -/
  | mstc (d : Acc) (a : Reg)
  /-- MUPROG (R347): Loads the matrix microprogram. -/
  | muprog (a : Reg)
  /-- TRAP (R124): Traps with cause 0x05 and the immediate in EVAL. -/
  | trap (imm : BitVec 15)
  /-- ERET (R125): Returns from a synchronous trap handler to EPC. -/
  | eret
  /-- UXRET (R126): Returns from a user-level interrupt handler to UXEPC. -/
  | uxret
  /-- IFENCE (R129): Empties the fetch buffer so later fetches see landed writes. -/
  | ifence
  /-- HALT (R131): Stops issue of an F thread set until a restart message. -/
  | halt
  /-- RAND (R130): Writes 64 bits from the entropy source. -/
  | rand (d : Reg)
  /-- CTLRD (R127): Reads a control register by index. -/
  | ctlrd (c : BitVec 12) (d : Reg)
  /-- CTLWR (R127): Writes a control register by index, for registers with no row of their own. -/
  | ctlwr (c : BitVec 12) (a : Reg)
  /-- STATUS_WRITE (R128): Write of STATUS that waits for older flag-accruing instructions and may enable a pending interrupt. -/
  | statusWrite (a : Reg)
  /-- LMHWM_WRITE (R401): Write of the lending mark that may trigger a reclaim of lent windows. -/
  | lmhwmWrite (a : Reg)
  /-- MSTAT_WRITE (R334): Write-one-to-clear of the matrix status bits. -/
  | mstatWrite (a : Reg)
  /-- MELOC_READ (R466): Read of the last machine-error location, clearing it. -/
  | melocRead (d : Reg)
  /-- SUMSTAT_READ (R431): Read of a sum port status that clears LOWERED. -/
  | sumstatRead (d : Reg) (die : Nat)
  /-- EVENT_CONFIG_STORE (R190): Store of an event line's configuration word, resetting the line and releasing waiters. -/
  | eventConfigStore (line : BitVec 5) (a : Reg)
  /-- FWCTL_WRITE (R390): Write of a router firewall register by a dispatcher or firmware. -/
  | fwctlWrite (core : Nat) (x : Word)
  /-- OPORTCFG_WRITE (R425): Write of an optical port configuration, refused if minimums exceed the lanes. -/
  | oportcfgWrite (die : Nat) (port : Nat) (x : Word)
  /-- LANE_RETIRE (R424): Setting RET retires a VCSEL lane. -/
  | laneRetire (die : Nat) (lane : Nat)
  /-- FW_REGISTER_WRITE (R466): Store to a firmware register block through aperture 0x405 with no row of its own. -/
  | fwRegisterWrite (reg : FwReg) (x : Word)
  /-- UX_ENTRY (R322): A pending user-level interrupt is taken at an instruction boundary. -/
  | uxEntry
  /-- SCHEDULING_EVENT (R34): A budget or revocation event is delivered at an instruction boundary. -/
  | schedulingEvent
  /-- THREAD_SWITCH (R171): After 256 consecutive issue cycles the core switches to another READY thread set. -/
  | threadSwitch
  /-- BUDGET_REFRESH (R17): The accounting hardware refreshes the budget registers. -/
  | budgetRefresh
  /-- TMMA (R351): Tiled matrix product run in chunks on the slice's own accumulator. -/
  | tmma (core : Nat) (cq : Nat) (n : Nat)
  /-- TMMAS (R351): Tiled sparse matrix product run in chunks. -/
  | tmmas (core : Nat) (cq : Nat) (n : Nat)
  /-- TMREC (R351): Tiled microprogrammed recurrence run in chunks. -/
  | tmrec (core : Nat) (cq : Nat) (n : Nat)
  /-- COPY (R359): Copies a strided pattern of elements in chunks. -/
  | copy (core : Nat) (cq : Nat) (n : Nat)
  /-- FILL (R359): Fills a strided destination with a pattern. -/
  | fill (core : Nat) (cq : Nat) (n : Nat)
  /-- GATHER32 (R360): Gathers up to 32 indexed rows. -/
  | gather32 (core : Nat) (cq : Nat) (n : Nat)
  /-- SCATTER32 (R360): Scatters up to 32 rows to indexed places. -/
  | scatter32 (core : Nat) (cq : Nat) (n : Nat)
  /-- MERGE (R361): Adds two sparse record lists into sparse or dense output. -/
  | merge (core : Nat) (cq : Nat) (n : Nat)
  /-- COMPACT (R362): Turns nonzero dense values into records. -/
  | compact (core : Nat) (cq : Nat) (n : Nat)
  /-- OSUM (R448): Integer sum across packages on the counting bus. -/
  | osum (core : Nat) (cq : Nat) (n : Nat)
  /-- OSUMB (R449): Block-scaled FP sum across packages. -/
  | osumb (core : Nat) (cq : Nat) (n : Nat)
  /-- OMAX (R450): Maximum of unsigned keys across packages. -/
  | omax (core : Nat) (cq : Nat) (n : Nat)
  /-- OBCAST (R451): Broadcast of the root's elements across packages. -/
  | obcast (core : Nat) (cq : Nat) (n : Nat)
  /-- OLINK (R454): Sends bytes over a link port to a peer package and sets its flag. -/
  | olink (core : Nat) (cq : Nat) (n : Nat)
  /-- SEGMENT_LANDED (R287): The overlay copy ends and every page of the region becomes RESIDENT. -/
  | segmentLanded (core : Nat) (seg : Nat)
  /-- COMMAND_COMPLETION (R319): An engine command ends: counter, release, inbox entry and interrupt. -/
  | commandCompletion (core : Nat) (cq : Nat) (n : Nat)
  /-- MATRIX_OPERATION (R338): An accepted matrix operation runs on the slice. -/
  | matrixOperation (core : Nat)
  /-- DOORBELL (R199): A write to a queue's doorbell lets the fetch unit read new entries. -/
  | doorbell (pid : Nat) (q : Nat) (x : W32)
  /-- QUEUE_STATE_WRITE (R200): Software writes a queue's STATE, moving it between states. -/
  | queueStateWrite (pid : Nat) (q : Nat) (x : Byte)
  /-- PACKET_FETCH (R209): The fetch unit copies a packet ahead of the processing point. -/
  | packetFetch (pid : Nat) (q : Nat)
  /-- LAUNCH (R213): A launch packet is checked and admitted or refused. -/
  | launch (pid : Nat) (q : Nat)
  /-- INDIRECT (R204): Processes a buffer of packets once. -/
  | indirect (pid : Nat) (q : Nat)
  /-- LOOP (R204): Processes a buffer of packets PASSES times with address strides. -/
  | loop (pid : Nat) (q : Nat)
  /-- PREDICATE (R205): Reads a word and skips following packets when the relation fails. -/
  | predicate (pid : Nat) (q : Nat)
  /-- FETCH_FENCE (R206): Waits for a gate word and discards fetched copies after it. -/
  | fetchFence (pid : Nat) (q : Nat)
  /-- GATE_POLL (R206): Periodic re-read of a fence's gate word. -/
  | gatePoll (pid : Nat) (q : Nat)
  /-- TIMESTAMP (R207): Writes device time to an address as a release on p15. -/
  | timestamp (pid : Nat) (q : Nat)
  /-- NOP_PACKET (R207): A packet with no effect beyond its flags. -/
  | nopPacket (pid : Nat) (q : Nat)
  /-- LAUNCH_DISPATCH (R216): The dispatcher places the earliest startable launch, pre-empting if needed. -/
  | launchDispatch (pid : Nat)
  /-- LAUNCH_START (R178): A placed launch claims its rectangle and starts image multicast. -/
  | launchStart (pid : Nat) (lid : Nat)
  /-- IMAGE_MULTICAST_DONE (R179): The last image byte lands, membership is set and the release broadcast goes out. -/
  | imageMulticastDone (pid : Nat) (lid : Nat)
  /-- LAUNCH_COMPLETE (R180): A launch meets its completion conditions and its rectangle is released. -/
  | launchComplete (pid : Nat) (lid : Nat)
  /-- BUDGET_OVERRUN (R212): A budget class reaches zero and the overrun policy applies. -/
  | budgetOverrun (pid : Nat) (lid : Nat) (k : BitVec 2)
  /-- GRACE_EXPIRY (R212): The grace after a TRAP overrun runs out and the launch is killed. -/
  | graceExpiry (pid : Nat) (lid : Nat) (k : BitVec 2)
  /-- DEADLINE_MISSED (R212): A launch still running at its deadline gets MISSED. -/
  | deadlineMissed (pid : Nat) (lid : Nat)
  /-- STAGE_REBALANCE (R187): Every 10 µs cores are moved from a donor stage to a receiver. -/
  | stageRebalance (pid : Nat) (lid : Nat)
  /-- STAGE_JOIN (R188): A moving core joins the receiver stage once all its thread sets are IDLE. -/
  | stageJoin (core : Nat)
  /-- RECORD_DISPATCH (R184): A continuation record is dispatched to an IDLE thread set with its footprint fetched. -/
  | recordDispatch (core : Nat)
  /-- STAGED_LAUNCH_END (R186): A staged launch ends all thread sets once queues are empty and all are IDLE. -/
  | stagedLaunchEnd (pid : Nat) (lid : Nat)
  /-- MESSAGE_DELIVERY (R196): A channel message lands in an inbox, is spilled or dropped. -/
  | messageDelivery (n : Nat)
  /-- CHAIN_MESSAGE (R194): A barrier chain message arrives at the event lines of a quad block. -/
  | chainMessage (n : Nat)
  /-- PALETTE_INVALIDATE (R271): A core receives INVALIDATE, drains the old generation and acknowledges. -/
  | paletteInvalidate (n : Nat)
  /-- PALETTE_INSTALL (R271): A core receives INSTALL, makes the entry VALID and acknowledges. -/
  | paletteInstall (n : Nat)
  /-- PALETTE_ACK (R271): The palette home collects acknowledgements and sends the next step or the completion. -/
  | paletteAck (n : Nat)
  /-- STORE_PERFORM (R283): A retired store is committed in the background. -/
  | storePerform (n : Nat)
  /-- AMO_PERFORM (R294): A retired non-returning atomic or VAMO element is performed. -/
  | amoPerform (n : Nat)
  /-- STREAM_FETCH_AHEAD (R159): The stream unit fetches read elements ahead of the pop position. -/
  | streamFetchAhead (core : Nat) (tid : Nat) (slot : BitVec 3)
  /-- PREEMPT (R383): A mesh interrupt message stops issue on a core for pre-emption. -/
  | preempt (core : Nat)
  /-- PREEMPTIBLE_POINT (R380): All thread sets meet their bounds and the register save starts. -/
  | preemptiblePoint (core : Nat)
  /-- RESUME (R385): A pre-empted launch is read back onto its core and resumes. -/
  | resume (pid : Nat) (lid : Nat)
  /-- EVICTION (R387): A launch is ended, its commands stopped and its record written. -/
  | eviction (pid : Nat) (lid : Nat) (outcome : Nat)
  /-- HOST_FAULT_ANSWER (R388): The host resolves or denies a forwarded fault ticket. -/
  | hostFaultAnswer (ticket : Nat) (granted : Bool)
  /-- INVALIDATION_REQUEST (R392): The host driver requests a translation invalidation. -/
  | invalidationRequest (pid : Nat) (va : Word) (pages : Word) (seq : Word)
  /-- INVALIDATION_COMPLETE (R392): An invalidation completes and SEQ is written to INVSEQ. -/
  | invalidationComplete (pid : Nat)
  /-- PARTITION_CREATE (R389): Firmware creates or changes a partition on host request. -/
  | partitionCreate (p : PartRec)
  /-- HOST_ACCESS (R419): A coherent host access over the Gwerid link. -/
  | hostAccess (h : HostOp)
  /-- PENUMBRA_PLACEMENT (R395): A penumbra context is placed in a reserve bank and window. -/
  | penumbraPlacement (pid : Nat) (lid : Nat)
  /-- RECLAIM_COMPLETE (R401): A reclaim of lent pages completes and owner accesses proceed. -/
  | reclaimComplete (core : Nat)
  /-- PENUMBRA_REPLACEMENT (R405): A parked context is placed again and takes REVOKED. -/
  | penumbraReplacement (pid : Nat) (lid : Nat) (rank : Nat) (core : Nat)
  /-- LINK_FAILURE (R415): A mesh link fails after 16 retries or loss of lock. -/
  | linkFailure (l : Link)
  /-- LINK_REROUTE (R416): The link manager computes and installs detours or escape routes. -/
  | linkReroute (l : Link) (detours : List Detour)
  /-- FLOW_DRAIN (R417): A flow changes route once its injected flits are delivered. -/
  | flowDrain (f : Flow)
  /-- LINK_RESTORE (R418): Firmware restores a link and reroutes back. -/
  | linkRestore (l : Link)
  /-- GWERID_RETRAIN (R421): The Gwerid link retrains after an error. -/
  | gweridRetrain
  /-- GWERID_DOWN (R421): The Gwerid link stays down beyond 10 µs and accesses resolve as failures. -/
  | gweridDown
  /-- REALLOCATION (R426): Every 8 µs the lane pool is divided among link ports. -/
  | reallocation (die : Nat)
  /-- LANE_LOCK_LOSS (R424): A lane loses lock, is retired and the width drops. -/
  | laneLockLoss (die : Nat) (lane : Nat)
  /-- WIDTH_CONFIRMATION (R427): The far end confirms woken lanes and the port widens. -/
  | widthConfirmation (die : Nat) (port : Nat)
  /-- BURST_RECEIVE (R429): A burst arrives and is accepted or refused on its CRC. -/
  | burstReceive (die : Nat) (port : Nat) (e : BurstIn)
  /-- FABRIC_REQUEST (R428): Fabric-mode ports send slot requests to the arbiter. -/
  | fabricRequest (die : Nat) (port : Nat) (slots : List Nat)
  /-- FABRIC_GRANT (R428): The arbiter returns slot grants for the next frame. -/
  | fabricGrant (die : Nat) (port : Nat) (grants : List FabGrant)
  /-- SEGMENT_FRAME (R434): A group frame carries one block of a counting-bus operation. -/
  | segmentFrame (die : Nat) (obs : BusObs)
  /-- CALIBRATION_FRAME (R433): A calibration frame measures levels, trims and the writer limit. -/
  | calibrationFrame (die : Nat) (cal : CalIn)
  /-- STRAGGLE_EXPIRY (R435): The straggle wait expires and the participant mask is fixed. -/
  | straggleExpiry (die : Nat) (grp : Nat)
  /-- BOOT (R464): The boot ROM verifies, tests, maps columns and starts firmware roles. -/
  | boot (failed : List Nat)
  /-- COLUMN_REMAP (R465): A failed column is remapped at a partition quiesce point; from 2048 on, a firmware core has failed. -/
  | columnRemap (pcol : Nat)
  /-- ROLE_RECOVERY (R467): A role moves to its mirror or restarts after a machine error at F. -/
  | roleRecovery (idx : Nat)
  /-- IMAGE_HANDOVER (R469): A new image is verified and roles pass to it one by one. -/
  | imageHandover (img : List Byte)
  /-- HANDOVER_ABORT (R469): Host abort or an error returns passed roles to the old image. -/
  | handoverAbort
  /-- FLASH_WRITE (R470): After the commit point the new image is written to flash. -/
  | flashWrite (interrupted : Bool)
  /-- RECOVERY_IMAGE (R470): In recovery the boot ROM runs a verified image from the host. -/
  | recoveryImage (img : List Byte)
  /-- ATTESTATION_REQUEST (R471): The attestation role answers a nonce with a signed report. -/
  | attestationRequest (nonce : Word)
  /-- PROFILE_CHANGE (R472): The clock profile changes at a partition quiesce point. -/
  | profileChange (p : BitVec 2)
  /-- TEMPERATURE_REPORT (R473): Every 1 ms each die reports its hottest sensor. -/
  | temperatureReport (die : Nat) (temp : Nat)
  /-- RESTART (R466): A firmware message restarts a halted thread set. -/
  | restart (core : Nat) (tid : Nat)
  /-- ILLEGAL_ENCODING (R63): A word fetched at the PC that is a reserved or permanently illegal encoding, or lies outside the fetch range, traps ILLEGAL or FETCH_FAULT. -/
  | illegalEncoding (w : W32)
  /-- BAD_TYPE_PACKET (R200): A packet of type 0x00 or 0x08–0xFF reaches the processing point and stops its queue with BAD_TYPE. -/
  | badTypePacket (pid : Nat) (q : Nat)
  /-- SCRUBBING (R474): Background scrubbing reads and corrects every word of local memory, home slices and HBM at least once every 8 s. -/
  | scrubbing (key : Nat)
  /-- MATRIX_SELF_TEST (R474): Each matrix slice is self-tested once every 10 s under the background reserve of class M. -/
  | matrixSelfTest (core : Nat)
  /-- GWERID_LINK_RETURN (R421): The Gwerid link comes back after staying down longer than 10 µs and held host interrupts are delivered in order. -/
  | gweridLinkReturn
  /-- HOST_CONFIGURATION_TABLE (R465): In recovery the host supplies a configuration table over the Gwerid link, which the boot ROM verifies and boots with. -/
  | hostConfigurationTable (table : List Byte)
  deriving DecidableEq, Repr

end Sys2Proof
end

