-- ==== Sys2Proof/Decode.lean ====
section
/-! DEFINITION. Decoding and encoding of instruction words (02 R36 to R65). `Raw` is a word cut into the fields of its
format (R37); `decodeRaw` checks every selector and must-be-zero field (R63 step 3) and answers the instruction. -/
namespace Sys2Proof

/-- A word cut into the fields of one of the nine formats (R37). -/
inductive Raw where
  | a (fn b a d op : Nat)
  | i (imm a d op : Nat)
  | u (imm d op : Nat)
  | m (off size base d op : Nat)
  | s (order ret fn pal data addr d op : Nat)
  | b (off b a cond op : Nat)
  | j (off d op : Nat)
  | v (fn ty pred vb va vd op : Nat)
  | k (fn k a d op : Nat)
  deriving DecidableEq, Repr

/-- The nine formats (R37). -/
inductive Fmt where
  | a | i | u | m | s | b | j | v | k
  deriving DecidableEq, Repr

/-- The format that a major opcode selects (R36, R41); none for a reserved or permanently illegal major. -/
def fmtOf (op : Nat) : Option Fmt :=
  match op with
  | 0x01 => some .a | 0x02 => some .i | 0x03 => some .i | 0x04 => some .i | 0x05 => some .i | 0x06 => some .i
  | 0x07 => some .i | 0x08 => some .i | 0x09 => some .a | 0x0A => some .u | 0x0B => some .k
  | 0x10 => some .a | 0x11 => some .a | 0x12 => some .a | 0x13 => some .u | 0x14 => some .u | 0x15 => some .k
  | 0x18 => some .b | 0x19 => some .j | 0x1A => some .i | 0x1B => some .i
  | 0x20 => some .m | 0x21 => some .m | 0x22 => some .s | 0x23 => some .m | 0x24 => some .i
  | 0x30 => some .s | 0x31 => some .s | 0x32 => some .s | 0x33 => some .s | 0x34 => some .s | 0x35 => some .s
  | 0x36 => some .v | 0x37 => some .s | 0x38 => some .m | 0x39 => some .i | 0x3A => some .a | 0x3B => some .a
  | 0x3C => some .i
  | 0x40 => some .v | 0x41 => some .v | 0x42 => some .v | 0x43 => some .v | 0x44 => some .k | 0x45 => some .v
  | 0x46 => some .v | 0x47 => some .v | 0x48 => some .v | 0x49 => some .v | 0x4A => some .v | 0x4B => some .v
  | 0x4C => some .v | 0x4D => some .v | 0x4E => some .v | 0x50 => some .v
  | 0x60 => some .i | 0x61 => some .i | 0x68 => some .a | 0x69 => some .a
  | 0x70 => some .i | 0x71 => some .a | 0x72 => some .i | 0x73 => some .i
  | _ => none

/-- The word's fields in the format of its major opcode (R36, R37). -/
def rawOfWord (w : Nat) : Option Raw :=
  let op := bitsOf w 0 7
  match fmtOf op with
  | none => none
  | some Fmt.a => some (Raw.a (bitsOf w 22 10) (bitsOf w 17 5) (bitsOf w 12 5) (bitsOf w 7 5) op)
  | some Fmt.i => some (Raw.i (bitsOf w 17 15) (bitsOf w 12 5) (bitsOf w 7 5) op)
  | some Fmt.u => some (Raw.u (bitsOf w 12 20) (bitsOf w 7 5) op)
  | some Fmt.m => some (Raw.m (bitsOf w 20 12) (bitsOf w 17 3) (bitsOf w 12 5) (bitsOf w 7 5) op)
  | some Fmt.s => some (Raw.s (bitsOf w 30 2) (bitsOf w 29 1) (bitsOf w 26 3) (bitsOf w 22 4) (bitsOf w 17 5)
      (bitsOf w 12 5) (bitsOf w 7 5) op)
  | some Fmt.b => some (Raw.b (bitsOf w 20 12) (bitsOf w 15 5) (bitsOf w 10 5) (bitsOf w 7 3) op)
  | some Fmt.j => some (Raw.j (bitsOf w 12 20) (bitsOf w 7 5) op)
  | some Fmt.v => some (Raw.v (bitsOf w 28 4) (bitsOf w 25 3) (bitsOf w 22 3) (bitsOf w 17 5) (bitsOf w 12 5)
      (bitsOf w 7 5) op)
  | some Fmt.k => some (Raw.k (bitsOf w 27 5) (bitsOf w 17 10) (bitsOf w 12 5) (bitsOf w 7 5) op)

/-- The word that the fields make (R37). -/
def rawWord : Raw → Nat
  | .a fn b a d op => op + 0x80 * d + 0x1000 * a + 0x20000 * b + 0x400000 * fn
  | .i imm a d op => op + 0x80 * d + 0x1000 * a + 0x20000 * imm
  | .u imm d op => op + 0x80 * d + 0x1000 * imm
  | .m off size base d op => op + 0x80 * d + 0x1000 * base + 0x20000 * size + 0x100000 * off
  | .s order ret fn pal data addr d op =>
    op + 0x80 * d + 0x1000 * addr + 0x20000 * data + 0x400000 * pal + 0x4000000 * fn + 0x20000000 * ret
      + 0x40000000 * order
  | .b off b a cond op => op + 0x80 * cond + 0x400 * a + 0x8000 * b + 0x100000 * off
  | .j off d op => op + 0x80 * d + 0x1000 * off
  | .v fn ty pred vb va vd op =>
    op + 0x80 * vd + 0x1000 * va + 0x20000 * vb + 0x400000 * pred + 0x2000000 * ty + 0x10000000 * fn
  | .k fn k a d op => op + 0x80 * d + 0x1000 * a + 0x20000 * k + 0x8000000 * fn

/-- An instruction word calls for a trailing literal word (R39). -/
def needsLit (w : Nat) : Bool :=
  let op := bitsOf w 0 7
  op == 0x43 || ((op == 0x01 || op == 0x09 || op == 0x10 || op == 0x11) && bitOf w 31)

/-- The rm field code (R46). -/
def Rnd.code : Rnd → Nat
  | .rne => 0 | .rtz => 1 | .rup => 2 | .rdn => 3 | .rna => 4 | .sr => 5 | .dyn => 7

/-- The rm field read; 6 is reserved (R46). -/
def Rnd.ofCode (n : Nat) : Option Rnd :=
  match n with
  | 0 => some .rne | 1 => some .rtz | 2 => some .rup | 3 => some .rdn | 4 => some .rna | 5 => some .sr
  | 7 => some .dyn | _ => none

/-- The precision bit (R47). -/
def Prec.code : Prec → Nat
  | .s => 0 | .d => 1

/-- The precision bit read (R47). -/
def Prec.ofCode (n : Nat) : Prec := if n = 0 then .s else .d

/-- The type field code (R55). -/
def VTy.code : VTy → Nat
  | .i8 => 0 | .i16 => 1 | .i32 => 2 | .i64 => 3 | .f16 => 4 | .bf16 => 5 | .f32 => 6 | .f64 => 7

/-- The type field read (R55). -/
def VTy.ofCode (n : Nat) : VTy :=
  match n with
  | 0 => .i8 | 1 => .i16 | 2 => .i32 | 3 => .i64 | 4 => .f16 | 5 => .bf16 | 6 => .f32 | _ => .f64

/-- The type is one of the integer types I (R55). -/
def VTy.isInt : VTy → Bool
  | .i8 | .i16 | .i32 | .i64 => true
  | .f16 | .bf16 | .f32 | .f64 => false

/-- The type has elements of 4 or 8 bytes (R53, R58). -/
def VTy.isWide : VTy → Bool
  | .i32 | .i64 | .f32 | .f64 => true
  | .i8 | .i16 | .f16 | .bf16 => false

/-- The type is a legal source of VDOT (R57). -/
def VTy.isDot : VTy → Bool
  | .i8 | .i16 | .f16 | .bf16 => true
  | .i32 | .i64 | .f32 | .f64 => false

/-- The type is a legal source of VDOT.u (R57). -/
def VTy.isDotU : VTy → Bool
  | .i8 | .i16 => true
  | .i32 | .i64 | .f16 | .bf16 | .f32 | .f64 => false

/-- The order field code (R37). -/
def Order.code : Order → Nat
  | .rlx => 0 | .acq => 1 | .rel => 2 | .acqrel => 3

/-- The order field read (R37). -/
def Order.ofCode (n : Nat) : Order :=
  match n with
  | 0 => .rlx | 1 => .acq | 2 => .rel | _ => .acqrel

/-- The size field of LD (R51). -/
def LdSize.code : LdSize → Nat
  | .b => 0 | .h => 1 | .w => 2 | .d => 3 | .bu => 4 | .hu => 5 | .wu => 6

/-- The size field of LD read; 7 is reserved (R51). -/
def LdSize.ofCode (n : Nat) : Option LdSize :=
  match n with
  | 0 => some .b | 1 => some .h | 2 => some .w | 3 => some .d | 4 => some .bu | 5 => some .hu | 6 => some .wu
  | _ => none

/-- The size field of ST (R51). -/
def StSize.code : StSize → Nat
  | .b => 0 | .h => 1 | .w => 2 | .d => 3

/-- The size field of ST read; 4–7 are reserved (R51). -/
def StSize.ofCode (n : Nat) : Option StSize :=
  match n with
  | 0 => some .b | 1 => some .h | 2 => some .w | 3 => some .d | _ => none

/-- The orders an instruction accepts: relaxed and acquire (LDV, PALGET, WAITA; R51, R53). -/
def Order.isAcqSide : Order → Bool
  | .rlx | .acq => true
  | .rel | .acqrel => false

/-- The orders an instruction accepts: relaxed and release (STV, RECL, WAKE; R51, R53). -/
def Order.isRelSide : Order → Bool
  | .rlx | .rel => true
  | .acq | .acqrel => false

/-- The orders of PALSET and PALINV: release and acq-rel (R53). -/
def Order.isPal : Order → Bool
  | .rel | .acqrel => true
  | .rlx | .acq => false

/-- The orders of FENCE (R53). -/
def Order.isFence : Order → Bool
  | .acq | .rel | .acqrel => true
  | .rlx => false

/-- The orders of BARL (R53). -/
def Order.isBarl : Order → Bool
  | .rlx | .acqrel => true
  | .acq | .rel => false

/-- A scalar or vector register field. -/
def r5 (n : Nat) : BitVec 5 := BitVec.ofNat 5 n
/-- A predicate register, slot or stage field. -/
def r3 (n : Nat) : BitVec 3 := BitVec.ofNat 3 n

/-- The bit L of operand b (R39). -/
def OpB.l : OpB → Nat
  | .reg _ => 0
  | .lit _ => 1

/-- The b field of operand b: zero for a literal (R39). -/
def OpB.field : OpB → Nat
  | .reg r => r.toNat
  | .lit _ => 0

/-- The trailing literal of operand b (R39). -/
def OpB.word : OpB → Option W32
  | .reg _ => none
  | .lit x => some x

/-- Operand b read from L, the b field and the literal (R39). -/
def OpB.ofFields (l b : Nat) (x : W32) : Option OpB :=
  if l = 0 then some (.reg (r5 b)) else if b = 0 then some (.lit x) else none

/-- `some x` where a must-be-zero or legality check holds (R40). -/
def okIf {α : Type} (c : Bool) (x : α) : Option α := if c then some x else none

/-- The binary operations of major 0x01 (R42). -/
def intOp2 (o : Nat) : Option (Reg → Reg → OpB → Instr) :=
  match o with
  | 0x00 => some .add
  | 0x01 => some .sub
  | 0x02 => some .mul
  | 0x03 => some .mulh
  | 0x04 => some .mulhu
  | 0x05 => some .div
  | 0x06 => some .divu
  | 0x07 => some .rem
  | 0x08 => some .remu
  | 0x09 => some .and
  | 0x0A => some .or
  | 0x0B => some .xor
  | 0x0C => some .shl
  | 0x0D => some .shr
  | 0x0E => some .sra
  | 0x0F => some .rotl
  | 0x10 => some .min
  | 0x11 => some .max
  | 0x12 => some .minu
  | 0x13 => some .maxu
  | 0x14 => some .slt
  | 0x15 => some .sltu
  | 0x1C => some .lea1
  | 0x1D => some .lea2
  | 0x1E => some .lea4
  | 0x1F => some .lea8
  | _ => none

/-- The unary operations of major 0x01 (R42). -/
def intOp1 (o : Nat) : Option (Reg → Reg → Instr) :=
  match o with
  | 0x16 => some .clz
  | 0x17 => some .ctz
  | 0x18 => some .popc
  | _ => none

/-- The rounding binary operations of major 0x10 (R47). -/
def fpRnd2 (o : Nat) : Option (Prec → Rnd → Reg → Reg → OpB → Instr) :=
  match o with
  | 0 => some .fadd | 1 => some .fsub | 2 => some .fmul | 3 => some .fdiv | _ => none

/-- The binary operations of major 0x10 that do not round (R47). -/
def fpOp2 (o : Nat) : Option (Prec → Reg → Reg → OpB → Instr) :=
  match o with
  | 5 => some .fmin | 6 => some .fmax | 10 => some .fcmpEq | 11 => some .fcmpLt | 12 => some .fcmpLe
  | 13 => some .fcmpUn | _ => none

/-- The unary operations of major 0x10 that do not round (R47). -/
def fpOp1 (o : Nat) : Option (Prec → Reg → Reg → Instr) :=
  match o with
  | 7 => some .fabs | 8 => some .fneg | 9 => some .fclass | _ => none

/-- The conversions of major 0x12 (R48). -/
def fcvtOp (o : Nat) : Option (Rnd → Reg → Reg → Instr) :=
  match o with
  | 0x00 => some .fcvtSD
  | 0x01 => some .fcvtDS
  | 0x02 => some .fcvtSH
  | 0x03 => some .fcvtHS
  | 0x04 => some .fcvtSBf
  | 0x05 => some .fcvtBfS
  | 0x06 => some .fcvtSW
  | 0x07 => some .fcvtSWu
  | 0x08 => some .fcvtSL
  | 0x09 => some .fcvtSLu
  | 0x0A => some .fcvtDW
  | 0x0B => some .fcvtDWu
  | 0x0C => some .fcvtDL
  | 0x0D => some .fcvtDLu
  | 0x0E => some .fcvtWS
  | 0x0F => some .fcvtWuS
  | 0x10 => some .fcvtLS
  | 0x11 => some .fcvtLuS
  | 0x12 => some .fcvtWD
  | 0x13 => some .fcvtWuD
  | 0x14 => some .fcvtLD
  | 0x15 => some .fcvtLuD
  | _ => none

/-- The integer constant-bank forms of major 0x0B (R45). -/
def kOp (o : Nat) : Option (Reg → Reg → BitVec 10 → Instr) :=
  match o with
  | 0 => some .addK | 1 => some .subK | 2 => some .mulK | 3 => some .andK | 4 => some .orK | 5 => some .xorK
  | 6 => some .minK | 7 => some .maxK | _ => none

/-- The FP constant-bank forms of major 0x15 (R49). -/
def fkOp (o : Nat) : Option (Prec → Reg → Reg → BitVec 10 → Instr) :=
  match o with
  | 0 => some .faddK | 1 => some .fsubK | 2 => some .fmulK | 3 => some .ffmaK | _ => none

/-- The branches of major 0x18 (R50). -/
def brOp (o : Nat) : Option (Reg → Reg → BitVec 12 → Instr) :=
  match o with
  | 0 => some .beq | 1 => some .bne | 2 => some .blt | 3 => some .bge | 4 => some .bltu | 5 => some .bgeu | _ => none

/-- The atomic memory operations: major opcode (group and placement) and fn3 (R52). -/
def amoOp (op fn : Nat) : Option (Order → Bool → Pal → Reg → Reg → Reg → Instr) :=
  match op with
  | 0x30 => match fn with
    | 0 => some .amoaddAuto | 1 => some .amominAuto | 2 => some .amomaxAuto | 3 => some .amominuAuto | 4 => some .amomaxuAuto | 5 => some .amofaddSAuto | 6 => some .amofaddDAuto | _ => none
  | 0x31 => match fn with
    | 0 => some .amoaddLoc | 1 => some .amominLoc | 2 => some .amomaxLoc | 3 => some .amominuLoc | 4 => some .amomaxuLoc | 5 => some .amofaddSLoc | 6 => some .amofaddDLoc | _ => none
  | 0x32 => match fn with
    | 0 => some .amoaddHome | 1 => some .amominHome | 2 => some .amomaxHome | 3 => some .amominuHome | 4 => some .amomaxuHome | 5 => some .amofaddSHome | 6 => some .amofaddDHome | _ => none
  | 0x33 => match fn with
    | 0 => some .amoandAuto | 1 => some .amoorAuto | 2 => some .amoxorAuto | 3 => some .amoswapAuto | 4 => some .amocasAuto | _ => none
  | 0x34 => match fn with
    | 0 => some .amoandLoc | 1 => some .amoorLoc | 2 => some .amoxorLoc | 3 => some .amoswapLoc | 4 => some .amocasLoc | _ => none
  | 0x35 => match fn with
    | 0 => some .amoandHome | 1 => some .amoorHome | 2 => some .amoxorHome | 3 => some .amoswapHome | 4 => some .amocasHome | _ => none
  | _ => none

/-- The operations of VAMO (R53). -/
def vamoOp (o : Nat) : Option (VTy → QReg → Reg → VReg → VReg → Instr) :=
  match o with
  | 0 => some .vamoAdd | 1 => some .vamoMin | 2 => some .vamoMax | 3 => some .vamoMinu | 4 => some .vamoMaxu | 5 => some .vamoAnd | 6 => some .vamoOr | 7 => some .vamoXor | _ => none

/-- The binary element-wise operations of majors 0x40, 0x41, 0x42, 0x46, 0x4B and VPERM of 0x48 (R56, R57). -/
def vBin (op fn : Nat) : Option (VTy → QReg → VReg → VReg → VReg → Instr) :=
  match op with
  | 0x40 => match fn with
    | 0 => some .vadd | 1 => some .vsub | 2 => some .vmul | 3 => some .vmulh | 4 => some .vdiv | 5 => some .vmin | 6 => some .vmax | 8 => some .vand | 9 => some .vor | 10 => some .vxor | 11 => some .vshl | 12 => some .vshr | 13 => some .vsra | _ => none
  | 0x41 => match fn with
    | 0 => some .vaddSs | 1 => some .vsubSs | 2 => some .vaddUs | 3 => some .vsubUs | 4 => some .vmulhU | 5 => some .vminU | 6 => some .vmaxU | 7 => some .vdivU | _ => none
  | 0x42 => match fn with
    | 0 => some .vfma | 1 => some .vfms | _ => none
  | 0x46 => match fn with
    | 0 => some .vsel | _ => none
  | 0x48 => match fn with
    | 0 => some .vperm | _ => none
  | 0x4B => match fn with
    | 0 => some .vdot | 1 => some .vdotU | _ => none
  | _ => none

/-- The types a binary element-wise operation accepts (R56, R57). -/
def vBinTypes (op fn : Nat) (t : VTy) : Bool :=
  match op with
  | 0x40 => match fn with | 3 => t.isInt | 11 => t.isInt | 12 => t.isInt | 13 => t.isInt | _ => true
  | 0x41 => t.isInt
  | 0x4B => if fn = 0 then t.isDot else t.isDotU
  | _ => true

/-- VCMP (R57). -/
def vcmpOp (o : Nat) : Option (VTy → QReg → QReg → VReg → VReg → Instr) :=
  match o with
  | 0 => some .vcmpEq | 1 => some .vcmpNe | 2 => some .vcmpLt | 3 => some .vcmpLe | 4 => some .vcmpLtu | 5 => some .vcmpLeu | 6 => some .vcmpUn | _ => none

/-- The types VCMP accepts: LTU and LEU integer types only, UN FP types only (R57). -/
def vcmpTypes (o : Nat) (t : VTy) : Bool :=
  match o with
  | 4 => t.isInt | 5 => t.isInt | 6 => !t.isInt | _ => true

/-- VRED (R57). -/
def vredOp (o : Nat) : Option (VTy → QReg → Reg → VReg → Instr) :=
  match o with
  | 0 => some .vredAdd | 1 => some .vredMin | 2 => some .vredMax | 3 => some .vredMinu | 4 => some .vredMaxu | 5 => some .vredAnd | 6 => some .vredOr | 7 => some .vredXor | _ => none

/-- VSCAN (R57). -/
def vscanOp (o : Nat) : Option (VTy → QReg → VReg → VReg → Instr) :=
  match o with
  | 0 => some .vscanAdd | 1 => some .vscanAddx | 2 => some .vscanMax | 3 => some .vscanMin | _ => none

/-- Vector memory with scalar operand b (R58). -/
noncomputable def vmemS (o : Nat) : Option (VTy → QReg → VReg → Reg → Reg → Instr) :=
  match o with
  | 0 => some .vld | 1 => some .vst | 2 => some .vlds | 3 => some .vsts | _ => none

/-- Vector memory with vector operand b (R58). -/
noncomputable def vmemX (o : Nat) : Option (VTy → QReg → VReg → Reg → VReg → Instr) :=
  match o with
  | 4 => some .vldx | 5 => some .vstx | _ => none

/-- The matrix operations with two tile addresses (R60). -/
noncomputable def matOp2 (o : Nat) : Option (Acc → Reg → Reg → Instr) :=
  match o with
  | 0 => some .mma | 1 => some .mmas | 2 => some .mgangMma | 3 => some .mgangMmas | 4 => some .mrec | _ => none

/-- A-format words (R42, R44, R46 to R48, R54, R60, R61). -/
noncomputable def decodeA (fn b a d op : Nat) (x : W32) : Option Instr :=
  match op with
  | 0x01 =>
    if fn / 64 % 8 = 0 then
      match intOp2 (fn % 64) with
      | some f => (OpB.ofFields (fn / 512) b x).map fun y => f (r5 d) (r5 a) y
      | none =>
        match intOp1 (fn % 64) with
        | some f => okIf (fn / 512 == 0 && b == 0) (f (r5 d) (r5 a))
        | none => none
    else none
  | 0x09 =>
    if fn / 32 % 16 = 0 then
      (OpB.ofFields (fn / 512) b x).map fun y => .sel (r5 d) (r5 (fn % 32)) (r5 a) y
    else none
  | 0x10 =>
    match Rnd.ofCode (fn / 32 % 8) with
    | none => none
    | some r =>
      match fpRnd2 (fn % 32) with
      | some f => (OpB.ofFields (fn / 512) b x).map fun y => f (Prec.ofCode (fn / 256 % 2)) r (r5 d) (r5 a) y
      | none =>
        if fn % 32 = 4 then okIf (fn / 512 == 0 && b == 0) (.fsqrt (Prec.ofCode (fn / 256 % 2)) r (r5 d) (r5 a))
        else if fn / 32 % 8 = 0 then
          match fpOp2 (fn % 32) with
          | some f => (OpB.ofFields (fn / 512) b x).map fun y => f (Prec.ofCode (fn / 256 % 2)) (r5 d) (r5 a) y
          | none =>
            match fpOp1 (fn % 32) with
            | some f => okIf (fn / 512 == 0 && b == 0) (f (Prec.ofCode (fn / 256 % 2)) (r5 d) (r5 a))
            | none => none
        else none
  | 0x11 =>
    match Rnd.ofCode (fn / 32 % 8) with
    | none => none
    | some r =>
      if fn % 32 = 0 then
        (OpB.ofFields (fn / 512) b x).map fun y => .ffma (Prec.ofCode (fn / 256 % 2)) r (r5 d) (r5 a) y
      else none
  | 0x12 =>
    match Rnd.ofCode (fn / 32 % 8) with
    | none => none
    | some r =>
      match fcvtOp (fn % 32) with
      | some f => okIf (fn / 256 == 0 && b == 0) (f r (r5 d) (r5 a))
      | none => none
  | 0x3A =>
    match fn with
    | 0 => okIf (d == 0) (.send (r5 a) (r5 b))
    | 1 => okIf (b == 0) (.ibxpop (r5 d) (r5 a))
    | 2 => okIf (b == 0) (.ibxpeek (r5 d) (r5 a))
    | 3 => okIf (a == 0 && b == 0) (.ibxwait (r5 d))
    | _ => none
  | 0x3B =>
    match fn with
    | 0 => okIf (d == 0 && b == 0) (.enq (r5 a))
    | 1 => okIf (d == 0 && b == 0) (.enqv (r5 a))
    | _ => none
  | 0x68 =>
    if fn / 16 = 0 then
      match matOp2 (fn % 16) with
      | some f => okIf (d / 4 == 0) (f (BitVec.ofNat 2 d) (r5 a) (r5 b))
      | none => none
    else none
  | 0x69 =>
    if fn / 16 = 0 then
      match fn % 16 with
      | 0 => okIf (d == 0 && b == 0) (.mfmt (r5 a))
      | 1 => okIf (d / 4 == 0 && a == 0 && b == 0) (.mzero (BitVec.ofNat 2 d))
      | 2 => okIf (d / 4 == 0 && b == 0) (.mldc (BitVec.ofNat 2 d) (r5 a))
      | 3 => okIf (d / 4 == 0 && b == 0) (.mstc (BitVec.ofNat 2 d) (r5 a))
      | 4 => okIf (d == 0 && b == 0) (.muprog (r5 a))
      | _ => none
    else none
  | 0x71 =>
    match fn with
    | 0 => okIf (d == 0 && a == 0 && b == 0) .eret
    | 1 => okIf (d == 0 && a == 0 && b == 0) .uxret
    | 2 => okIf (d == 0 && a == 0 && b == 0) .ifence
    | 3 => okIf (d == 0 && a == 0 && b == 0) .halt
    | 4 => okIf (a == 0 && b == 0) (.rand (r5 d))
    | _ => none
  | _ => none

/-- I-format words (R43, R50, R51, R54, R59, R61). -/
noncomputable def decodeI (imm a d op : Nat) : Option Instr :=
  match op with
  | 0x02 => some (.addi (r5 d) (r5 a) (BitVec.ofNat 15 imm))
  | 0x03 => some (.andi (r5 d) (r5 a) (BitVec.ofNat 15 imm))
  | 0x04 => some (.ori (r5 d) (r5 a) (BitVec.ofNat 15 imm))
  | 0x05 => some (.xori (r5 d) (r5 a) (BitVec.ofNat 15 imm))
  | 0x06 => some (.slti (r5 d) (r5 a) (BitVec.ofNat 15 imm))
  | 0x07 =>
    if imm / 64 % 64 = 0 then
      match imm / 4096 with
      | 0 => some (.shli (r5 d) (r5 a) (BitVec.ofNat 6 imm))
      | 1 => some (.shri (r5 d) (r5 a) (BitVec.ofNat 6 imm))
      | 2 => some (.srai (r5 d) (r5 a) (BitVec.ofNat 6 imm))
      | _ => none
    else none
  | 0x08 =>
    if imm % 64 + (imm / 64 % 64 + 1) ≤ 64 then
      match imm / 4096 with
      | 0 => some (.exts (r5 d) (r5 a) (BitVec.ofNat 6 (imm / 64)) (BitVec.ofNat 6 imm))
      | 1 => some (.extz (r5 d) (r5 a) (BitVec.ofNat 6 (imm / 64)) (BitVec.ofNat 6 imm))
      | 2 => some (.ins (r5 d) (r5 a) (BitVec.ofNat 6 (imm / 64)) (BitVec.ofNat 6 imm))
      | _ => none
    else none
  | 0x1A => some (.jalr (r5 d) (r5 a) (BitVec.ofNat 15 imm))
  | 0x1B => some (.fjmp (r5 d) (r5 a) (BitVec.ofNat 15 imm))
  | 0x24 => okIf (d == 0) (.cfetch (r5 a) (BitVec.ofNat 15 imm))
  | 0x39 =>
    match imm / 4096 with
    | 0 => okIf (imm / 8 % 512 == 0) (.cpost (r5 d) (r5 a) (BitVec.ofNat 3 imm))
    | 1 => okIf (imm % 4096 == 0 && a == 0 && d == 0) .taskend
    | 2 => okIf (imm % 4096 == 0 && a == 0 && d == 0) .yield
    | _ => none
  | 0x3C =>
    if imm / 128 % 32 = 0 then
      match imm / 4096 with
      | 0 => okIf (d == 0 && imm / 64 % 2 == 0) (.trgadd (BitVec.ofNat 6 imm) (r5 a))
      | 1 => some (.trgset (imm / 64 % 2 == 1) (BitVec.ofNat 6 imm) (r5 d) (r5 a))
      | 2 => okIf (d == 0 && imm / 64 % 2 == 0) (.trgwait (BitVec.ofNat 6 imm) (r5 a))
      | 3 => okIf (a == 0 && imm / 64 % 2 == 0) (.trgget (BitVec.ofNat 6 imm) (r5 d))
      | _ => none
    else none
  | 0x60 => okIf (imm / 32 == 0) (.sbind (imm / 16 % 2 == 1) (imm / 8 % 2 == 1) (r3 imm) (r5 d) (r5 a))
  | 0x61 =>
    if imm / 8 % 512 = 0 then
      match imm / 4096 with
      | 0 => okIf (d == 0 && a == 0) (.sfree (r3 imm))
      | 1 => okIf (a == 0) (.sstat (r3 imm) (r5 d))
      | 2 => okIf (d == 0) (.sskip (r3 imm) (r5 a))
      | 3 => okIf (d == 0 && a == 0) (.sdrain (r3 imm))
      | _ => none
    else none
  | 0x70 => okIf (d == 0 && a == 0) (.trap (BitVec.ofNat 15 imm))
  | 0x72 => okIf (a == 0 && imm / 4096 == 0) (.ctlrd (BitVec.ofNat 12 imm) (r5 d))
  | 0x73 => okIf (d == 0 && imm / 4096 == 0) (.ctlwr (BitVec.ofNat 12 imm) (r5 a))
  | _ => none

/-- U-format words (R44, R49). -/
def decodeU (imm d op : Nat) : Option Instr :=
  match op with
  | 0x0A => some (.ldhi (r5 d) (BitVec.ofNat 20 imm))
  | 0x13 => some (.fliS (r5 d) (BitVec.ofNat 20 imm))
  | 0x14 => some (.fliD (r5 d) (BitVec.ofNat 20 imm))
  | _ => none

/-- M-format words (R51, R54). -/
def decodeM (off size base d op : Nat) : Option Instr :=
  match op with
  | 0x20 => (LdSize.ofCode size).map fun z => .ld z (r5 d) (r5 base) (BitVec.ofNat 12 off)
  | 0x21 => (StSize.ofCode size).map fun z => .st z (r5 d) (r5 base) (BitVec.ofNat 12 off)
  | 0x23 =>
    if d = 0 then
      match size with
      | 0 => some (.prefL1 (r5 base) (BitVec.ofNat 12 off))
      | 1 => some (.prefL2 (r5 base) (BitVec.ofNat 12 off))
      | 2 => some (.clean (r5 base) (BitVec.ofNat 12 off))
      | 3 => some (.inval (r5 base) (BitVec.ofNat 12 off))
      | _ => none
    else none
  | 0x38 =>
    match size with
    | 0 => some (.evwait (r5 d) (r5 base) (BitVec.ofNat 12 off))
    | 1 => okIf (d == 0) (.evsig (r5 base) (BitVec.ofNat 12 off))
    | _ => none
  | _ => none

/-- AMOCAS reads its compare value from d in both forms (R52). -/
def isCas (op fn : Nat) : Bool := (op == 0x33 || op == 0x34 || op == 0x35) && fn == 4

/-- S-format words (R51 to R53). -/
def decodeS (order ret fn pal data addr d op : Nat) : Option Instr :=
  match op with
  | 0x22 =>
    match fn with
    | 0 => okIf (ret == 1 && (Order.ofCode order).isAcqSide)
        (.ldv (Order.ofCode order) (BitVec.ofNat 4 pal) (r5 d) (r5 addr) (r5 data))
    | 1 => okIf (ret == 1 && (Order.ofCode order).isRelSide)
        (.stv (Order.ofCode order) (BitVec.ofNat 4 pal) (r5 d) (r5 addr) (r5 data))
    | 2 => okIf (ret == 0 && d == 0 && (Order.ofCode order).isRelSide)
        (.recl (Order.ofCode order) (BitVec.ofNat 4 pal) (r5 addr) (r5 data))
    | _ => none
  | 0x37 =>
    match fn with
    | 0 => okIf (ret == 0 && d == 0 && addr == 0 && data == 0 && (Order.ofCode order).isFence)
        (.fence (Order.ofCode order) (BitVec.ofNat 4 pal))
    | 1 => okIf (ret == 1 && pal == 0 && (Order.ofCode order).isPal)
        (.palset (Order.ofCode order) (r5 d) (r5 addr) (r5 data))
    | 2 => okIf (ret == 1 && pal == 0 && (Order.ofCode order).isAcqSide)
        (.palget (Order.ofCode order) (r5 d) (r5 addr) (r5 data))
    | 3 => okIf (ret == 0 && pal == 0 && d == 0 && addr == 0 && (Order.ofCode order).isPal)
        (.palinv (Order.ofCode order) (r5 data))
    | 4 => okIf (ret == 1 && (Order.ofCode order).isAcqSide)
        (.waita (Order.ofCode order) (BitVec.ofNat 4 pal) (r5 d) (r5 addr) (r5 data))
    | 5 => okIf (ret == 1 && (Order.ofCode order).isRelSide)
        (.wake (Order.ofCode order) (BitVec.ofNat 4 pal) (r5 d) (r5 addr) (r5 data))
    | 6 => okIf (ret == 0 && d == 0 && data == 0 && (Order.ofCode order).isBarl)
        (.barl (Order.ofCode order) (BitVec.ofNat 4 pal) (r5 addr))
    | _ => none
  | _ =>
    match amoOp op fn with
    | some f => okIf (ret == 1 || d == 0 || isCas op fn)
        (f (Order.ofCode order) (ret == 1) (BitVec.ofNat 4 pal) (r5 d) (r5 addr) (r5 data))
    | none => none

/-- B-format words (R50). -/
def decodeB (off b a cond op : Nat) : Option Instr :=
  if op = 0x18 then
    match brOp cond with
    | some f => some (f (r5 a) (r5 b) (BitVec.ofNat 12 off))
    | none => none
  else none

/-- J-format words (R50). -/
def decodeJ (off d op : Nat) : Option Instr :=
  if op = 0x19 then some (.jal (r5 d) (BitVec.ofNat 20 off)) else none

/-- K-format words (R45, R49, R56). -/
def decodeK (fn k a d op : Nat) : Option Instr :=
  match op with
  | 0x0B =>
    match kOp fn with
    | some f => some (f (r5 d) (r5 a) (BitVec.ofNat 10 k))
    | none => none
  | 0x15 =>
    if fn % 2 = 0 then
      match fkOp (fn / 4) with
      | some f => some (f (Prec.ofCode (fn / 2 % 2)) (r5 d) (r5 a) (BitVec.ofNat 10 k))
      | none => none
    else none
  | 0x44 =>
    match fn / 8 with
    | 0 => some (.vmulK (VTy.ofCode (fn % 8)) (r5 d) (r5 a) (BitVec.ofNat 10 k))
    | 1 => some (.vfmaK (VTy.ofCode (fn % 8)) (r5 d) (r5 a) (BitVec.ofNat 10 k))
    | _ => none
  | _ => none

/-- V-format words (R53, R55 to R58). -/
noncomputable def decodeV (fn ty pred vb va vd op : Nat) (x : W32) : Option Instr :=
  let t := VTy.ofCode ty
  let q := r3 pred
  match op with
  | 0x36 =>
    match vamoOp fn with
    | some f => okIf (t.isWide && (fn ≤ 2 || t.isInt)) (f t q (r5 vd) (r5 va) (r5 vb))
    | none => none
  | 0x43 =>
    match fn with
    | 0 => okIf (vb == 0) (.vmulL t q (r5 vd) (r5 va) x)
    | 1 => okIf (vb == 0) (.vfmaL t q (r5 vd) (r5 va) x)
    | _ => none
  | 0x45 =>
    match vcmpOp fn with
    | some f => okIf (vd / 8 == 0 && vcmpTypes fn t) (f t q (r3 vd) (r5 va) (r5 vb))
    | none => none
  | 0x47 =>
    okIf (vb == 0 && fn % 8 != ty && (fn / 8 == 0 || t.isInt))
      (.vcvt (fn / 8 == 1) (VTy.ofCode (fn % 8)) t q (r5 vd) (r5 va))
  | 0x49 =>
    match vredOp fn with
    | some f => okIf (vb == 0 && (fn ≤ 2 || t.isInt)) (f t q (r5 vd) (r5 va))
    | none => none
  | 0x4A =>
    match vscanOp fn with
    | some f => okIf (vb == 0) (f t q (r5 vd) (r5 va))
    | none => none
  | 0x4C => okIf (fn / 4 == 0 && ty == 3) (.vclmul (BitVec.ofNat 2 fn) q (r5 vd) (r5 va) (r5 vb))
  | 0x4D => okIf (fn == 0 && vb == 0 && t.isInt) (.vpopc t q (r5 vd) (r5 va))
  | 0x4E =>
    if pred = 0 ∧ ty = 0 ∧ vd / 8 = 0 ∧ va / 8 = 0 ∧ vb / 8 = 0 then
      match fn with
      | 0 => some (.qand (r3 vd) (r3 va) (r3 vb))
      | 1 => some (.qor (r3 vd) (r3 va) (r3 vb))
      | 2 => some (.qxor (r3 vd) (r3 va) (r3 vb))
      | 3 => okIf (vb == 0) (.qnot (r3 vd) (r3 va))
      | _ => none
    else none
  | 0x50 =>
    match vmemS fn with
    | some f => some (f t q (r5 vd) (r5 va) (r5 vb))
    | none =>
      match vmemX fn with
      | some f => okIf t.isWide (f t q (r5 vd) (r5 va) (r5 vb))
      | none => none
  | _ =>
    match vBin op fn with
    | some f => okIf (vBinTypes op fn t) (f t q (r5 vd) (r5 va) (r5 vb))
    | none =>
      match op with
      | 0x40 => okIf (fn == 7 && vb == 0) (.vabs t q (r5 vd) (r5 va))
      | 0x48 =>
        match fn with
        | 1 => some (.vslideUp t q (r5 vd) (r5 va) (r5 vb))
        | 2 => some (.vslideDn t q (r5 vd) (r5 va) (r5 vb))
        | 3 => some (.vbcast t q (r5 vd) (r5 va) (r5 vb))
        | 4 => okIf (vb == 0) (.vsplat t q (r5 vd) (r5 va))
        | 5 => okIf (pred == 0) (.vext t (r5 vd) (r5 va) (r5 vb))
        | 6 => okIf (pred == 0) (.vins t (r5 vd) (r5 va) (r5 vb))
        | _ => none
      | _ => none

/-- R63 step 3: the instruction that the fields and, where the word calls for one, its literal make. -/
noncomputable def decodeRaw (r : Raw) (x : W32) : Option Instr :=
  match r with
  | .a fn b a d op => decodeA fn b a d op x
  | .i imm a d op => decodeI imm a d op
  | .u imm d op => decodeU imm d op
  | .m off size base d op => decodeM off size base d op
  | .s order ret fn pal data addr d op => decodeS order ret fn pal data addr d op
  | .b off b a cond op => decodeB off b a cond op
  | .j off d op => decodeJ off d op
  | .v fn ty pred vb va vd op => decodeV fn ty pred vb va vd op x
  | .k fn k a d op => decodeK fn k a d op

/-- The instruction that a word and its literal make; none where a step of R63 raises ILLEGAL. -/
noncomputable def decodeWord (w x : W32) : Option Instr :=
  match rawOfWord w.toNat with
  | none => none
  | some r => decodeRaw r x

/-- Why a list of bytes is no instruction (R63). -/
inductive DecodeError where
  | truncated      -- fewer bytes than the word, or than its literal
  | reservedMajor  -- step 2: 0x00, 0x7F or a reserved major
  | badField       -- step 3: a reserved selector, a must-be-zero field, or a combination rule
  deriving DecidableEq, Repr

/-- The little-endian 32-bit word at the head of a list of bytes (R36). -/
def takeWord : List Byte → Option (W32 × List Byte)
  | b0 :: b1 :: b2 :: b3 :: rest => some (BitVec.ofNat 32 (leValue [b0, b1, b2, b3]), rest)
  | _ => none

/-- Decoding is total on any bytes: the instruction at their head with the bytes that follow it, or the reason why there
is none. -/
noncomputable def decode (bs : List Byte) : Except DecodeError (Instr × List Byte) :=
  match takeWord bs with
  | none => .error .truncated
  | some (w, rest) =>
    match rawOfWord w.toNat with
    | none => .error .reservedMajor
    | some r =>
      if needsLit w.toNat then
        match takeWord rest with
        | some (x, rest') =>
          match decodeRaw r x with
          | some i => .ok (i, rest')
          | none => .error .badField
        | none => if (decodeRaw r 0).isSome then .error .truncated else .error .badField
      else
        match decodeRaw r 0 with
        | some i => .ok (i, rest)
        | none => .error .badField

/-- The instruction the decoder reads where the bits of its words, as the opcode table numbers them, are `w` and every
further bit is zero. -/
noncomputable def decodeTableWord (_nbits w : Nat) : Option Instr :=
  match decode (leBytes 8 w) with
  | .ok (i, _) => some i
  | .error _ => none

/-- The fields that an instruction's word holds, and its literal word where it has one (R37, R39, R42 to R61). The rows
STATUS_WRITE, LMHWM_WRITE, MSTAT_WRITE and MELOC_READ are the CTLWR and CTLRD words of their registers (R17, R334, R466).
The device's other steps have no word. -/
def encodeRaw (i : Instr) : Option (Raw × Option W32) :=
  match i with
  | .add d a b => some (.a (b.l * 512 + 0x00) b.field a.toNat d.toNat 0x01, b.word)
  | .sub d a b => some (.a (b.l * 512 + 0x01) b.field a.toNat d.toNat 0x01, b.word)
  | .mul d a b => some (.a (b.l * 512 + 0x02) b.field a.toNat d.toNat 0x01, b.word)
  | .mulh d a b => some (.a (b.l * 512 + 0x03) b.field a.toNat d.toNat 0x01, b.word)
  | .mulhu d a b => some (.a (b.l * 512 + 0x04) b.field a.toNat d.toNat 0x01, b.word)
  | .div d a b => some (.a (b.l * 512 + 0x05) b.field a.toNat d.toNat 0x01, b.word)
  | .divu d a b => some (.a (b.l * 512 + 0x06) b.field a.toNat d.toNat 0x01, b.word)
  | .rem d a b => some (.a (b.l * 512 + 0x07) b.field a.toNat d.toNat 0x01, b.word)
  | .remu d a b => some (.a (b.l * 512 + 0x08) b.field a.toNat d.toNat 0x01, b.word)
  | .and d a b => some (.a (b.l * 512 + 0x09) b.field a.toNat d.toNat 0x01, b.word)
  | .or d a b => some (.a (b.l * 512 + 0x0A) b.field a.toNat d.toNat 0x01, b.word)
  | .xor d a b => some (.a (b.l * 512 + 0x0B) b.field a.toNat d.toNat 0x01, b.word)
  | .shl d a b => some (.a (b.l * 512 + 0x0C) b.field a.toNat d.toNat 0x01, b.word)
  | .shr d a b => some (.a (b.l * 512 + 0x0D) b.field a.toNat d.toNat 0x01, b.word)
  | .sra d a b => some (.a (b.l * 512 + 0x0E) b.field a.toNat d.toNat 0x01, b.word)
  | .rotl d a b => some (.a (b.l * 512 + 0x0F) b.field a.toNat d.toNat 0x01, b.word)
  | .min d a b => some (.a (b.l * 512 + 0x10) b.field a.toNat d.toNat 0x01, b.word)
  | .max d a b => some (.a (b.l * 512 + 0x11) b.field a.toNat d.toNat 0x01, b.word)
  | .minu d a b => some (.a (b.l * 512 + 0x12) b.field a.toNat d.toNat 0x01, b.word)
  | .maxu d a b => some (.a (b.l * 512 + 0x13) b.field a.toNat d.toNat 0x01, b.word)
  | .slt d a b => some (.a (b.l * 512 + 0x14) b.field a.toNat d.toNat 0x01, b.word)
  | .sltu d a b => some (.a (b.l * 512 + 0x15) b.field a.toNat d.toNat 0x01, b.word)
  | .clz d a => some (.a (0x16) 0 a.toNat d.toNat 0x01, none)
  | .ctz d a => some (.a (0x17) 0 a.toNat d.toNat 0x01, none)
  | .popc d a => some (.a (0x18) 0 a.toNat d.toNat 0x01, none)
  | .lea1 d a b => some (.a (b.l * 512 + 0x1C) b.field a.toNat d.toNat 0x01, b.word)
  | .lea2 d a b => some (.a (b.l * 512 + 0x1D) b.field a.toNat d.toNat 0x01, b.word)
  | .lea4 d a b => some (.a (b.l * 512 + 0x1E) b.field a.toNat d.toNat 0x01, b.word)
  | .lea8 d a b => some (.a (b.l * 512 + 0x1F) b.field a.toNat d.toNat 0x01, b.word)
  | .addi d a imm => some (.i imm.toNat a.toNat d.toNat 0x02, none)
  | .andi d a imm => some (.i imm.toNat a.toNat d.toNat 0x03, none)
  | .ori d a imm => some (.i imm.toNat a.toNat d.toNat 0x04, none)
  | .xori d a imm => some (.i imm.toNat a.toNat d.toNat 0x05, none)
  | .slti d a imm => some (.i imm.toNat a.toNat d.toNat 0x06, none)
  | .shli d a n => some (.i (0 + n.toNat) a.toNat d.toNat 0x07, none)
  | .shri d a n => some (.i (4096 + n.toNat) a.toNat d.toNat 0x07, none)
  | .srai d a n => some (.i (8192 + n.toNat) a.toNat d.toNat 0x07, none)
  | .exts d a w p => some (.i (0 + w.toNat * 64 + p.toNat) a.toNat d.toNat 0x08, none)
  | .extz d a w p => some (.i (4096 + w.toNat * 64 + p.toNat) a.toNat d.toNat 0x08, none)
  | .ins d a w p => some (.i (8192 + w.toNat * 64 + p.toNat) a.toNat d.toNat 0x08, none)
  | .sel d c a b => some (.a (b.l * 512 + c.toNat) b.field a.toNat d.toNat 0x09, b.word)
  | .ldhi d imm => some (.u imm.toNat d.toNat 0x0A, none)
  | .addK d a k => some (.k 0 k.toNat a.toNat d.toNat 0x0B, none)
  | .subK d a k => some (.k 1 k.toNat a.toNat d.toNat 0x0B, none)
  | .mulK d a k => some (.k 2 k.toNat a.toNat d.toNat 0x0B, none)
  | .andK d a k => some (.k 3 k.toNat a.toNat d.toNat 0x0B, none)
  | .orK d a k => some (.k 4 k.toNat a.toNat d.toNat 0x0B, none)
  | .xorK d a k => some (.k 5 k.toNat a.toNat d.toNat 0x0B, none)
  | .minK d a k => some (.k 6 k.toNat a.toNat d.toNat 0x0B, none)
  | .maxK d a k => some (.k 7 k.toNat a.toNat d.toNat 0x0B, none)
  | .fadd z r d a b => some (.a (b.l * 512 + z.code * 256 + r.code * 32 + 0) b.field a.toNat d.toNat 0x10, b.word)
  | .fsub z r d a b => some (.a (b.l * 512 + z.code * 256 + r.code * 32 + 1) b.field a.toNat d.toNat 0x10, b.word)
  | .fmul z r d a b => some (.a (b.l * 512 + z.code * 256 + r.code * 32 + 2) b.field a.toNat d.toNat 0x10, b.word)
  | .fdiv z r d a b => some (.a (b.l * 512 + z.code * 256 + r.code * 32 + 3) b.field a.toNat d.toNat 0x10, b.word)
  | .fsqrt z r d a => some (.a (z.code * 256 + r.code * 32 + 4) 0 a.toNat d.toNat 0x10, none)
  | .fmin z d a b => some (.a (b.l * 512 + z.code * 256 + 5) b.field a.toNat d.toNat 0x10, b.word)
  | .fmax z d a b => some (.a (b.l * 512 + z.code * 256 + 6) b.field a.toNat d.toNat 0x10, b.word)
  | .fabs z d a => some (.a (z.code * 256 + 7) 0 a.toNat d.toNat 0x10, none)
  | .fneg z d a => some (.a (z.code * 256 + 8) 0 a.toNat d.toNat 0x10, none)
  | .fclass z d a => some (.a (z.code * 256 + 9) 0 a.toNat d.toNat 0x10, none)
  | .fcmpEq z d a b => some (.a (b.l * 512 + z.code * 256 + 10) b.field a.toNat d.toNat 0x10, b.word)
  | .fcmpLt z d a b => some (.a (b.l * 512 + z.code * 256 + 11) b.field a.toNat d.toNat 0x10, b.word)
  | .fcmpLe z d a b => some (.a (b.l * 512 + z.code * 256 + 12) b.field a.toNat d.toNat 0x10, b.word)
  | .fcmpUn z d a b => some (.a (b.l * 512 + z.code * 256 + 13) b.field a.toNat d.toNat 0x10, b.word)
  | .ffma z r d a b => some (.a (b.l * 512 + z.code * 256 + r.code * 32) b.field a.toNat d.toNat 0x11, b.word)
  | .fcvtSD r d a => some (.a (r.code * 32 + 0x00) 0 a.toNat d.toNat 0x12, none)
  | .fcvtDS r d a => some (.a (r.code * 32 + 0x01) 0 a.toNat d.toNat 0x12, none)
  | .fcvtSH r d a => some (.a (r.code * 32 + 0x02) 0 a.toNat d.toNat 0x12, none)
  | .fcvtHS r d a => some (.a (r.code * 32 + 0x03) 0 a.toNat d.toNat 0x12, none)
  | .fcvtSBf r d a => some (.a (r.code * 32 + 0x04) 0 a.toNat d.toNat 0x12, none)
  | .fcvtBfS r d a => some (.a (r.code * 32 + 0x05) 0 a.toNat d.toNat 0x12, none)
  | .fcvtSW r d a => some (.a (r.code * 32 + 0x06) 0 a.toNat d.toNat 0x12, none)
  | .fcvtSWu r d a => some (.a (r.code * 32 + 0x07) 0 a.toNat d.toNat 0x12, none)
  | .fcvtSL r d a => some (.a (r.code * 32 + 0x08) 0 a.toNat d.toNat 0x12, none)
  | .fcvtSLu r d a => some (.a (r.code * 32 + 0x09) 0 a.toNat d.toNat 0x12, none)
  | .fcvtDW r d a => some (.a (r.code * 32 + 0x0A) 0 a.toNat d.toNat 0x12, none)
  | .fcvtDWu r d a => some (.a (r.code * 32 + 0x0B) 0 a.toNat d.toNat 0x12, none)
  | .fcvtDL r d a => some (.a (r.code * 32 + 0x0C) 0 a.toNat d.toNat 0x12, none)
  | .fcvtDLu r d a => some (.a (r.code * 32 + 0x0D) 0 a.toNat d.toNat 0x12, none)
  | .fcvtWS r d a => some (.a (r.code * 32 + 0x0E) 0 a.toNat d.toNat 0x12, none)
  | .fcvtWuS r d a => some (.a (r.code * 32 + 0x0F) 0 a.toNat d.toNat 0x12, none)
  | .fcvtLS r d a => some (.a (r.code * 32 + 0x10) 0 a.toNat d.toNat 0x12, none)
  | .fcvtLuS r d a => some (.a (r.code * 32 + 0x11) 0 a.toNat d.toNat 0x12, none)
  | .fcvtWD r d a => some (.a (r.code * 32 + 0x12) 0 a.toNat d.toNat 0x12, none)
  | .fcvtWuD r d a => some (.a (r.code * 32 + 0x13) 0 a.toNat d.toNat 0x12, none)
  | .fcvtLD r d a => some (.a (r.code * 32 + 0x14) 0 a.toNat d.toNat 0x12, none)
  | .fcvtLuD r d a => some (.a (r.code * 32 + 0x15) 0 a.toNat d.toNat 0x12, none)
  | .fliS d imm => some (.u imm.toNat d.toNat 0x13, none)
  | .fliD d imm => some (.u imm.toNat d.toNat 0x14, none)
  | .faddK z d a k => some (.k (0 + z.code * 2) k.toNat a.toNat d.toNat 0x15, none)
  | .fsubK z d a k => some (.k (4 + z.code * 2) k.toNat a.toNat d.toNat 0x15, none)
  | .fmulK z d a k => some (.k (8 + z.code * 2) k.toNat a.toNat d.toNat 0x15, none)
  | .ffmaK z d a k => some (.k (12 + z.code * 2) k.toNat a.toNat d.toNat 0x15, none)
  | .beq a b off => some (.b off.toNat b.toNat a.toNat 0 0x18, none)
  | .bne a b off => some (.b off.toNat b.toNat a.toNat 1 0x18, none)
  | .blt a b off => some (.b off.toNat b.toNat a.toNat 2 0x18, none)
  | .bge a b off => some (.b off.toNat b.toNat a.toNat 3 0x18, none)
  | .bltu a b off => some (.b off.toNat b.toNat a.toNat 4 0x18, none)
  | .bgeu a b off => some (.b off.toNat b.toNat a.toNat 5 0x18, none)
  | .jal d off => some (.j off.toNat d.toNat 0x19, none)
  | .jalr d a imm => some (.i imm.toNat a.toNat d.toNat 0x1A, none)
  | .fjmp d a imm => some (.i imm.toNat a.toNat d.toNat 0x1B, none)
  | .ld z d base off => some (.m off.toNat z.code base.toNat d.toNat 0x20, none)
  | .st z d base off => some (.m off.toNat z.code base.toNat d.toNat 0x21, none)
  | .ldv o p d a c => some (.s o.code 1 0 p.toNat c.toNat a.toNat d.toNat 0x22, none)
  | .stv o p d a c => some (.s o.code 1 1 p.toNat c.toNat a.toNat d.toNat 0x22, none)
  | .recl o p a c => some (.s o.code 0 2 p.toNat c.toNat a.toNat 0 0x22, none)
  | .prefL1 base off => some (.m off.toNat 0 base.toNat 0 0x23, none)
  | .prefL2 base off => some (.m off.toNat 1 base.toNat 0 0x23, none)
  | .clean base off => some (.m off.toNat 2 base.toNat 0 0x23, none)
  | .inval base off => some (.m off.toNat 3 base.toNat 0 0x23, none)
  | .cfetch a imm => some (.i imm.toNat a.toNat 0 0x24, none)
  | .amoaddAuto o ret p d a c => some (.s o.code ret.toNat 0 p.toNat c.toNat a.toNat d.toNat 0x30, none)
  | .amominAuto o ret p d a c => some (.s o.code ret.toNat 1 p.toNat c.toNat a.toNat d.toNat 0x30, none)
  | .amomaxAuto o ret p d a c => some (.s o.code ret.toNat 2 p.toNat c.toNat a.toNat d.toNat 0x30, none)
  | .amominuAuto o ret p d a c => some (.s o.code ret.toNat 3 p.toNat c.toNat a.toNat d.toNat 0x30, none)
  | .amomaxuAuto o ret p d a c => some (.s o.code ret.toNat 4 p.toNat c.toNat a.toNat d.toNat 0x30, none)
  | .amofaddSAuto o ret p d a c => some (.s o.code ret.toNat 5 p.toNat c.toNat a.toNat d.toNat 0x30, none)
  | .amofaddDAuto o ret p d a c => some (.s o.code ret.toNat 6 p.toNat c.toNat a.toNat d.toNat 0x30, none)
  | .amoaddLoc o ret p d a c => some (.s o.code ret.toNat 0 p.toNat c.toNat a.toNat d.toNat 0x31, none)
  | .amominLoc o ret p d a c => some (.s o.code ret.toNat 1 p.toNat c.toNat a.toNat d.toNat 0x31, none)
  | .amomaxLoc o ret p d a c => some (.s o.code ret.toNat 2 p.toNat c.toNat a.toNat d.toNat 0x31, none)
  | .amominuLoc o ret p d a c => some (.s o.code ret.toNat 3 p.toNat c.toNat a.toNat d.toNat 0x31, none)
  | .amomaxuLoc o ret p d a c => some (.s o.code ret.toNat 4 p.toNat c.toNat a.toNat d.toNat 0x31, none)
  | .amofaddSLoc o ret p d a c => some (.s o.code ret.toNat 5 p.toNat c.toNat a.toNat d.toNat 0x31, none)
  | .amofaddDLoc o ret p d a c => some (.s o.code ret.toNat 6 p.toNat c.toNat a.toNat d.toNat 0x31, none)
  | .amoaddHome o ret p d a c => some (.s o.code ret.toNat 0 p.toNat c.toNat a.toNat d.toNat 0x32, none)
  | .amominHome o ret p d a c => some (.s o.code ret.toNat 1 p.toNat c.toNat a.toNat d.toNat 0x32, none)
  | .amomaxHome o ret p d a c => some (.s o.code ret.toNat 2 p.toNat c.toNat a.toNat d.toNat 0x32, none)
  | .amominuHome o ret p d a c => some (.s o.code ret.toNat 3 p.toNat c.toNat a.toNat d.toNat 0x32, none)
  | .amomaxuHome o ret p d a c => some (.s o.code ret.toNat 4 p.toNat c.toNat a.toNat d.toNat 0x32, none)
  | .amofaddSHome o ret p d a c => some (.s o.code ret.toNat 5 p.toNat c.toNat a.toNat d.toNat 0x32, none)
  | .amofaddDHome o ret p d a c => some (.s o.code ret.toNat 6 p.toNat c.toNat a.toNat d.toNat 0x32, none)
  | .amoandAuto o ret p d a c => some (.s o.code ret.toNat 0 p.toNat c.toNat a.toNat d.toNat 0x33, none)
  | .amoorAuto o ret p d a c => some (.s o.code ret.toNat 1 p.toNat c.toNat a.toNat d.toNat 0x33, none)
  | .amoxorAuto o ret p d a c => some (.s o.code ret.toNat 2 p.toNat c.toNat a.toNat d.toNat 0x33, none)
  | .amoswapAuto o ret p d a c => some (.s o.code ret.toNat 3 p.toNat c.toNat a.toNat d.toNat 0x33, none)
  | .amocasAuto o ret p d a c => some (.s o.code ret.toNat 4 p.toNat c.toNat a.toNat d.toNat 0x33, none)
  | .amoandLoc o ret p d a c => some (.s o.code ret.toNat 0 p.toNat c.toNat a.toNat d.toNat 0x34, none)
  | .amoorLoc o ret p d a c => some (.s o.code ret.toNat 1 p.toNat c.toNat a.toNat d.toNat 0x34, none)
  | .amoxorLoc o ret p d a c => some (.s o.code ret.toNat 2 p.toNat c.toNat a.toNat d.toNat 0x34, none)
  | .amoswapLoc o ret p d a c => some (.s o.code ret.toNat 3 p.toNat c.toNat a.toNat d.toNat 0x34, none)
  | .amocasLoc o ret p d a c => some (.s o.code ret.toNat 4 p.toNat c.toNat a.toNat d.toNat 0x34, none)
  | .amoandHome o ret p d a c => some (.s o.code ret.toNat 0 p.toNat c.toNat a.toNat d.toNat 0x35, none)
  | .amoorHome o ret p d a c => some (.s o.code ret.toNat 1 p.toNat c.toNat a.toNat d.toNat 0x35, none)
  | .amoxorHome o ret p d a c => some (.s o.code ret.toNat 2 p.toNat c.toNat a.toNat d.toNat 0x35, none)
  | .amoswapHome o ret p d a c => some (.s o.code ret.toNat 3 p.toNat c.toNat a.toNat d.toNat 0x35, none)
  | .amocasHome o ret p d a c => some (.s o.code ret.toNat 4 p.toNat c.toNat a.toNat d.toNat 0x35, none)
  | .vamoAdd t q s a b => some (.v 0 t.code q.toNat b.toNat a.toNat s.toNat 0x36, none)
  | .vamoMin t q s a b => some (.v 1 t.code q.toNat b.toNat a.toNat s.toNat 0x36, none)
  | .vamoMax t q s a b => some (.v 2 t.code q.toNat b.toNat a.toNat s.toNat 0x36, none)
  | .vamoMinu t q s a b => some (.v 3 t.code q.toNat b.toNat a.toNat s.toNat 0x36, none)
  | .vamoMaxu t q s a b => some (.v 4 t.code q.toNat b.toNat a.toNat s.toNat 0x36, none)
  | .vamoAnd t q s a b => some (.v 5 t.code q.toNat b.toNat a.toNat s.toNat 0x36, none)
  | .vamoOr t q s a b => some (.v 6 t.code q.toNat b.toNat a.toNat s.toNat 0x36, none)
  | .vamoXor t q s a b => some (.v 7 t.code q.toNat b.toNat a.toNat s.toNat 0x36, none)
  | .fence o p => some (.s o.code 0 0 p.toNat 0 0 0 0x37, none)
  | .palset o d a e => some (.s o.code 1 1 0 e.toNat a.toNat d.toNat 0x37, none)
  | .palget o d a e => some (.s o.code 1 2 0 e.toNat a.toNat d.toNat 0x37, none)
  | .palinv o e => some (.s o.code 0 3 0 e.toNat 0 0 0x37, none)
  | .waita o p d a c => some (.s o.code 1 4 p.toNat c.toNat a.toNat d.toNat 0x37, none)
  | .wake o p d a c => some (.s o.code 1 5 p.toNat c.toNat a.toNat d.toNat 0x37, none)
  | .barl o p a => some (.s o.code 0 6 p.toNat 0 a.toNat 0 0x37, none)
  | .evwait d base off => some (.m off.toNat 0 base.toNat d.toNat 0x38, none)
  | .evsig base off => some (.m off.toNat 1 base.toNat 0 0x38, none)
  | .cpost d a stage => some (.i stage.toNat a.toNat d.toNat 0x39, none)
  | .taskend => some (.i 4096 0 0 0x39, none)
  | .yield => some (.i 8192 0 0 0x39, none)
  | .send a b => some (.a (0) b.toNat a.toNat 0 0x3A, none)
  | .ibxpop d a => some (.a (1) 0 a.toNat d.toNat 0x3A, none)
  | .ibxpeek d a => some (.a (2) 0 a.toNat d.toNat 0x3A, none)
  | .ibxwait d => some (.a (3) 0 0 d.toNat 0x3A, none)
  | .enq a => some (.a (0) 0 a.toNat 0 0x3B, none)
  | .enqv a => some (.a (1) 0 a.toNat 0 0x3B, none)
  | .trgadd n a => some (.i n.toNat a.toNat 0 0x3C, none)
  | .trgset f n d a => some (.i (4096 + f.toNat * 64 + n.toNat) a.toNat d.toNat 0x3C, none)
  | .trgwait n a => some (.i (8192 + n.toNat) a.toNat 0 0x3C, none)
  | .trgget n d => some (.i (12288 + n.toNat) 0 d.toNat 0x3C, none)
  | .vadd t q d a b => some (.v 0 t.code q.toNat b.toNat a.toNat d.toNat 0x40, none)
  | .vsub t q d a b => some (.v 1 t.code q.toNat b.toNat a.toNat d.toNat 0x40, none)
  | .vmul t q d a b => some (.v 2 t.code q.toNat b.toNat a.toNat d.toNat 0x40, none)
  | .vmulh t q d a b => some (.v 3 t.code q.toNat b.toNat a.toNat d.toNat 0x40, none)
  | .vdiv t q d a b => some (.v 4 t.code q.toNat b.toNat a.toNat d.toNat 0x40, none)
  | .vmin t q d a b => some (.v 5 t.code q.toNat b.toNat a.toNat d.toNat 0x40, none)
  | .vmax t q d a b => some (.v 6 t.code q.toNat b.toNat a.toNat d.toNat 0x40, none)
  | .vabs t q d a => some (.v 7 t.code q.toNat 0 a.toNat d.toNat 0x40, none)
  | .vand t q d a b => some (.v 8 t.code q.toNat b.toNat a.toNat d.toNat 0x40, none)
  | .vor t q d a b => some (.v 9 t.code q.toNat b.toNat a.toNat d.toNat 0x40, none)
  | .vxor t q d a b => some (.v 10 t.code q.toNat b.toNat a.toNat d.toNat 0x40, none)
  | .vshl t q d a b => some (.v 11 t.code q.toNat b.toNat a.toNat d.toNat 0x40, none)
  | .vshr t q d a b => some (.v 12 t.code q.toNat b.toNat a.toNat d.toNat 0x40, none)
  | .vsra t q d a b => some (.v 13 t.code q.toNat b.toNat a.toNat d.toNat 0x40, none)
  | .vaddSs t q d a b => some (.v 0 t.code q.toNat b.toNat a.toNat d.toNat 0x41, none)
  | .vsubSs t q d a b => some (.v 1 t.code q.toNat b.toNat a.toNat d.toNat 0x41, none)
  | .vaddUs t q d a b => some (.v 2 t.code q.toNat b.toNat a.toNat d.toNat 0x41, none)
  | .vsubUs t q d a b => some (.v 3 t.code q.toNat b.toNat a.toNat d.toNat 0x41, none)
  | .vmulhU t q d a b => some (.v 4 t.code q.toNat b.toNat a.toNat d.toNat 0x41, none)
  | .vminU t q d a b => some (.v 5 t.code q.toNat b.toNat a.toNat d.toNat 0x41, none)
  | .vmaxU t q d a b => some (.v 6 t.code q.toNat b.toNat a.toNat d.toNat 0x41, none)
  | .vdivU t q d a b => some (.v 7 t.code q.toNat b.toNat a.toNat d.toNat 0x41, none)
  | .vfma t q d a b => some (.v 0 t.code q.toNat b.toNat a.toNat d.toNat 0x42, none)
  | .vfms t q d a b => some (.v 1 t.code q.toNat b.toNat a.toNat d.toNat 0x42, none)
  | .vmulL t q d a l => some (.v 0 t.code q.toNat 0 a.toNat d.toNat 0x43, some l)
  | .vfmaL t q d a l => some (.v 1 t.code q.toNat 0 a.toNat d.toNat 0x43, some l)
  | .vmulK t d a k => some (.k (0 + t.code) k.toNat a.toNat d.toNat 0x44, none)
  | .vfmaK t d a k => some (.k (8 + t.code) k.toNat a.toNat d.toNat 0x44, none)
  | .vcmpEq t q d a b => some (.v 0 t.code q.toNat b.toNat a.toNat d.toNat 0x45, none)
  | .vcmpNe t q d a b => some (.v 1 t.code q.toNat b.toNat a.toNat d.toNat 0x45, none)
  | .vcmpLt t q d a b => some (.v 2 t.code q.toNat b.toNat a.toNat d.toNat 0x45, none)
  | .vcmpLe t q d a b => some (.v 3 t.code q.toNat b.toNat a.toNat d.toNat 0x45, none)
  | .vcmpLtu t q d a b => some (.v 4 t.code q.toNat b.toNat a.toNat d.toNat 0x45, none)
  | .vcmpLeu t q d a b => some (.v 5 t.code q.toNat b.toNat a.toNat d.toNat 0x45, none)
  | .vcmpUn t q d a b => some (.v 6 t.code q.toNat b.toNat a.toNat d.toNat 0x45, none)
  | .vsel t q d a b => some (.v 0 t.code q.toNat b.toNat a.toNat d.toNat 0x46, none)
  | .vcvt sat src t q d a => some (.v (sat.toNat * 8 + src.code) t.code q.toNat 0 a.toNat d.toNat 0x47, none)
  | .vperm t q d a b => some (.v 0 t.code q.toNat b.toNat a.toNat d.toNat 0x48, none)
  | .vslideUp t q d a b => some (.v 1 t.code q.toNat b.toNat a.toNat d.toNat 0x48, none)
  | .vslideDn t q d a b => some (.v 2 t.code q.toNat b.toNat a.toNat d.toNat 0x48, none)
  | .vbcast t q d a b => some (.v 3 t.code q.toNat b.toNat a.toNat d.toNat 0x48, none)
  | .vsplat t q d a => some (.v 4 t.code q.toNat 0 a.toNat d.toNat 0x48, none)
  | .vext t d a b => some (.v 5 t.code 0 b.toNat a.toNat d.toNat 0x48, none)
  | .vins t d a b => some (.v 6 t.code 0 b.toNat a.toNat d.toNat 0x48, none)
  | .vredAdd t q d a => some (.v 0 t.code q.toNat 0 a.toNat d.toNat 0x49, none)
  | .vredMin t q d a => some (.v 1 t.code q.toNat 0 a.toNat d.toNat 0x49, none)
  | .vredMax t q d a => some (.v 2 t.code q.toNat 0 a.toNat d.toNat 0x49, none)
  | .vredMinu t q d a => some (.v 3 t.code q.toNat 0 a.toNat d.toNat 0x49, none)
  | .vredMaxu t q d a => some (.v 4 t.code q.toNat 0 a.toNat d.toNat 0x49, none)
  | .vredAnd t q d a => some (.v 5 t.code q.toNat 0 a.toNat d.toNat 0x49, none)
  | .vredOr t q d a => some (.v 6 t.code q.toNat 0 a.toNat d.toNat 0x49, none)
  | .vredXor t q d a => some (.v 7 t.code q.toNat 0 a.toNat d.toNat 0x49, none)
  | .vscanAdd t q d a => some (.v 0 t.code q.toNat 0 a.toNat d.toNat 0x4A, none)
  | .vscanAddx t q d a => some (.v 1 t.code q.toNat 0 a.toNat d.toNat 0x4A, none)
  | .vscanMax t q d a => some (.v 2 t.code q.toNat 0 a.toNat d.toNat 0x4A, none)
  | .vscanMin t q d a => some (.v 3 t.code q.toNat 0 a.toNat d.toNat 0x4A, none)
  | .vdot t q d a b => some (.v 0 t.code q.toNat b.toNat a.toNat d.toNat 0x4B, none)
  | .vdotU t q d a b => some (.v 1 t.code q.toNat b.toNat a.toNat d.toNat 0x4B, none)
  | .vclmul h q d a b => some (.v h.toNat 3 q.toNat b.toNat a.toNat d.toNat 0x4C, none)
  | .vpopc t q d a => some (.v 0 t.code q.toNat 0 a.toNat d.toNat 0x4D, none)
  | .qand d a b => some (.v 0 0 0 b.toNat a.toNat d.toNat 0x4E, none)
  | .qor d a b => some (.v 1 0 0 b.toNat a.toNat d.toNat 0x4E, none)
  | .qxor d a b => some (.v 2 0 0 b.toNat a.toNat d.toNat 0x4E, none)
  | .qnot d a => some (.v 3 0 0 0 a.toNat d.toNat 0x4E, none)
  | .vld t q d a b => some (.v 0 t.code q.toNat b.toNat a.toNat d.toNat 0x50, none)
  | .vst t q d a b => some (.v 1 t.code q.toNat b.toNat a.toNat d.toNat 0x50, none)
  | .vlds t q d a b => some (.v 2 t.code q.toNat b.toNat a.toNat d.toNat 0x50, none)
  | .vsts t q d a b => some (.v 3 t.code q.toNat b.toNat a.toNat d.toNat 0x50, none)
  | .vldx t q d a b => some (.v 4 t.code q.toNat b.toNat a.toNat d.toNat 0x50, none)
  | .vstx t q d a b => some (.v 5 t.code q.toNat b.toNat a.toNat d.toNat 0x50, none)
  | .sbind w v slot d a => some (.i (w.toNat * 16 + v.toNat * 8 + slot.toNat) a.toNat d.toNat 0x60, none)
  | .sfree slot => some (.i slot.toNat 0 0 0x61, none)
  | .sstat slot d => some (.i (4096 + slot.toNat) 0 d.toNat 0x61, none)
  | .sskip slot a => some (.i (8192 + slot.toNat) a.toNat 0 0x61, none)
  | .sdrain slot => some (.i (12288 + slot.toNat) 0 0 0x61, none)
  | .mma d a b => some (.a (0) b.toNat a.toNat d.toNat 0x68, none)
  | .mmas d a b => some (.a (1) b.toNat a.toNat d.toNat 0x68, none)
  | .mgangMma d a b => some (.a (2) b.toNat a.toNat d.toNat 0x68, none)
  | .mgangMmas d a b => some (.a (3) b.toNat a.toNat d.toNat 0x68, none)
  | .mrec d a b => some (.a (4) b.toNat a.toNat d.toNat 0x68, none)
  | .mfmt a => some (.a (0) 0 a.toNat 0 0x69, none)
  | .mzero d => some (.a (1) 0 0 d.toNat 0x69, none)
  | .mldc d a => some (.a (2) 0 a.toNat d.toNat 0x69, none)
  | .mstc d a => some (.a (3) 0 a.toNat d.toNat 0x69, none)
  | .muprog a => some (.a (4) 0 a.toNat 0 0x69, none)
  | .trap imm => some (.i imm.toNat 0 0 0x70, none)
  | .eret => some (.a (0) 0 0 0 0x71, none)
  | .uxret => some (.a (1) 0 0 0 0x71, none)
  | .ifence => some (.a (2) 0 0 0 0x71, none)
  | .halt => some (.a (3) 0 0 0 0x71, none)
  | .rand d => some (.a (4) 0 0 d.toNat 0x71, none)
  | .ctlrd c d => some (.i c.toNat 0 d.toNat 0x72, none)
  | .ctlwr c a => some (.i c.toNat a.toNat 0 0x73, none)
  | .statusWrite a => some (.i 0x000 a.toNat 0 0x73, none)
  | .lmhwmWrite a => some (.i 0x00A a.toNat 0 0x73, none)
  | .mstatWrite a => some (.i 0x00B a.toNat 0 0x73, none)
  | .melocRead d => some (.i 0x202 0 d.toNat 0x72, none)
  | .sumstatRead _ _ => none
  | .eventConfigStore _ _ => none
  | .fwctlWrite _ _ => none
  | .oportcfgWrite _ _ _ => none
  | .laneRetire _ _ => none
  | .fwRegisterWrite _ _ => none
  | .uxEntry => none
  | .schedulingEvent => none
  | .threadSwitch => none
  | .budgetRefresh => none
  | .tmma _ _ _ => none
  | .tmmas _ _ _ => none
  | .tmrec _ _ _ => none
  | .copy _ _ _ => none
  | .fill _ _ _ => none
  | .gather32 _ _ _ => none
  | .scatter32 _ _ _ => none
  | .merge _ _ _ => none
  | .compact _ _ _ => none
  | .osum _ _ _ => none
  | .osumb _ _ _ => none
  | .omax _ _ _ => none
  | .obcast _ _ _ => none
  | .olink _ _ _ => none
  | .segmentLanded _ _ => none
  | .commandCompletion _ _ _ => none
  | .matrixOperation _ => none
  | .doorbell _ _ _ => none
  | .queueStateWrite _ _ _ => none
  | .packetFetch _ _ => none
  | .launch _ _ => none
  | .indirect _ _ => none
  | .loop _ _ => none
  | .predicate _ _ => none
  | .fetchFence _ _ => none
  | .gatePoll _ _ => none
  | .timestamp _ _ => none
  | .nopPacket _ _ => none
  | .launchDispatch _ => none
  | .launchStart _ _ => none
  | .imageMulticastDone _ _ => none
  | .launchComplete _ _ => none
  | .budgetOverrun _ _ _ => none
  | .graceExpiry _ _ _ => none
  | .deadlineMissed _ _ => none
  | .stageRebalance _ _ => none
  | .stageJoin _ => none
  | .recordDispatch _ => none
  | .stagedLaunchEnd _ _ => none
  | .messageDelivery _ => none
  | .chainMessage _ => none
  | .paletteInvalidate _ => none
  | .paletteInstall _ => none
  | .paletteAck _ => none
  | .storePerform _ => none
  | .amoPerform _ => none
  | .streamFetchAhead _ _ _ => none
  | .preempt _ => none
  | .preemptiblePoint _ => none
  | .resume _ _ => none
  | .eviction _ _ _ => none
  | .hostFaultAnswer _ _ => none
  | .invalidationRequest _ _ _ _ => none
  | .invalidationComplete _ => none
  | .partitionCreate _ => none
  | .hostAccess _ => none
  | .penumbraPlacement _ _ => none
  | .reclaimComplete _ => none
  | .penumbraReplacement _ _ _ _ => none
  | .linkFailure _ => none
  | .linkReroute _ _ => none
  | .flowDrain _ => none
  | .linkRestore _ => none
  | .gweridRetrain => none
  | .gweridDown => none
  | .reallocation _ => none
  | .laneLockLoss _ _ => none
  | .widthConfirmation _ _ => none
  | .burstReceive _ _ _ => none
  | .fabricRequest _ _ _ => none
  | .fabricGrant _ _ _ => none
  | .segmentFrame _ _ => none
  | .calibrationFrame _ _ => none
  | .straggleExpiry _ _ => none
  | .boot _ => none
  | .columnRemap _ => none
  | .roleRecovery _ => none
  | .imageHandover _ => none
  | .handoverAbort => none
  | .flashWrite _ => none
  | .recoveryImage _ => none
  | .attestationRequest _ => none
  | .profileChange _ => none
  | .temperatureReport _ _ => none
  | .restart _ _ => none
  | .illegalEncoding _ => none
  | .badTypePacket _ _ => none
  | .scrubbing _ => none
  | .matrixSelfTest _ => none
  | .gweridLinkReturn => none
  | .hostConfigurationTable _ => none

/-- The instruction whose words a term has: the rows STATUS_WRITE, LMHWM_WRITE, MSTAT_WRITE and MELOC_READ are CTLWR and
CTLRD of their registers (R17, R61). -/
noncomputable def coreWord (i : Instr) : Instr :=
  match i with
  | .statusWrite a => .ctlwr 0x000 a
  | .lmhwmWrite a => .ctlwr 0x00A a
  | .mstatWrite a => .ctlwr 0x00B a
  | .melocRead d => .ctlrd 0x202 d
  | i => i

/-- The words of an instruction, the instruction word first (R36). -/
def encode (i : Instr) : List W32 :=
  match encodeRaw i with
  | none => []
  | some (r, none) => [BitVec.ofNat 32 (rawWord r)]
  | some (r, some x) => [BitVec.ofNat 32 (rawWord r), x]

/-- The instruction word: what EVAL of an ILLEGAL or PRIVILEGED trap holds (R30). -/
def Instr.word (i : Instr) : W32 :=
  match encode i with
  | [] => 0
  | w :: _ => w

/-- The instruction carries a trailing literal word (R36). -/
def Instr.hasLit (i : Instr) : Bool :=
  match encodeRaw i with
  | some (_, some _) => true
  | _ => false

/-- The length in bytes: 4, or 8 with a literal word (R36). -/
def Instr.len (i : Instr) : Nat := if i.hasLit then 8 else 4

/-- The bytes of a list of words, each word little-endian and the first at the lowest address (R5, R36). -/
def wordBytes : List W32 → List Byte
  | [] => []
  | w :: ws => leBytes 4 w.toNat ++ wordBytes ws

end Sys2Proof
end

