-- ==== Sys2Proof/Config.lean ====
section
/-! DEFINITION. What the manual leaves to the implementation or leaves open: free values, constants with no body, so that no
proof can see what they are (log entry 3). -/
namespace Sys2Proof.Config

/-- Nanoseconds of device time that pass in the step with this number (log entry 3). -/
opaque elapsed : Nat → Nat

/-- A free choice between two allowed outcomes, one for each value of `State.free` (log entry 3). -/
opaque freeBit : Nat → Bool

/-- A free 64-bit value, one for each value of `State.free`: the bits of RAND (05 R130) and other values the manual does
not state (log entry 3). -/
opaque freeWord : Nat → BitVec 64

/-- The index that places a line in a set of the L2-mode granules of its home slice (11 R252; log entry 24). -/
opaque l2Index : Nat → Nat

/-- The index that places a translation, by its page number and level, in a set of the L2 TLB (11 R242; log entry 24). -/
opaque tlbIndex : Nat → Nat → Nat

/-- The package and the port at the far end of the fibre of a link port (23 R453; log entry 67). -/
opaque fibrePkg : Nat → Nat → Nat

@[inherit_doc fibrePkg] opaque fibrePort : Nat → Nat → Nat

/-- The partition host interrupt vector of a partition's fault queue, by PID (19 R375; log entry 8). -/
opaque faultVector : Nat → Nat

/-- The firmware register at a block and offset of aperture 0x405 (25 R466; log entry 8). -/
opaque fwBlock : Nat → Nat → Option FwReg

/-- The generic address of a firmware register in aperture 0x405 (25 R466; log entry 8). -/
opaque fwAddr : FwReg → BitVec 64

/-- The place of a line among the lines of the L2-mode granules of its home slice (19 R374; log entry 24). -/
opaque l2Place : Nat → Nat

/-- The public key that the boot ROM verifies signatures with, 64 bytes (25 R464; log entry 9). -/
opaque publicKey : List (BitVec 8)

/-- The SHA-256 of a public key that is fused in the package (25 R464; log entry 9). -/
opaque fusedKey : List (BitVec 8)

/-- The bytes of an image that its own signature covers (25 R464; log entry 9). -/
opaque imageCovered : List (BitVec 8) → List (BitVec 8)

/-- The signature that an image carries, r then s (25 R464; log entry 9). -/
opaque imageSig : List (BitVec 8) → List (BitVec 8)

/-- The SVN of an image (25 R464; log entry 9). -/
opaque imageSvn : List (BitVec 8) → Nat

/-- The fused minimum SVN (25 R464; log entry 9). -/
opaque fusedSvn : Nat

/-- The device attestation key (25 R471; log entry 9). -/
opaque attestKey : Nat

/-- The secret number that signs a report (25 R471; log entry 9). -/
opaque attestNonce : List (BitVec 8) → Nat

/-- A role serves the queues of a partition, by the index of the role and the PID (25 R468; log entry 53). -/
opaque roleServes : Nat → Nat → Bool

/-- The core whose counter takes a correction of HBM that no partition owns, by its key (11 R258; log entry 24). -/
opaque hbmCore : Nat → Nat

/-- The local-memory base, the entry offset and the constant bank of a firmware image (25 R464; log entry 9). -/
opaque imageBase : List (BitVec 8) → Nat
/-- See `imageBase`. -/
opaque imageEntry : List (BitVec 8) → Nat
/-- See `imageBase`. -/
opaque imageConsts : List (BitVec 8) → List (BitVec 32)

end Sys2Proof.Config
end

