-- ==== Sys2Proof/Machine/Float.lean ====
section
/-! DEFINITION. Floating-point formats, rounding and conversion (04 R80 to R98). A finite number is kept exactly, as a
sign, a natural significand and a power of two; one function rounds it (R90, R91) and says which flags it sets (R88). -/
namespace Sys2Proof.Machine

/-- The floating-point formats of R80. -/
inductive FFmt where
  | f64 | f32 | f16 | bf16 | e5m2 | e4m3 | e3m2 | e2m3
  deriving DecidableEq, Repr

/-- Width of the exponent field E (R80). -/
def FFmt.ebits : FFmt → Nat
  | .f64 => 11 | .f32 => 8 | .f16 => 5 | .bf16 => 8 | .e5m2 => 5 | .e4m3 => 4 | .e3m2 => 3 | .e2m3 => 2

/-- Width of the fraction field F (R80). -/
def FFmt.fbits : FFmt → Nat
  | .f64 => 52 | .f32 => 23 | .f16 => 10 | .bf16 => 7 | .e5m2 => 2 | .e4m3 => 3 | .e3m2 => 2 | .e2m3 => 3

/-- The bias (R80). -/
def FFmt.bias : FFmt → Int
  | .f64 => 1023 | .f32 => 127 | .f16 => 15 | .bf16 => 127 | .e5m2 => 15 | .e4m3 => 7 | .e3m2 => 3 | .e2m3 => 1

/-- The format has infinities (R80). -/
def FFmt.hasInf : FFmt → Bool
  | .f64 | .f32 | .f16 | .bf16 | .e5m2 => true
  | .e4m3 | .e3m2 | .e2m3 => false

/-- The format has NaNs (R80). -/
def FFmt.hasNaN : FFmt → Bool
  | .f64 | .f32 | .f16 | .bf16 | .e5m2 | .e4m3 => true
  | .e3m2 | .e2m3 => false

/-- The bits of an encoding (R80). -/
def FFmt.width (f : FFmt) : Nat := 1 + f.ebits + f.fbits

/-- Bytes a stored element takes (R82). -/
def FFmt.bytes : FFmt → Nat
  | .f64 => 8 | .f32 => 4 | .f16 => 2 | .bf16 => 2 | .e5m2 => 1 | .e4m3 => 1 | .e3m2 => 1 | .e2m3 => 1

/-- The canonical quiet NaN (R87); in E3M2 and E2M3, which have none, the +0 that R96 delivers for a NaN. -/
def FFmt.canonNaN : FFmt → Nat
  | .f64 => 0x7FF8000000000000 | .f32 => 0x7FC00000 | .f16 => 0x7E00 | .bf16 => 0x7FC0 | .e5m2 => 0x7E
  | .e4m3 => 0x7F | .e3m2 => 0 | .e2m3 => 0

/-- The significand of the largest finite magnitude Mx, in units of its last place (R80). -/
def FFmt.maxMant : FFmt → Nat
  | .f64 => 2 ^ 53 - 1 | .f32 => 2 ^ 24 - 1 | .f16 => 2 ^ 11 - 1 | .bf16 => 2 ^ 8 - 1 | .e5m2 => 7
  | .e4m3 => 14 | .e3m2 => 7 | .e2m3 => 15

/-- The exponent of the largest finite magnitude (R80). -/
def FFmt.emax : FFmt → Int
  | .f64 => 1023 | .f32 => 127 | .f16 => 15 | .bf16 => 127 | .e5m2 => 15 | .e4m3 => 8 | .e3m2 => 4 | .e2m3 => 2

/-- The exponent of the smallest positive normal value Mn (R80). -/
def FFmt.emin (f : FFmt) : Int := 1 - f.bias

/-- The exponent of the last place of a subnormal value (R81). -/
def FFmt.qmin (f : FFmt) : Int := f.emin - f.fbits

/-- The sign bit at the head of an encoding. -/
def FFmt.signBits (f : FFmt) (s : Bool) : Nat := if s then 2 ^ (f.ebits + f.fbits) else 0

/-- The encoding of ±infinity in formats that have one (R81). -/
def FFmt.infBits (f : FFmt) (s : Bool) : Nat := f.signBits s + (2 ^ f.ebits - 1) * 2 ^ f.fbits

/-- The encoding of the largest finite magnitude with a sign. -/
def FFmt.maxBits (f : FFmt) (s : Bool) : Nat :=
  f.signBits s + (f.emax - f.emin).toNat * 2 ^ f.fbits + f.maxMant

/-- The value of an encoding (R81): a NaN, quiet or signalling (R87), an infinity, or (−1)^s × m × 2^e. -/
inductive FVal where
  | nan (sig : Bool)
  | inf (s : Bool)
  | fin (s : Bool) (m : Nat) (e : Int)
  deriving DecidableEq, Repr

/-- The value of an encoding (R80, R81, R87). -/
def fdecode (f : FFmt) (x : Nat) : FVal :=
  let fr := bitsOf x 0 f.fbits
  let ex := bitsOf x f.fbits f.ebits
  let s := bitOf x (f.ebits + f.fbits)
  if ex = 2 ^ f.ebits - 1 ∧ f.hasInf = true then
    if fr = 0 then .inf s else .nan (!bitOf fr (f.fbits - 1))
  else if f = .e4m3 ∧ ex = 15 ∧ fr = 7 then .nan false
  else if ex = 0 then .fin s fr f.qmin
  else .fin s (2 ^ f.fbits + fr) (f.qmin + (ex - 1 : Nat))

/-- The value is a NaN. -/
def FVal.isNaN : FVal → Bool
  | .nan _ => true
  | .inf _ | .fin _ _ _ => false

/-- The value is a signalling NaN (R87). -/
def FVal.isSNaN : FVal → Bool
  | .nan s => s
  | .inf _ | .fin _ _ _ => false

/-- The value is a zero of either sign. -/
def FVal.isZero : FVal → Bool
  | .fin _ m _ => m == 0
  | .nan _ | .inf _ => false

/-- The sign of a value; false for a NaN. -/
def FVal.sign : FVal → Bool
  | .nan _ => false
  | .inf s => s
  | .fin s _ _ => s

/-- Accrued flags NV DZ OF UF NX, as STATUS.FFLAGS holds them, NV in the top bit (R18, R88). -/
abbrev FFlags := BitVec 5

/-- NV (R88). -/
def flNV : FFlags := 16
/-- DZ (R88). -/
def flDZ : FFlags := 8
/-- OF (R88). -/
def flOF : FFlags := 4
/-- UF (R88). -/
def flUF : FFlags := 2
/-- NX (R88). -/
def flNX : FFlags := 1

/-- `f` where `c` holds. -/
def flagIf (c : Bool) (f : FFlags) : FFlags := if c then f else 0

/-- R90, R91: the neighbour away from zero is chosen, for an inexact magnitude lo + rem/den units of sign `neg`. Under SR
R91 uses the top g = min(D, 32) discarded bits; where D < 32 the further bits of f are zero, so 32 bits decide the same. -/
def roundsUp (mode : Rnd) (neg : Bool) (lo rem den draw : Nat) : Bool :=
  match mode with
  | .rne => decide (den < 2 * rem) || (decide (2 * rem = den) && lo % 2 == 1)
  | .rtz => false
  | .rup => !neg
  | .rdn => neg
  | .rna => decide (den ≤ 2 * rem)
  | .sr => decide (draw / 2 ^ 32 < rem * 2 ^ 32 / den)
  | .dyn => false

/-- R90: the magnitude m × 2^e rounded to a whole number of units of 2^q, and whether it was inexact. -/
def roundAt (mode : Rnd) (neg : Bool) (m : Nat) (e q : Int) (draw : Nat) : Nat × Bool :=
  if q ≤ e then (m * 2 ^ (e - q).toNat, false)
  else
    let den := 2 ^ (q - e).toNat
    let lo := m / den
    let rem := m % den
    if rem = 0 then (lo, false)
    else (if roundsUp mode neg lo rem den draw then lo + 1 else lo, true)

/-- The result of an overflow (R90; R96 where the format has no infinity). -/
def overflowBits (f : FFmt) (mode : Rnd) (neg : Bool) : Nat :=
  if f.hasInf then
    match mode with
    | .rne | .rna | .sr | .dyn => f.infBits neg
    | .rtz => f.maxBits neg
    | .rup => if neg then f.maxBits neg else f.infBits neg
    | .rdn => if neg then f.infBits neg else f.maxBits neg
  else f.maxBits neg

/-- R88, R90: the encoding of (−1)^neg × m × 2^e rounded to the format, with the flags it sets. -/
def roundFloat (f : FFmt) (mode : Rnd) (neg : Bool) (m : Nat) (e : Int) (draw : Nat) : Nat × FFlags :=
  if m = 0 then (f.signBits neg, 0)
  else
    let ex : Int := e + ((bitLen m - 1 : Nat) : Int)
    let qU : Int := ex - f.fbits
    let q : Int := if qU < f.qmin then f.qmin else qU
    let u := roundAt mode neg m e qU draw
    let r := roundAt mode neg m e q draw
    let carry := u.1 == 2 ^ (f.fbits + 1)
    let exU : Int := if carry then ex + 1 else ex
    let ovf := decide (f.emax < exU) || (decide (f.emax = exU) && !carry && decide (f.maxMant < u.1))
    if ovf then (overflowBits f mode neg, flOF ||| flNX)
    else
      (f.signBits neg + (q - f.qmin).toNat * 2 ^ f.fbits + r.1,
        flagIf (r.2 && decide (exU < f.emin)) flUF ||| flagIf r.2 flNX)

/-- The canonical NaN with NV where an operand signals (R87, R114). -/
def nanResult (f : FFmt) (nv : Bool) : Nat × FFlags := (f.canonNaN, flagIf nv flNV)

/-- The exact sum of two finite values as an integer significand and an exponent. -/
def exactSum (s : Bool) (m : Nat) (e : Int) (t : Bool) (n : Nat) (g : Int) : Int × Int :=
  let q := if e ≤ g then e else g
  let x : Int := (m * 2 ^ (e - q).toNat : Nat)
  let y : Int := (n * 2 ^ (g - q).toNat : Nat)
  ((if s then -x else x) + (if t then -y else y), q)

/-- The rounded sum of two values that are no NaN (R114). -/
def addFinite (f : FFmt) (mode : Rnd) (s : Bool) (m : Nat) (e : Int) (t : Bool) (n : Nat) (g : Int) (draw : Nat) :
    Nat × FFlags :=
  let r := exactSum s m e t n g
  if r.1 = 0 then
    (f.signBits (if m = 0 ∧ n = 0 ∧ s = t then s else mode == .rdn), 0)
  else roundFloat f mode (decide (r.1 < 0)) r.1.natAbs r.2 draw

/-- FADD of two values (R114). -/
def faddV (f : FFmt) (mode : Rnd) (x y : FVal) (draw : Nat) : Nat × FFlags :=
  match x, y with
  | .nan _, _ | _, .nan _ => nanResult f (x.isSNaN || y.isSNaN)
  | .inf s, .inf t => if s = t then (f.infBits s, 0) else nanResult f true
  | .inf s, .fin _ _ _ => (f.infBits s, 0)
  | .fin _ _ _, .inf t => (f.infBits t, 0)
  | .fin s m e, .fin t n g => addFinite f mode s m e t n g draw

/-- The value with its sign inverted; a NaN stays as it is. -/
def FVal.neg : FVal → FVal
  | .nan s => .nan s
  | .inf s => .inf (!s)
  | .fin s m e => .fin (!s) m e

/-- FMUL (R114). -/
def fmulV (f : FFmt) (mode : Rnd) (x y : FVal) (draw : Nat) : Nat × FFlags :=
  match x, y with
  | .nan _, _ | _, .nan _ => nanResult f (x.isSNaN || y.isSNaN)
  | .inf s, .inf t => (f.infBits (s != t), 0)
  | .inf s, .fin t n _ => if n = 0 then nanResult f true else (f.infBits (s != t), 0)
  | .fin s m _, .inf t => if m = 0 then nanResult f true else (f.infBits (s != t), 0)
  | .fin s m e, .fin t n g => roundFloat f mode (s != t) (m * n) (e + g) draw

/-- FDIV (R114). The quotient is cut 160 places below the dividend's last place, with one sticky place for the rest. -/
def fdivV (f : FFmt) (mode : Rnd) (x y : FVal) (draw : Nat) : Nat × FFlags :=
  match x, y with
  | .nan _, _ | _, .nan _ => nanResult f (x.isSNaN || y.isSNaN)
  | .inf _, .inf _ => nanResult f true
  | .inf s, .fin t _ _ => (f.infBits (s != t), 0)
  | .fin s _ _, .inf t => (f.signBits (s != t), 0)
  | .fin s m e, .fin t n g =>
    if n = 0 then (if m = 0 then nanResult f true else (f.infBits (s != t), flDZ))
    else
      let k := m * 2 ^ 160
      roundFloat f mode (s != t) (2 * (k / n) + (if k % n = 0 then 0 else 1)) (e - g - 161) draw

/-- The integer part of the square root of n < 2^(2 × k), bit by bit. -/
def isqrt : Nat → Nat → Nat → Nat
  | 0, _, r => r
  | k + 1, n, r => if (r + 2 ^ k) * (r + 2 ^ k) ≤ n then isqrt k n (r + 2 ^ k) else isqrt k n r

/-- FSQRT (R114). The root is cut at least 99 places below its point, with one sticky place for the rest. -/
def fsqrtV (f : FFmt) (mode : Rnd) (x : FVal) (draw : Nat) : Nat × FFlags :=
  match x with
  | .nan s => nanResult f s
  | .inf s => if s then nanResult f true else (f.infBits false, 0)
  | .fin s m e =>
    if m = 0 then (f.signBits s, 0)
    else if s then nanResult f true
    else
      let odd := e % 2 = 1
      let m' := (if odd then 2 * m else m) * 2 ^ 200
      let e' := (if odd then e - 1 else e) / 2
      let r := isqrt 130 m' 0
      roundFloat f mode false (2 * r + (if r * r = m' then 0 else 1)) (e' - 101) draw

/-- The exact product of two values that are no NaN and not 0 × ∞. -/
def FVal.mulExact : FVal → FVal → FVal
  | .fin s m e, .fin t n g => .fin (s != t) (m * n) (e + g)
  | x, y => .inf (x.sign != y.sign)

/-- One factor is zero and the other infinite (R114). -/
def zeroTimesInf (x y : FVal) : Bool :=
  match x, y with
  | .inf _, .fin _ n _ => n == 0
  | .fin _ m _, .inf _ => m == 0
  | _, _ => false

/-- FFMA: x × y + z with one rounding (R115). -/
def ffmaV (f : FFmt) (mode : Rnd) (x y z : FVal) (draw : Nat) : Nat × FFlags :=
  if zeroTimesInf x y then nanResult f true
  else if x.isNaN || y.isNaN || z.isNaN then nanResult f (x.isSNaN || y.isSNaN || z.isSNaN)
  else faddV f mode (x.mulExact y) z draw

/-- The bits that FMIN and FMAX order, −0 below +0 (R87): a key that rises with the value; NaNs apart. -/
def FVal.lt (x y : FVal) : Bool :=
  match x, y with
  | .nan _, _ | _, .nan _ => false
  | .inf s, .inf t => s && !t
  | .inf s, .fin _ _ _ => s
  | .fin _ _ _, .inf t => !t
  | .fin s m e, .fin t n g =>
    let r := exactSum s m e (!t) n g
    decide (r.1 < 0)

/-- x = y as numbers, −0 = +0; false with a NaN (R117). -/
def FVal.eq (x y : FVal) : Bool := !x.isNaN && !y.isNaN && !x.lt y && !y.lt x

/-- The order of FMIN and FMAX: as numbers, with −0 below +0 (R87, R116). -/
def fminLt (x y : FVal) : Bool := x.lt y || (x.isZero && y.isZero && x.sign && !y.sign)

/-- FMIN and FMAX on encodings (R87, R116). -/
def fminmax (f : FFmt) (isMax : Bool) (a b : Nat) : Nat :=
  let x := fdecode f a
  let y := fdecode f b
  if x.isNaN then (if y.isNaN then f.canonNaN else b)
  else if y.isNaN then a
  else if isMax then (if fminLt x y then b else a)
  else (if fminLt y x then b else a)

/-- The class word of FCLASS (R116). -/
def fclassBits (f : FFmt) (a : Nat) : Nat :=
  let neg := if bitOf a (f.ebits + f.fbits) then 1 else 0
  match fdecode f a with
  | .nan true => 64 + neg
  | .nan false => 32 + neg
  | .inf _ => 16 + neg
  | .fin _ m e =>
    if m = 0 then 2 + neg
    else
      let whole := decide (0 ≤ e) || decide (m % 2 ^ (-e).toNat = 0)
      (if whole then 256 else 0) + (if bitsOf a f.fbits f.ebits = 0 then 4 else 8) + neg

/-- Conversion of a value to a floating-point format (R95, R96). -/
def convertFloat (f : FFmt) (mode : Rnd) (x : FVal) (draw : Nat) : Nat × FFlags :=
  match x with
  | .nan s => (f.canonNaN, flagIf (s || !f.hasNaN) flNV)
  | .inf s => if f.hasInf then (f.infBits s, 0) else (f.maxBits s, flOF ||| flNX)
  | .fin s m e => roundFloat f mode s m e draw

/-- Conversion of an integer to a floating-point format (R98). -/
def intToFloat (f : FFmt) (mode : Rnd) (x : Int) (draw : Nat) : Nat × FFlags :=
  roundFloat f mode (decide (x < 0)) x.natAbs 0 draw

/-- Conversion of a value to an integer of n bits (R97): the value delivered, and the flags. -/
def floatToInt (n : Nat) (signed sat : Bool) (mode : Rnd) (x : FVal) (draw : Nat) : Int × FFlags :=
  let lo : Int := if signed then -(2 ^ (n - 1) : Nat) else 0
  let hi : Int := if signed then (2 ^ (n - 1) : Nat) - 1 else (2 ^ n : Nat) - 1
  let bad : Int := -(2 ^ (n - 1) : Nat)
  match x with
  | .nan _ => (if sat then 0 else bad, flNV)
  | .inf s => (if sat then (if s then lo else hi) else bad, flNV)
  | .fin s m e =>
    let r := roundAt mode s m e 0 draw
    let v : Int := if s then -(r.1 : Int) else r.1
    if v < lo then (if sat then lo else bad, flNV)
    else if hi < v then (if sat then hi else bad, flNV)
    else (v, flagIf r.2 flNX)

/-- x rotated left by n, 1 ≤ n ≤ 63, modulo 2^64 (R92). -/
def rotl64 (x n : Nat) : Nat := (x * 2 ^ n + x % 2 ^ 64 / 2 ^ (64 - n)) % 2 ^ 64

/-- One round of the generator of R92. -/
def srRound (ab : Nat × Nat) (k : Nat × Nat) : Nat × Nat :=
  let a := (ab.1 + ab.2 + k.1) % 2 ^ 64
  (a, rotl64 ab.2 k.2 ^^^ a)

/-- The stochastic-rounding generator SrDraw (R92). -/
def srDraw (seed rank tsid ctr : Nat) : Nat :=
  let a := (seed % 2 ^ 64) ^^^ (tsid * 2 ^ 61 % 2 ^ 64)
  let b := (rank % 2 ^ 16) * 2 ^ 48 + ctr % 2 ^ 48
  let r := [(0x9E3779B97F4A7C15, 23), (0xBF58476D1CE4E5B9, 41), (0x94D049BB133111EB, 17),
    (0xD6E8FEB86659FD93, 31)].foldl srRound (a, b)
  (r.1 + rotl64 r.2 32) % 2 ^ 64

end Sys2Proof.Machine
end

