-- ==== Sys2Proof/Machine/State.lean ====
section
/-! DEFINITION. The state of the whole part as plain data: the focused thread set and core, every other thread set and core,
and the package around them (INVENTORY.md lists each field with the rule that names it). -/
namespace Sys2Proof.Machine

/-- Why the machine stops. -/
inductive Fault where
  /-- Raised by `step` when the agenda holds a term that is no instruction of the part (WellFormed). Safe: the agenda is the
  model's own field, and no hardware behaviour corresponds to such a term. -/
  | illFormed
  deriving DecidableEq, Repr

/-- Why an instruction has no meaning. -/
inductive Refusal where
  /-- Raised by `exec` for an instruction whose meaning is not written yet. Safe: the machine stops. -/
  | notModelled (mnemonic : String)
  deriving DecidableEq, Repr

/-- The issue states of a thread set (08 R171); `halted` is a thread set after HALT (05 R131). -/
inductive Run where
  | ready | stalled | waiting | idle | ended | halted
  deriving DecidableEq, Repr

/-- The states of a stream slot (06 R154). -/
inductive SlotSt where
  | free | active | done | faulted
  deriving DecidableEq, Repr

/-- A cause with its detail and value (01 R30, 11 R246). -/
structure Cause where
  code : Nat
  detail : Nat
  val : Word
  deriving DecidableEq, Repr

/-- A stream slot (06 R154 to R156, R160); `held` is a fault that the fetch-ahead met, with its element. -/
structure Slot where
  st : SlotSt
  write : Bool
  vec : Bool
  reg : Nat
  base : Word
  counts : List Nat
  strides : List Word
  esize : Nat
  sext : Bool
  pos : Nat
  buf : List (Nat × VWord)
  held : Option (Nat × Cause)
  deriving DecidableEq, Repr

/-- A FREE slot (06 R162). -/
def Slot.empty : Slot :=
  { st := .free, write := false, vec := false, reg := 0, base := 0, counts := [], strides := [], esize := 0,
    sext := false, pos := 0, buf := [], held := none }

/-- An engine completion (15 R320), with the handler word index UXH of its command (15 R315). -/
structure Completion where
  tag : Nat
  status : Nat
  cls : Nat
  units : Nat
  faddr : Word
  fcode : Nat
  fdetail : Nat
  pcount : Nat
  pmask : Nat
  tdone : Word
  uxh : Nat
  deriving DecidableEq, Repr

/-- The arrival record of BARL for one shape (a, b) (10 R227). -/
structure BarlRec where
  a : Nat
  b : Nat
  pending : Bool
  arrivedAt : Option Nat
  deriving DecidableEq, Repr

/-- The message of a SEND that has issued and cannot be sent yet, by the pc of the SEND: its destination and its 64 bytes (08 R195;
10 R223, R231). -/
structure HeldSend where
  pc : PcWord
  dst : Nat
  data : List Byte
  deriving DecidableEq, Repr

/-- A thread set, reserve bank or slice context (01 R12, R17); `waitphase` is BARL's (10 R227), and `enqWord` the word that a
stalled ENQ has read (15 R318). -/
structure ThreadSet where
  s : Vector Word 32
  v : Vector VWord 32
  q : Vector Word 8
  pc : PcWord
  slots : Vector Slot 8
  shS : Vector Word 8
  shQ7 : Word
  status : Word
  epc : Word
  ecause : Word
  eval : Word
  tvec : Word
  uxvec : Word
  uxid : Word
  uxepc : Word
  srctr : BitVec 48
  budget : Vector Word 4
  rankid : Word
  coord : Word
  launchid : Word
  rect : Word
  deadline : Word
  srseed : Word
  partid : Word
  tsid : Word
  prio : Word
  priv : Word
  plen : Word
  live : Word
  run : Run
  fbuf : List (Nat × W32)
  ux : List Completion
  sched : List Cause
  barl : List BarlRec
  waitphase : Nat
  sends : List HeldSend
  locks : BitVec 32
  pins : List (Nat × Nat)
  wbase : Nat
  wsize : Nat
  ticket : Option Nat
  palHold : List (Nat × Nat)
  palTaken : Option (Nat × Nat)
  trgWait : Option (Nat × Nat × Bool)
  enqWord : Option Nat
  deriving DecidableEq, Repr

/-- A palette membership (12 R263): FLAGS, KIND, SHAPE and CORES, bit row × 64 + col for a core. -/
structure PalMem where
  flags : Nat
  kind : Nat
  shape : Nat
  cores : Nat
  deriving DecidableEq, Repr

/-- A core's copy of one programmable palette entry (12 R262 to R273): the generation PALGET reads, the membership it
reads, whether the entry is INVALID, the membership and generation that operations carry while it is VALID, and the old slot. -/
structure PalCopy where
  gen : Nat
  mem : PalMem
  inv : Bool
  old : Option (Nat × PalMem)
  deriving DecidableEq, Repr

/-- An inbox entry: its kind (08 R195), its 32 bytes, and the user-level interrupt that its arrival raises (15 R319); in a
spill queue a message is one entry of 64 bytes (19 R386). -/
structure InboxEntry where
  kind : Nat
  data : List Byte
  ux : Option Completion
  deriving DecidableEq, Repr

/-- A thread set that waits at an event line; `result` is the line word once it is released (08 R192, R193). -/
structure EvWaiter where
  core : Nat
  tid : Nat
  arrived : Bool
  result : Option Word
  deriving DecidableEq, Repr

/-- One line of the quad event unit (08 R189 to R192). -/
structure EvLine where
  cfg : Word
  misuse : Bool
  held : Bool
  holder : Nat
  count : Nat
  gen : Nat
  arrivals : Nat
  waiters : List EvWaiter
  deriving DecidableEq, Repr

/-- The reset line (08 R190 to R192). -/
def EvLine.off : EvLine :=
  { cfg := 0, misuse := false, held := false, holder := 0, count := 0, gen := 0, arrivals := 0, waiters := [] }

/-- A byte range [lo, hi) of one core's local memory, held as a window (15 R327). -/
structure Window where
  core : Nat
  lo : Nat
  hi : Nat
  deriving DecidableEq, Repr

/-- An engine command in a queue (15 R313 to R328): its word, the ENQV index snapshot, the carried generation, its issuer
with its PRIV and level, the retired operations of its issuer that it is to follow (12 R277), its chain predecessor with the
status that it ended with, whether it has fired and started, its working position, its windows and locked registers with
their copies, its draws with their key of seed, rank and TSID, its results that are still to be written with the first fault met and, once its operation is over, how that ended
(23 R441, R447), and, once it has ended, its completion, with its place in the order of step 2 of 15 R319 once that step has
been taken. -/
structure Cmd where
  tcw : BitVec 256
  byEnqv : Bool
  idx : List Nat
  gen : Nat
  tid : Nat
  pid : Nat
  lid : Nat
  priv : Word
  f : Bool
  seq : Nat
  after : List Nat
  pred : Option Nat
  predSt : Option Nat
  fired : Bool
  started : Bool
  pos : Nat
  aux : List Nat
  units : Nat
  blk : List Byte
  blkEnq : List Byte
  acc : List Nat
  reads : List Window
  writes : List Window
  locks : List Nat
  lockCopy : List (Nat × VWord)
  srKey : Nat × Nat × Nat
  srBase : Nat
  srCount : Nat
  rm : Rnd
  ticket : Option Nat
  out : List (Word × List Byte)
  flt : Option Cause
  opEnd : Option Completion
  fin : Option Completion
  ord : Option Nat
  deriving DecidableEq, Repr

/-- A microprogram (16 R347). -/
structure MicroProg where
  ops : List W32
  const0 : W32
  const1 : W32
  nops : Nat
  init : W32
  deriving DecidableEq, Repr

/-- The selectors of accepted matrix operations (16 R330, R331). -/
inductive MatKind where
  | zero | mma | mmas | recur
  deriving DecidableEq, Repr

/-- An accepted matrix operation, joint with the quad's others where it is one of a gang: its accumulator, the format context
it carries, its operand places in local memory and the microprogram it was accepted with (16 R338, R343 to R348). -/
structure MatOp where
  kind : MatKind
  gang : Bool
  d : Nat
  ctx : Word
  aCore : Nat
  aOff : Nat
  bCore : Nat
  bOff : Nat
  wins : List Window
  prog : MicroProg
  seq : Nat
  tid : Nat
  pid : Nat
  lid : Nat
  deriving DecidableEq, Repr

/-- A member's arrival at the quad's gang barrier (16 R345). -/
structure GangArrival where
  tid : Nat
  sparse : Bool
  d : Nat
  aCore : Nat
  aOff : Nat
  bCore : Nat
  bOff : Nat
  wins : List Window
  ctx : Word
  decided : Option Cause
  started : Bool
  deriving DecidableEq, Repr

/-- Residency of a 4 KiB page of local memory (05 R123). -/
inductive PageSt where
  | resident | landing | empty
  deriving DecidableEq, Repr

/-- A code segment that is landing (13 R287). -/
structure Landing where
  seg : Nat
  va : Nat
  lmoff : Nat
  size : Nat
  pid : Nat
  lid : Nat
  deriving DecidableEq, Repr

/-- A continuation record in a stage ring (08 R182 to R184): its 64 bytes and the core H of its KEY. -/
structure StageRec where
  data : List Byte
  home : Nat
  deriving DecidableEq, Repr

/-- A window of local memory lent to a penumbra context (20 R395, R400, R401). -/
structure Lent where
  bank : Nat
  base : Nat
  size : Nat
  reclaim : Bool
  deriving DecidableEq, Repr

/-- Where a core stands in a pre-emption: a message that has arrived has its save frame (19 R381, R383). -/
inductive PreSt where
  | none
  | asked (frame : Nat)
  deriving DecidableEq, Repr

/-- A core; `tenant` is the partition that had it last (20 R393), `resumed` says that it has been resumed and not issued since (19
R385), and `sliceTurn` that its slice has run an accepted operation last (16 R331). The
inboxes and the spill queue stand beside local memory, not in its area for F (01 R25; log entry 64). -/
structure Core where
  tsets : Vector ThreadSet 7
  cur : Nat
  count : Nat
  bank : Nat
  lmhwm : Word
  mctx : Word
  mstat : Word
  accs : Vector (Vector W32 1024) 4
  prog : MicroProg
  matq : List MatOp
  gang : Option GangArrival
  trg : Vector W32 64
  bankTrg : Vector (Vector W32 8) 2
  queues : Vector (List Cmd) 8
  lastCmd : List (Nat × (Nat × Option Nat))
  inbox : Vector (List InboxEntry) 7
  spill : List (Nat × InboxEntry)
  lines : Vector EvLine 8
  phase : List (Nat × Nat)
  arrived : List (Nat × Nat)
  tags : List (Nat × (PageSt × Nat))
  landing : List Landing
  pal : Vector PalCopy 11
  marks : List (Nat × Nat)
  pred : List (Nat × Nat)
  l1 : List (Nat × Bool)
  amoLines : List Nat
  rings : Vector (List StageRec) 8
  ringFull : Vector Nat 8
  stage : Option Nat
  joining : Option Nat
  lent : List Lent
  fwctl : Word
  meloc : Word
  role : Word
  corr : List (Nat × Nat)
  yielded : Option Nat
  entropyBad : Bool
  pre : PreSt
  resumed : Bool
  sliceTurn : Bool
  owner : Option (Nat × Nat)
  tenant : Option Nat
  selfTested : Nat
  deriving DecidableEq, Repr

/-- The class in which an access is performed (12 R260). -/
inductive Cls where
  | lm | l1 | hs
  deriving DecidableEq, Repr

/-- The operations of AMO and VAMO (13 R292, R296). -/
inductive AmoOp where
  | add | and | or | xor | min | max | minu | maxu | swap | cas | fadd | fmin | fmax
  deriving DecidableEq, Repr

/-- What a retired operation that is not yet performed will do: store bytes, one read-modify-write of w bytes, with whether it moves
the contention counter of its core (11 R255), or the retirement of the versions of a word below a bound (13 R291). -/
inductive PendOp where
  | store (bytes : List Byte)
  | amo (op : AmoOp) (w : Nat) (x c : Nat) (auto : Bool)
  | recl (b : Nat)
  deriving DecidableEq, Repr

/-- A retired store or non-returning operation not yet performed (13 R283, R291, R294): its number, its agent, its launch,
its class, its memory key, physical and generic address, the stream slot that appended it, whether its thread set has read its value
since (12 R261), whether an atomic's page has C = 1, the palette entry and generation it carries, and, where it is a release or an acquire, whether that covers the classes L1 and HS (12 R263). -/
structure Pend where
  id : Nat
  core : Nat
  tid : Nat
  pid : Nat
  lid : Nat
  cls : Cls
  key : Nat
  pa : Nat
  ga : Word
  slot : Option Nat
  seen : Bool
  cached : Bool
  pal : Option (Nat × Nat)
  rel : Option (Bool × Bool)
  acq : Option (Bool × Bool)
  op : PendOp
  deriving DecidableEq, Repr

/-- A versioned word (11 R257): its physical address, the partition and virtual addresses by which STVs have reached it, its newest
number and its live pairs in arrival order. -/
structure VerWord where
  pa : Nat
  pid : Nat
  vas : List Nat
  n : Nat
  live : List (Nat × Word)
  deriving DecidableEq, Repr

/-- A linked WAITA of a partition (13 R303); `got` is the word read when a WAKE released it. -/
structure Waiter where
  pid : Nat
  pa : Nat
  core : Nat
  tid : Nat
  got : Option Word
  deriving DecidableEq, Repr

/-- A line that the L2-mode granules of a home slice hold, in a set; `rsv` marks one that an overflow record occupies, and `bad` and
`soft` name those of its 8 words that hold an uncorrectable and a single error there (11 R252, R254, R258). -/
structure L2Line where
  home : Nat
  set : Nat
  line : Nat
  dirty : Bool
  rsv : Bool
  bad : List Nat
  soft : List Nat
  deriving DecidableEq, Repr

/-- A directory entry of a line homed at a slice (11 R254). -/
inductive DirSt where
  | owned (core : Nat)
  | sharers (cores : List Nat)
  | overflow (cores : List Nat)
  | broadcast
  deriving DecidableEq, Repr

/-- Where a translation is cached (11 R242): the L1 TLB of a core, the L2 TLB of a quad, named by its member 0, or a walker of a
die. -/
inductive TlbAt where
  | l1 (core : Nat)
  | l2 (quad : Nat)
  | walker (die n : Nat)
  deriving DecidableEq, Repr

/-- A translation that a TLB or a walker of the partition holds: a leaf, or a walker's non-leaf entry, by the virtual page number
of its level; `hb` says that a walker's entry or one above it has HB = 1 (11 R241), and `bad` marks one with a parity error (11 R242, R244, R258). -/
structure TlbEnt where
  place : TlbAt
  bad : Bool
  pid : Nat
  vpn : Nat
  lvl : Nat
  hb : Bool
  entry : Word
  deriving DecidableEq, Repr

/-- A channel message in flight (08 R195 to R197); `after` numbers the retired operations of its sender that it is to follow
(08 R196). -/
structure Msg where
  pid : Nat
  lid : Nat
  core : Nat
  tid : Nat
  dst : Nat
  dts : Nat
  data : List Byte
  after : List Nat
  num : Nat
  deriving DecidableEq, Repr

/-- A chain message in flight (08 R194): its number in the order of injection, the configuration of the line that fired, and the
cores that it has still to reach. -/
structure ChainMsg where
  pid : Nat
  lid : Nat
  core : Nat
  num : Nat
  cfg : Word
  left : List Nat
  deriving DecidableEq, Repr

/-- The palette messages of R271. -/
inductive PalStep where
  | invalidate | install | ack
  deriving DecidableEq, Repr

/-- A palette message in flight between a palette home and a core (12 R271). -/
structure PalMsg where
  pid : Nat
  lid : Nat
  core : Nat
  num : Nat
  entry : Nat
  gen : Nat
  step : PalStep
  mem : Option PalMem
  deriving DecidableEq, Repr

/-- A PALSET or PALINV at its palette home (12 R271, R272): the entry, its issuer, the membership of a PALSET, the retired
operations of the issuer that step 1 waits for, how far it has come, the cores that have yet to
acknowledge, and, once it has ended, the generation that its completion reports. -/
structure PalReq where
  entry : Nat
  core : Nat
  tid : Nat
  mem : Option PalMem
  after : List Nat
  started : Bool
  installing : Bool
  waiting : List Nat
  done : Option Nat
  deriving DecidableEq, Repr

/-- How far an admitted launch has come (08 R178, R180; 09 R213 to R216): waiting for a position, its position chosen, its
rectangle claimed, released, or complete but for its completion record (19 R388). -/
inductive LaunchSt where
  | admitted | placed | multicast | running | completed
  deriving DecidableEq, Repr

/-- The states of a penumbra context (20 R402). -/
inductive PenSt where
  | queued | issuing | parked | retired
  deriving DecidableEq, Repr

/-- A penumbra context: rank, state, core, bank, frame, why and with how many cancelled commands it was parked, what its frame
carries beyond the bank record (20 R404), and its commands that have ended but found no room in its inbox. -/
structure PenCtx where
  rank : Nat
  st : PenSt
  core : Nat
  bank : Nat
  frame : Nat
  why : Nat
  cancelled : Nat
  saved : Option ThreadSet
  cmds : List (Nat × Cmd)
  deriving DecidableEq, Repr

/-- A pre-empted core of a launch (19 R381 to R386): its frame, the part of its state that the frame carries without a
stated layout, and its spill queue. -/
structure Held where
  core : Nat
  frame : Nat
  saved : Core
  spill : List (Nat × InboxEntry)
  deriving DecidableEq, Repr

/-- A launch (09 R202, R203, R211 to R215; 08 R176 to R188). -/
structure Launch where
  pid : Nat
  lid : Nat
  slot : Nat
  q : Nat
  pen : Bool
  lgw : Nat
  lgh : Nat
  row0 : Nat
  col0 : Nat
  prio : Nat
  policy : Nat
  deadline : Nat
  declared : Vector Nat 4
  charged : Vector Nat 4
  grace : Vector (Option Nat) 4
  graceFrom : Vector (Option Nat) 4
  unlimited : Vector Bool 4
  trapped : Vector Bool 4
  overC : Option Nat
  demoted : Bool
  missed : Bool
  graceUsed : Bool
  degraded : Bool
  ovTrap : Bool
  entry : Nat
  image : Nat
  compl : Nat
  notify : Bool
  sbound : Nat
  imgBytes : Nat
  kwords : Nat
  stages : List Nat
  tvec : Nat
  uxvec : Nat
  seed : Nat
  lmbase : Nat
  st : LaunchSt
  preds : List Nat
  tadmit : Nat
  tstart : Nat
  outcome : Nat
  code : Nat
  kill : Option Nat
  palGen : Vector Nat 11
  palReqs : List PalReq
  ctxs : List PenCtx
  held : List Held
  deriving DecidableEq, Repr

/-- A buffer that a queue's processing point stands in (09 R204). -/
structure Buf where
  addr : Nat
  count : Nat
  passes : Nat
  stride : Nat
  i : Nat
  pass : Nat
  deriving DecidableEq, Repr

/-- A position in processing order: the ring index and the level-1 and level-2 buffers (09 R208). -/
structure Cursor where
  ring : Nat
  l1 : Option Buf
  l2 : Option Buf
  deriving DecidableEq, Repr

/-- The states of a queue (09 R198). -/
inductive QueueSt where
  | disabled | running | stopped | halted
  deriving DecidableEq, Repr

/-- A packet copy that the fetch unit holds (09 R209). -/
structure PktCopy where
  pos : Cursor
  data : List Byte
  deriving DecidableEq, Repr

/-- An edge declared to a launch packet still to come (09 R208). -/
structure Edge where
  src : Nat
  left : Nat
  deriving DecidableEq, Repr

/-- A queue of a partition (09 R198 to R210): its state, the last doorbell value, the processing point with the ring entries
that a PREDICATE still skips, the packet copies, the declared edges, whether the fence at the point has begun to read its
gate word, and the forwarded fault that the point waits for. -/
structure Queue where
  pid : Nat
  q : Nat
  st : QueueSt
  door : Option Nat
  point : Cursor
  skip : Nat
  copies : List PktCopy
  edges : List Edge
  gateRead : Bool
  ticket : Option Nat
  deriving DecidableEq, Repr

/-- A partition (20 R389, R391, R392; 09 R215): `lastLid` is the launch id admitted last, and `capFell` says that its capacity
has fallen since the last admission (09 R218). -/
structure Partition where
  rcd : PartRec
  lastLid : Nat
  fwdrop : Nat
  halted : Bool
  freeFrames : List Nat
  irqHeld : List Nat
  capFell : Bool
  deriving DecidableEq, Repr

/-- Who waits for the host's answer to a forwarded fault (19 R388). -/
inductive Party where
  | thread (core tid : Nat)
  | command (core cq seq : Nat)
  | queue (pid q : Nat)
  | launch (pid lid : Nat)
  | port (die port : Nat)
  deriving DecidableEq, Repr

/-- A forwarded translation fault (19 R388). -/
structure Ticket where
  num : Nat
  pid : Nat
  lid : Nat
  va : Nat
  kind : Nat
  lvl : Nat
  party : Party
  denied : Option Bool
  deriving DecidableEq, Repr

/-- A translation invalidation request of a host driver (20 R392). -/
structure InvReq where
  pid : Nat
  va : Nat
  pages : Nat
  seq : Word
  deriving DecidableEq, Repr

/-- A flow that has left the dimension-order route, or is draining towards a new route or class; what is numbered from `upto` on has
not been injected (22 R416, R417). -/
structure FlowSt where
  flow : Flow
  route : List Nat
  escape : Bool
  draining : Bool
  back : Bool
  upto : Nat
  deriving DecidableEq, Repr

/-- A VCSEL lane register (22 R423); `age` counts µs. -/
structure Lane where
  age : Nat
  ret : Bool
  st : Nat
  port : Nat
  wl : Nat
  bias : Nat
  deriving DecidableEq, Repr

/-- A burst of an OLINK command to a port of a package that has not been acknowledged: sent, or refused and to be sent again, with the
launch that is charged for it. One of 0 bytes is no burst: it stands for the peer's write of FLAG (22 R428, R429; 23 R454). -/
structure Burst where
  core : Nat
  seq : Nat
  pkg : Nat
  far : Nat
  bytes : Nat
  refusals : Nat
  sent : Bool
  payer : Option (Nat × Nat)
  deriving DecidableEq, Repr

/-- One of the four ports of an optical engine (22 R425 to R429): its registers, the lanes it parked, the last one first, its
bursts, its requests for the next frame (package, port, slots), the grants for it, and those of this frame, a slot that has begun with the
bits that it still carries at the width it began with. -/
structure OPort where
  cfg : Word
  width : Nat
  parked : List Nat
  bursts : List Burst
  requests : List (Nat × Nat × Nat)
  coming : List FabGrant
  grants : List (FabGrant × Option Nat)
  deriving DecidableEq, Repr

/-- An operation in progress at a sum port (23 R434 to R442): its level, the command whose operation it is as its frames need
it, whether the port is a participant, its straggle wait, its participant mask, whether its down blocks run, the elements that
have passed in this phase, its subset with limit, sums and exponent, the exponent of a block that is sent again, its failures in a row, the sums of this level with their
exponents, the final values, and whether its last notice has arrived. -/
structure BusOp where
  grp : Nat
  seq : Nat
  lvl : Nat
  cmd : Option (Nat × Cmd)
  joined : Bool
  waits : Nat
  expired : Bool
  mask : Option Nat
  down : Bool
  done : Nat
  sub : Nat
  lim : Nat
  subSum : List Int
  subExp : Option Nat
  exp : Option Nat
  fails : Nat
  up : List (Int × Nat)
  res : List (Int × Nat)
  gone : Bool
  deriving DecidableEq, Repr

/-- A group that uses this sum port, with the next SEQ to run, and the masks of past operations in which the port took no part
(23 R430, R446, R447). -/
structure Group where
  pid : Nat
  rcd : GroupRec
  nextSeq : Nat
  seen : List (Nat × Nat)
  deriving DecidableEq, Repr

/-- The sum port of a die (23 R430 to R433, R440): SUMSTAT's fields, the limit that R440 has lowered, the next frame and the
place of the next data frame, its proposal, its groups and its operations. -/
structure SumPort where
  segid : Nat
  level : Nat
  pidx : Nat
  wmax : Nat
  lambda : Nat
  ddly : Nat
  failrun : Nat
  grpmax : Nat
  lowered : Nat
  cap : Nat
  frame : Nat
  slotK : Nat
  proposal : Option Nat
  groups : List Group
  ops : List BusOp
  deriving DecidableEq, Repr

/-- The optical engine of a die (22 R422 to R429). -/
structure Optics where
  lanes : List Lane
  ports : Vector OPort 4
  sum : SumPort
  deriving DecidableEq, Repr

/-- A role of the firmware column, by its entry of ROLEMAP, with the core that it runs on and the entry of its mirror (25 R463,
R466, R467). -/
structure Role where
  idx : Nat
  code : Nat
  core : Nat
  mirror : Nat
  deriving DecidableEq, Repr

/-- The phases of a live hand-over (25 R469, R471). -/
inductive HandPhase where
  | none | loading | passing | committed
  deriving DecidableEq, Repr

/-- Firmware (25 R463 to R474): the flash with its table and its image, whose write may have been interrupted; the table and the
image in force, and whether that came from the host; the incoming image of a hand-over or of a recovery, the phase, and the
roles that have passed with their old cores; whether firmware runs, whether the boot ROM waits in recovery, and whether it waits
for a table; the routers of the cores that failed self-test, and the cores struck by a machine error at F; roles and standby
cores; the column map with the logical columns that have been lost; profile, temperatures and tripped dies; the last attestation
report; the correction counters of each core as telemetry has read them; and the notices that hardware gave firmware. -/
structure Firmware where
  flashTable : List Byte
  flash : List Byte
  flashBad : Bool
  table : List Byte
  image : List Byte
  fromHost : Bool
  incoming : List Byte
  phase : HandPhase
  passed : List (Nat × Nat)
  booted : Bool
  recovery : Bool
  waitTable : Bool
  failed : List Nat
  erred : List Nat
  roles : List Role
  standby : List Nat
  colMap : List Nat
  lostCols : List Nat
  profile : Nat
  wantProfile : Option Nat
  temps : List Nat
  tripped : List Nat
  report : List Byte
  counts : List (Nat × List (Nat × Nat))
  notices : Nat
  deriving DecidableEq, Repr

/-- The state of the Gwerid link (22 R421). -/
inductive GweridSt where
  | up | down
  deriving DecidableEq, Repr

/-- What the machine does next where the manual leaves the order open: one of the device's own steps, or the issue of an
instruction by a named thread set. -/
inductive Move where
  | ev (i : Instr)
  | issue (core tid : Nat)
  deriving DecidableEq, Repr

/-- The state of the whole part. `ts` is the thread set that acts, with id `tid`, on core `core`, whose number is `here`. `bad` and
`soft` are the 64-bit words with an uncorrectable and a correctable error, `poison` the poisoned lines of HBM; `l1bad` names
words, with their physical address, whose error lies in a dirty line of an L1, `l1soft` a core with a word that its L1 holds with a
single error (01 R24, 11 R258); `hostOld` is what host memory holds of a line that the device has written and not yet written back
(11 R252, R253; 22 R421). -/
structure State where
  ts : ThreadSet
  tid : Nat
  core : Core
  here : Nat
  cores : List (Nat × Core)
  mem : List Host.Cell
  bad : List Nat
  soft : List Nat
  poison : List Nat
  l1bad : List (Nat × Nat)
  l1soft : List (Nat × Nat)
  hostOld : List (Nat × List Byte)
  pend : List Pend
  versions : List VerWord
  waiters : List Waiter
  dir : List (Nat × DirSt)
  l2 : List L2Line
  tlb : List TlbEnt
  msgs : List Msg
  chains : List ChainMsg
  palMsgs : List PalMsg
  parts : List Partition
  queues : List Queue
  launches : List Launch
  tickets : List Ticket
  nextTicket : Nat
  invs : List InvReq
  irqs : List Nat
  hostData : List Byte
  time : Nat
  failed : List Link
  flows : List FlowSt
  gwerid : GweridSt
  optics : Vector Optics 8
  fw : Firmware
  seq : Nat
  agenda : List Move
  free : Nat
  tick : Nat
  deriving DecidableEq, Repr

/-- A thread set before any launch: every register zero but TSID, and PRV of slice context 6, which runs at F (01 R22, R35;
log entry 5), ENDED. -/
def ThreadSet.reset (tid : Nat) : ThreadSet :=
  { s := vecGen 32 fun _ => 0, v := vecGen 32 fun _ => 0, q := vecGen 8 fun _ => 0, pc := 0,
    slots := vecGen 8 fun _ => Slot.empty, shS := vecGen 8 fun _ => 0, shQ7 := 0, status := if tid = 6 then 1 else 0, epc := 0, ecause := 0,
    eval := 0, tvec := 0, uxvec := 0, uxid := 0, uxepc := 0, srctr := 0, budget := vecGen 4 fun _ => 0, rankid := 0,
    coord := 0, launchid := 0, rect := 0, deadline := 0, srseed := 0, partid := 0, tsid := BitVec.ofNat 64 tid, prio := 0,
    priv := 0, plen := 0, live := 0, run := .ended, fbuf := [], ux := [], sched := [], barl := [], waitphase := 0, sends := [], locks := 0, pins := [],
    wbase := 0, wsize := 0, ticket := none, palHold := [], palTaken := none, trgWait := none, enqWord := none }

/-- The default shapes (a, b) of entries p4 to p14 (12 R264). -/
def palDefaults : List (Nat × Nat) :=
  [(1, 0), (0, 1), (1, 1), (0, 2), (2, 1), (2, 2), (3, 2), (2, 3), (3, 3), (4, 3), (4, 4)]

/-- The palette copy of entry 4 + k at release, with shapes clamped to the rectangle (12 R264). -/
def palRelease (lgw lgh k : Nat) : PalCopy :=
  let ab := nth (0, 0) palDefaults k
  { gen := 0, mem := { flags := 7, kind := 1, shape := Nat.min ab.1 lgw + 8 * Nat.min ab.2 lgh, cores := 0 },
    inv := false, old := none }

/-- The microprogram with NOPS = 0 (16 R330). -/
def MicroProg.none : MicroProg := { ops := [], const0 := 0, const1 := 0, nops := 0, init := 0 }

/-- A core before any launch (01 R17, R35; 15 R313; 16 R330; 08 R192; 20 R390; log entry 5). -/
def Core.reset : Core :=
  { tsets := vecGen 7 ThreadSet.reset, cur := 0, count := 0, bank := 4, lmhwm := 0xFC000, mctx := 0, mstat := 0,
    accs := vecGen 4 fun _ => vecGen 1024 fun _ => 0, prog := MicroProg.none, matq := [], gang := none, trg := vecGen 64 fun _ => 0,
    bankTrg := vecGen 2 fun _ => vecGen 8 fun _ => 0, queues := vecGen 8 fun _ => [], lastCmd := [], inbox := vecGen 7 fun _ => [],
    spill := [], lines := vecGen 8 fun _ => EvLine.off, phase := [], arrived := [], tags := [], landing := [],
    pal := vecGen 11 (palRelease 0 0), marks := [], pred := [], l1 := [], amoLines := [], rings := vecGen 8 fun _ => [],
    ringFull := vecGen 8 fun _ => 0, stage := none, joining := none, lent := [], fwctl := 0, meloc := 0, role := 0,
    corr := [], yielded := none, entropyBad := false, pre := .none, resumed := false, sliceTurn := false, owner := none, tenant := none, selfTested := 0 }

/-- The reset value of VCSEL lane register n (22 R423). -/
def Lane.reset (n : Nat) : Lane :=
  { age := 0, ret := false, st := if n < 64 then 2 else 0, port := 0, wl := if n < 64 then n else 0, bias := 0 }

/-- An optical engine at reset (22 R423, R425; 23 R431; log entry 5). -/
def Optics.reset : Optics :=
  { lanes := genList 72 Lane.reset,
    ports := vecGen 4 fun _ => { cfg := 0, width := 0, parked := [], bursts := [], requests := [], coming := [], grants := [] },
    sum := { segid := 0, level := 1, pidx := 0, wmax := 0, lambda := 1, ddly := 1, failrun := 0, grpmax := 0, lowered := 0,
             cap := 15, frame := 0, slotK := 0, proposal := none, groups := [], ops := [] } }

/-- Firmware at power-on, before the boot ROM runs (25 R464; log entry 5). -/
def Firmware.reset : Firmware :=
  { flashTable := [], flash := [], flashBad := false, table := [], image := [], fromHost := false, incoming := [], phase := .none,
    passed := [], booted := false, recovery := false, waitTable := false, failed := [], erred := [], roles := [], standby := [],
    colMap := genList 64 fun c => c, lostCols := [], profile := 0, wantProfile := none, temps := genList 8 fun _ => 0,
    tripped := [], report := [], counts := [], notices := 0 }

/-- The machine right after reset: thread set 0 of core (0, 0) in focus, no core in use, nothing in memory, no partition
and no launch. No value of the model's own fields (`agenda`, `free`, `tick`, `seq`, the focus) is the specification's
(log entries 2, 3, 5). -/
def State.reset : State :=
  { ts := ThreadSet.reset 0, tid := 0, core := Core.reset, here := 0, cores := [], mem := [], bad := [], soft := [],
    poison := [], l1bad := [], l1soft := [], hostOld := [], pend := [], versions := [], waiters := [], dir := [], l2 := [], tlb := [], msgs := [], chains := [], palMsgs := [],
    parts := [], queues := [], launches := [], tickets := [], nextTicket := 0, invs := [], irqs := [], hostData := [],
    time := 0, failed := [], flows := [], gwerid := .up, optics := vecGen 8 fun _ => Optics.reset, fw := Firmware.reset,
    seq := 0, agenda := [], free := 0, tick := 0 }

end Sys2Proof.Machine
end

