-- ==== Sys2Proof/Machine/Memory.lean ====
section
/-! DEFINITION. Memory as one sorted list of cells over the whole part: HBM and host memory at their physical addresses
(11 R238), then the local memories (01 R24), the home slices (11 R250) and the constant banks (01 R15). An unlisted byte reads
0 (log entry 4). -/
namespace Sys2Proof.Machine

/-- The key of a local-memory byte of a core (01 R24). -/
def lmKey (c off : Nat) : Nat := 2 ^ 48 + c * 2 ^ 20 + off

/-- The key of a home-slice byte of a core, over its 8 granules of 64 KiB (11 R250). -/
def sliceKey (c off : Nat) : Nat := 2 ^ 49 + c * 2 ^ 19 + off

/-- The key of a constant-bank byte of a core (01 R15). -/
def constKey (c off : Nat) : Nat := 2 ^ 50 + c * 2 ^ 12 + off

/-- What an unlisted byte reads as (log entry 4). -/
def unlisted : Byte := 0

/-- The canonical form: keys strictly rising, and no entry equal to what an unlisted byte reads as. -/
def Memory.wf : List Host.Cell → Bool
  | [] => true
  | [(_, b)] => b != unlisted
  | (a, b) :: (a', b') :: m => b != unlisted && decide (a < a') && Memory.wf ((a', b') :: m)

/-- The byte at a key. -/
def memGet : List Host.Cell → Nat → Byte
  | [], _ => unlisted
  | (a, b) :: m, k => if a = k then b else if k < a then unlisted else memGet m k

/-- Memory with the byte at a key set, in canonical form. -/
def memSet (k : Nat) (x : Byte) : List Host.Cell → List Host.Cell
  | [] => if x = unlisted then [] else [(k, x)]
  | (a, b) :: m =>
    if k < a then (if x = unlisted then (a, b) :: m else (k, x) :: (a, b) :: m)
    else if k = a then (if x = unlisted then m else (k, x) :: m)
    else (a, b) :: memSet k x m

/-- The `n` bytes from a key on. -/
def memRead (m : List Host.Cell) : Nat → Nat → List Byte
  | 0, _ => []
  | n + 1, k => memGet m k :: memRead m n (k + 1)

/-- Memory with bytes written from a key on. -/
def memWrite (k : Nat) : List Byte → List Host.Cell → List Host.Cell
  | [], m => m
  | b :: bs, m => memWrite (k + 1) bs (memSet k b m)

/-- Memory with the `n` bytes from a key on written zero (unlisted). -/
def memZero (k n : Nat) (m : List Host.Cell) : List Host.Cell :=
  m.filter fun c => decide (c.1 < k) || decide (k + n ≤ c.1)

/-- Memory with the `n` bytes from `src` copied to the bytes from `dst` on. -/
def memCopy (src dst n : Nat) (m : List Host.Cell) : List Host.Cell :=
  (m.filter fun c => decide (src ≤ c.1) && decide (c.1 < src + n)).foldl
    (fun acc c => memSet (dst + (c.1 - src)) c.2 acc) (memZero dst n m)

/-- The little-endian value of `n` bytes (00 R5). -/
def memValue (m : List Host.Cell) (n k : Nat) : Nat := leValue (memRead m n k)

end Sys2Proof.Machine
end

