-- ==== Sys2Proof/Machine/Ops.lean ====
section
/-! DEFINITION. The named operations over the state: focus, registers, STATUS, fault records, taking an exception and
returning from one, control transfer and fetch-buffer upkeep (chapters 01, 05, 19). -/
namespace Sys2Proof.Machine

/-! ## Thread sets and cores -/

/-- The focused core with the focused thread set put back into it. -/
def syncCore (s : State) : Core := { s.core with tsets := vecSet s.core.tsets s.tid s.ts }

/-- The core with a number. -/
def getCore (c : Nat) (s : State) : Core :=
  if c = s.here then syncCore s else lookupD Core.reset s.cores c

/-- The thread set `t` of core `c`. -/
def getTs (c t : Nat) (s : State) : ThreadSet :=
  if c = s.here ∧ t = s.tid then s.ts else vecGet (getCore c s).tsets t

/-- The core `c` changed by `f`, which is to leave its thread sets alone. -/
def modCore (c : Nat) (f : Core → Core) (s : State) : State :=
  if c = s.here then { s with core := f s.core }
  else { s with cores := insertKey c (f (lookupD Core.reset s.cores c)) s.cores }

/-- The thread set `t` of core `c` changed by `f`. -/
def modTs (c t : Nat) (f : ThreadSet → ThreadSet) (s : State) : State :=
  if c = s.here ∧ t = s.tid then { s with ts := f s.ts }
  else modCore c (fun k => { k with tsets := vecSet k.tsets t (f (vecGet k.tsets t)) }) s

/-- The focus moved to thread set `t` of core `c`. -/
def focusOn (c t : Nat) (s : State) : State :=
  if c = s.here ∧ t = s.tid then s
  else
    let k := getCore c s
    { s with cores := insertKey s.here (syncCore s) s.cores, core := k, here := c, ts := vecGet k.tsets t, tid := t }

/-- The free value counter advanced (log entry 3). -/
def tickFree (s : State) : State := { s with free := s.free + 1 }

/-! ## STATUS (01 R18) -/

/-- STATUS.PRV: true at F. -/
def isF (s : State) : Bool := s.ts.status.getLsbD 0
/-- STATUS.INTRAP. -/
def inTrap (s : State) : Bool := s.ts.status.getLsbD 1
/-- STATUS.UXEN. -/
def uxEn (s : State) : Bool := s.ts.status.getLsbD 2
/-- STATUS.INUX. -/
def inUx (s : State) : Bool := s.ts.status.getLsbD 3
/-- STATUS.PUXEN. -/
def puxEn (s : State) : Bool := s.ts.status.getLsbD 4

/-- A word with bits [lo, lo + n) replaced by the low n bits of `x`. -/
def setField (w : Word) (lo n : Nat) (x : Nat) : Word :=
  w64 (w.toNat - bitsOf w.toNat lo n * 2 ^ lo + x % 2 ^ n * 2 ^ lo)

/-- A word with one bit replaced. -/
def setBit (w : Word) (k : Nat) (b : Bool) : Word := setField w k 1 (if b then 1 else 0)

/-- STATUS changed by `f`. -/
def modStatus (f : Word → Word) (s : State) : State := { s with ts := { s.ts with status := f s.ts.status } }

/-- The rounding mode STATUS.RM; codes 6 and 7 are never written (05 R127). -/
def rmOf (s : State) : Rnd :=
  match bitsOf s.ts.status.toNat 8 3 with
  | 0 => .rne | 1 => .rtz | 2 => .rup | 3 => .rdn | 4 => .rna | 5 => .sr | _ => .rne

/-- The mode in effect for a rounding field (02 R46). -/
def resolveRm (r : Rnd) (s : State) : Rnd :=
  match r with
  | .dyn => rmOf s
  | .rne => .rne | .rtz => .rtz | .rup => .rup | .rdn => .rdn | .rna => .rna | .sr => .sr

/-- FFLAGS accrue: flags are only ever set (04 R88). -/
def accrue (fl : FFlags) (s : State) : State :=
  modStatus (fun w => w ||| (fl.setWidth 64 <<< 11)) s

/-! ## Registers (01 R12) -/

/-- Register s`n`: s0 reads zero; inside a user-level interrupt handler s24–s31 name the shadow copies (05 R126). -/
def getS (n : Reg) (s : State) : Word :=
  if n = 0 then 0
  else if inUx s ∧ 24 ≤ n.toNat then vecGet s.ts.shS (n.toNat - 24)
  else vecGet s.ts.s n.toNat

/-- A write of s`n`: writes to s0 are discarded (01 R12). -/
def setS (n : Reg) (x : Word) (s : State) : State :=
  if n = 0 then s
  else if inUx s ∧ 24 ≤ n.toNat then { s with ts := { s.ts with shS := vecSet s.ts.shS (n.toNat - 24) x } }
  else { s with ts := { s.ts with s := vecSet s.ts.s n.toNat x } }

/-- Register v`n`. -/
def getV (n : VReg) (s : State) : VWord := vecGet s.ts.v n.toNat

/-- A write of v`n`. -/
def setV (n : VReg) (x : VWord) (s : State) : State := { s with ts := { s.ts with v := vecSet s.ts.v n.toNat x } }

/-- Mask q`n`: q0 reads all ones; inside a user-level interrupt handler q7 names the shadow copy (01 R12, 05 R126). -/
def getQ (n : QReg) (s : State) : Word :=
  if n = 0 then 0xFFFFFFFFFFFFFFFF
  else if inUx s ∧ n = 7 then s.ts.shQ7
  else vecGet s.ts.q n.toNat

/-- A write of q`n`: writes to q0 are discarded (01 R12). -/
def setQ (n : QReg) (x : Word) (s : State) : State :=
  if n = 0 then s
  else if inUx s ∧ n = 7 then { s with ts := { s.ts with shQ7 := x } }
  else { s with ts := { s.ts with q := vecSet s.ts.q n.toNat x } }

/-- The draw number `k` after SRCTR of the focused thread set (04 R92). -/
def drawOf (s : State) (k : Nat) : Nat :=
  srDraw s.ts.srseed.toNat (s.ts.rankid.toNat % 2 ^ 16) s.ts.tsid.toNat (s.ts.srctr.toNat + k)

/-- SRCTR advanced by `k` draws, modulo 2^48 (04 R93). -/
def useDraws (k : Nat) (s : State) : State :=
  { s with ts := { s.ts with srctr := s.ts.srctr + BitVec.ofNat 48 k } }

/-- The partition of the focused thread set (01 R17). -/
def myPid (s : State) : Nat := bitsOf s.ts.partid.toNat 0 4
/-- The launch id of the focused thread set (01 R17). -/
def myLid (s : State) : Nat := bitsOf s.ts.launchid.toNat 0 32

/-- The focused context is a reserve bank (01 R12). -/
def isBank (s : State) : Bool := s.tid == 4 || s.tid == 5

/-! ## Partitions and launches -/

/-- The partition with a PID. -/
def partOf (pid : Nat) (s : State) : Option Partition := s.parts.find? fun p => p.rcd.pid == pid

/-- The partition with a PID changed by `f`. -/
def modPart (pid : Nat) (f : Partition → Partition) (s : State) : State :=
  { s with parts := modWhere (fun p => p.rcd.pid == pid) f s.parts }

/-- An uncompleted or completed launch by partition and launch id. -/
def launchOf (pid lid : Nat) (s : State) : Option Launch := s.launches.find? fun l => l.pid == pid && l.lid == lid

/-- The launch changed by `f`. -/
def modLaunch (pid lid : Nat) (f : Launch → Launch) (s : State) : State :=
  { s with launches := modWhere (fun l => l.pid == pid && l.lid == lid) f s.launches }

/-- The launch of the focused thread set. -/
def myLaunch (s : State) : Option Launch := launchOf (myPid s) (myLid s) s

/-- The logical row of a core. -/
def rowOf (c : Nat) : Nat := c / 64
/-- The logical column of a core. -/
def colOf (c : Nat) : Nat := c % 64

/-- COORD of a core (01 R21). -/
def coordOf (c : Nat) : Nat := rowOf c % 32 * 256 + colOf c

/-- The physical column of a core (08 R173); a core outside the tenant mesh carries its own (log entry 2). -/
def pcolOf (c : Nat) (s : State) : Nat :=
  if c < 2048 then nth 0 s.fw.colMap (colOf c) else (c - 2048) % 68

/-- The physical row of a core (08 R173). -/
def prowOf (c : Nat) : Nat := if c < 2048 then rowOf c else (c - 2048) / 68

/-- The die of a core (08 R173). -/
def dieOf (c : Nat) (s : State) : Nat := pcolOf c s / 17 + 4 * (prowOf c / 16)

/-- The clocks of a core's die run: the die has not tripped (25 R473). -/
def clocked (s : State) (c : Nat) : Bool := !(s.fw.tripped.contains (dieOf c s))

/-- The mesh router of a core: PROW × 68 + PCOL (22 R412, R416). -/
def routerOf (c : Nat) (s : State) : Nat := prowOf c * 68 + pcolOf c s

/-- The member number of a core in its quad (08 R175). -/
def memberOf (c : Nat) : Nat := rowOf c % 4

/-- The core that is member `m` of the quad of core `c` (08 R175). -/
def quadCore (c m : Nat) : Nat := (rowOf c / 4 * 4 + m) * 64 + colOf c

/-- The cores of a rectangle (08 R176), in rank order. -/
def rectCores (row0 col0 lgh lgw : Nat) : List Nat :=
  (genList (2 ^ lgh) fun r => genList (2 ^ lgw) fun k => (row0 + r) * 64 + col0 + k).flatten

/-- Core `c` lies in the rectangle (08 R176). -/
def inRect (row0 col0 lgh lgw c : Nat) : Bool :=
  decide (c < 2048) && decide (row0 ≤ rowOf c) && decide (rowOf c < row0 + 2 ^ lgh) && decide (col0 ≤ colOf c) &&
    decide (colOf c < col0 + 2 ^ lgw)

/-- LGH, LGW, ROW0 and COL0 of a RECT value (01 R21). -/
def rectLgh (r : Word) : Nat := bitsOf r.toNat 21 3
/-- See `rectLgh`. -/
def rectLgw (r : Word) : Nat := bitsOf r.toNat 18 3
/-- See `rectLgh`. -/
def rectRow0 (r : Word) : Nat := bitsOf r.toNat 13 5
/-- See `rectLgh`. -/
def rectCol0 (r : Word) : Nat := bitsOf r.toNat 0 6

/-- RECT of a rectangle (01 R21). -/
def rectOf (lgh lgw row0 col0 : Nat) : Word := w64 (lgh * 2 ^ 21 + lgw * 2 ^ 18 + row0 * 2 ^ 13 + col0)

/-- Core `c` lies in the launch rectangle of the focused thread set (08 R176). -/
def inMyRect (c : Nat) (s : State) : Bool :=
  inRect (rectRow0 s.ts.rect) (rectCol0 s.ts.rect) (rectLgh s.ts.rect) (rectLgw s.ts.rect) c

/-! ## Host interrupts and fault records (19 R375, 22 R421) -/

/-- A host interrupt of a partition: delivered while the Gwerid link is up, else held, at most 1,024 (22 R420, R421). -/
def raiseIrq (pid v : Nat) (s : State) : State :=
  match partOf pid s with
  | none => s
  | some p =>
    if s.gwerid = .up then { s with irqs := s.irqs ++ [p.rcd.vecbase + v] }
    else if p.irqHeld.length < 1024 then modPart pid (fun q => { q with irqHeld := q.irqHeld ++ [p.rcd.vecbase + v] }) s
    else s

/-- A fault record (19 R375). -/
structure FaultRec where
  kind : Nat
  code : Nat
  detail : Nat
  tsid : Nat
  lid : Nat
  addr : Word
  coord : Nat
  pc : Nat
  deriving DecidableEq, Repr

/-- The 32 bytes of a fault record (19 R375). -/
def FaultRec.bytes (r : FaultRec) (time : Nat) : List Byte :=
  leBytes 1 r.kind ++ leBytes 1 r.code ++ leBytes 1 r.detail ++ leBytes 1 (r.tsid % 8) ++ leBytes 4 r.lid ++
    leBytes 8 r.addr.toNat ++ leBytes 2 r.coord ++ leBytes 2 0 ++ leBytes 4 r.pc ++ leBytes 8 time

/-- A fault record written to a partition's fault queue, or counted in LOST when the ring is full (19 R375). -/
def writeFault (pid : Nat) (r : FaultRec) (s : State) : State :=
  match partOf pid s with
  | none => s
  | some p =>
    let base := p.rcd.faultq
    let wr := memValue s.mem 4 base
    let rd := memValue s.mem 4 (base + 4)
    if 4096 < (wr + 1 + (2 ^ 32 - rd)) % 2 ^ 32 then
      let lost := memValue s.mem 4 (base + 8)
      { s with mem := memWrite (base + 8) (leBytes 4 (Nat.min (lost + 1) (2 ^ 32 - 1))) s.mem }
    else
      let m1 := memWrite (base + 64 + 32 * (wr % 4096)) (r.bytes s.time) s.mem
      raiseIrq pid (Config.faultVector pid)
        { s with mem := memWrite base (leBytes 4 ((wr + 1) % 2 ^ 32)) m1 }

/-- A counter of the fault-queue header raised by 1, modulo 2^32 (19 R375). -/
def bumpFaultHeader (pid off : Nat) (s : State) : State :=
  match partOf pid s with
  | none => s
  | some p =>
    let k := p.rcd.faultq + off
    { s with mem := memWrite k (leBytes 4 ((memValue s.mem 4 k + 1) % 2 ^ 32)) s.mem }

/-- A launch marked for eviction with an OUTCOME; the first mark stands (19 R387). -/
def killLaunch (pid lid outcome : Nat) (s : State) : State :=
  modLaunch pid lid (fun l => if l.kill.isNone then { l with kill := some outcome } else l) s

/-! ## Taking an exception (01 R32, 19 R373, R374) -/

/-- The fetch buffer emptied (01 R27). -/
def emptyFetch (s : State) : State := { s with ts := { s.ts with fbuf := [] } }

/-- The focused thread set's issue state. -/
def setRun (r : Run) (s : State) : State := { s with ts := { s.ts with run := r } }

/-- FatalTrap (19 R373): a fault record of kind 2, the launch marked for eviction with KILLED_FATAL, and the thread set
issues nothing further. EPC, ECAUSE and EVAL keep their values. -/
def fatalTrap (code detail : Nat) (val : Word) (s : State) : State :=
  let r : FaultRec := { kind := 2, code := code, detail := detail, tsid := s.tid, lid := myLid s, addr := val,
                        coord := bitsOf s.ts.coord.toNat 0 16, pc := s.ts.pc.toNat }
  setRun .ended (killLaunch (myPid s) (myLid s) 3 (writeFault (myPid s) r s))

/-- TVEC.EN (01 R20). -/
def tvecEn (s : State) : Bool := s.ts.tvec.getLsbD 0

/-- ECAUSE of a cause (01 R19). -/
def ecauseOf (code detail : Nat) (lit : Bool) : Word := w64 (code % 256 + detail % 256 * 256 + (if lit then 65536 else 0))

/-- The handler address of a TVEC or UXVEC value: BASE << 2 (01 R20). -/
def vecTarget (v : Word) : PcWord := BitVec.ofNat 20 (bitsOf v.toNat 2 18 * 4)

/-- STATUS after trap entry: PUXEN takes UXEN, UXEN is cleared and INTRAP set (01 R32). -/
def trapStatus (w : Word) : Word := setBit (setBit (setBit w 4 (w.getLsbD 2)) 2 false) 1 true

/-- The wait for a forwarded fault ended (19 R388). -/
def dropTicket (s : State) : State :=
  match s.ts.ticket with
  | none => s
  | some n => { s with ts := { s.ts with ticket := none }, tickets := s.tickets.filter fun t => t.num != n }

/-- What a waiting instruction keeps is forgotten: the palette check that it has passed (12 R273), the condition of a TRGWAIT
(15 R325) and the word of an ENQ (15 R318). -/
def dropTaken (s : State) : State := { s with ts := { s.ts with palTaken := none, trgWait := none, enqWord := none } }

/-- TakeTrap (01 R32): taking an exception, for the instruction at the pc of the focused thread set. -/
def takeTrap (code detail : Nat) (val : Word) (lit : Bool) (s : State) : State :=
  if inTrap s ∨ tvecEn s = false then fatalTrap code detail val s
  else
    let s := dropTaken (dropTicket s)
    { s with ts := { s.ts with epc := zext64 s.ts.pc, ecause := ecauseOf code detail lit, eval := val,
                               status := trapStatus s.ts.status, fbuf := [], pc := vecTarget s.ts.tvec, run := .ready } }

/-- MELOC of the focused core takes a location (25 R466). -/
def noteMeloc (loc : Word) (s : State) : State := { s with core := { s.core with meloc := loc } }

/-- A machine error raised by an instruction of the focused thread set (19 R374): at U a record of kind 3 and eviction with
KILLED_FATAL; at F the thread set stops until its role is recovered (25 R467). MELOC takes the location (25 R466). -/
def machineError (code : Nat) (loc : Word) (s : State) : State :=
  if isF s then setRun .halted (noteMeloc loc { s with fw := { s.fw with erred := s.here :: s.fw.erred } })
  else
    let r : FaultRec := { kind := 3, code := code, detail := 0, tsid := s.tid, lid := myLid s, addr := loc,
                          coord := bitsOf s.ts.coord.toNat 0 16, pc := s.ts.pc.toNat }
    setRun .ended (killLaunch (myPid s) (myLid s) 3 (writeFault (myPid s) r (noteMeloc loc s)))

/-! ## Control transfer (01 R26) -/

/-- The first local-memory offset that a fetch may not reach (01 R26, 20 R396). -/
def fetchLimit (s : State) : Nat :=
  if isBank s then s.ts.wsize - 4096 else if isF s then 0x100000 else 0xFC000

/-- The target passes CheckTarget of R26. -/
def targetOk (t : Nat) (s : State) : Bool := decide (t < fetchLimit s) && t % 4 == 0

/-- A taken control transfer: the fetch buffer empties and the pc moves (01 R27). -/
def jumpTo (t : Nat) (s : State) : State :=
  { s with ts := { s.ts with fbuf := [], pc := BitVec.ofNat 20 t, run := .ready } }

/-- STATUS after ERET: UXEN takes PUXEN and INTRAP is cleared (01 R32). -/
def eretStatus (w : Word) : Word := setBit (setBit w 2 (w.getLsbD 4)) 1 false

/-- STATUS after UXRET: INUX is cleared and UXEN set (05 R126). -/
def uxretStatus (w : Word) : Word := setBit (setBit w 3 false) 2 true

/-- A return target: bits 1:0 cleared and every other bit kept (01 R26). -/
def returnTarget (w : Word) : Nat := w.toNat / 4 * 4

/-! ## The operands of an instruction -/

/-- A register that an operand field names. -/
inductive RegRef where
  | s (n : Reg)
  | v (n : VReg)
  deriving DecidableEq, Repr

/-- The register operands of an instruction: its length in bytes, the registers of the two fields that a last-read mark can
name (03 R69), the other registers it reads, and the register it writes. -/
structure Use where
  len : Nat
  a : Option RegRef
  b : Option RegRef
  more : List RegRef
  w : Option RegRef
  deriving DecidableEq, Repr

/-- The registers of a `Use` that are read. -/
def Use.reads (u : Use) : List RegRef := u.a.toList ++ u.b.toList ++ u.more

/-- What one instruction comes to. -/
inductive Eff where
  /-- It retires and execution goes on at the next instruction. -/
  | ok (s : State)
  /-- It retires and transfers control to a target that has been checked. -/
  | jump (s : State) (target : Nat)
  /-- It retires, and the thread set then leaves the READY state (TASKEND, HALT). The pc stays at a HALT until RESTART moves it
  on (01 R26, 05 R131). -/
  | stop (s : State) (r : Run)
  /-- It takes an exception with no other effect (01 R31). -/
  | trap (code detail : Nat) (val : Word)
  /-- It does not retire: the thread set stalls or waits, and the instruction executes again (08 R171). -/
  | hold (s : State) (r : Run)
  /-- It ends in a machine error or a fatal trap that has been taken. -/
  | final (s : State)

/-- The LIVE bit of a register (19 R378); none for s0. -/
def liveBit (r : RegRef) : Nat :=
  match r with
  | .s n => n.toNat
  | .v n => 32 + n.toNat

/-- A register write sets its LIVE bit; inside a user-level interrupt handler s24–s31 name shadows, which have no bit
(19 R378; log entry 12). -/
def hasLive (r : RegRef) (s : State) : Bool :=
  match r with
  | .s n => n != 0 && !(inUx s && decide (24 ≤ n.toNat))
  | .v _ => true

/-- A slot that is bound to a register (06 R154, R156). -/
def boundTo (r : RegRef) (k : Slot) : Bool :=
  match k.st with
  | .free => false
  | .active | .done | .faulted =>
    match r with
    | .s n => !k.vec && k.reg == n.toNat
    | .v n => k.vec && k.reg == n.toNat

/-- The number of the slot that is bound to a register. -/
def boundSlot (r : RegRef) (s : State) : Option Nat :=
  (List.range 8).find? fun i => boundTo r (vecGet s.ts.slots i)

/-- LIVE with the bit of a register set or cleared. -/
def setLive (r : Option RegRef) (on : Bool) (s : State) (w : Word) : Word :=
  match r with
  | none => w
  | some x => if hasLive x s && (boundSlot x s).isNone then setBit w (liveBit x) on else w

/-- The mark bits of the instruction at the pc: only thread sets 0–3 use the mark store, and only for segment 0 (19 R379). -/
def marksAt (s : State) : Nat :=
  if s.tid < 4 ∧ lookupD (PageSt.resident, 0) s.core.tags (s.ts.pc.toNat / 4096) = (.resident, 0) then lookupD 0 s.core.marks (s.ts.pc.toNat / 4) else 0

/-- LIVE after the instruction retires: marked sources die, a written register lives (19 R378). -/
def liveAfter (u : Use) (s : State) : Word :=
  if s.tid = 6 then s.ts.live
  else
    let m := marksAt s
    let w1 := if bitOf m 0 then setLive u.a false s s.ts.live else s.ts.live
    let w2 := if bitOf m 1 then setLive u.b false s w1 else w1
    setLive u.w true s w2

/-- Sequential execution past `n` bytes: the step traps FETCH_FAULT where it leaves the range of R26, with EPC at the last
instruction on the path, whose word decides LIT, and EVAL at the target (01 R19, R26; 02 R39; log entry 11). -/
def advance (n : Nat) (s : State) : State :=
  let t := s.ts.pc.toNat + n
  if t < fetchLimit s then { s with ts := { s.ts with pc := BitVec.ofNat 20 t } }
  else takeTrap 4 0 (w64 t) (n == 8) s

/-- The retirement of an instruction whose effects have been applied to `t`, issued in state `s`. -/
def retire (u : Use) (s t : State) : State :=
  { t with ts := { t.ts with live := liveAfter u s, run := .ready, ticket := none, palTaken := none, trgWait := none, enqWord := none } }

/-- A vector register that a matrix command has locked (15 R326). -/
def locked (u : Use) (s : State) : Bool :=
  match u.w with
  | some (.v n) => s.ts.locks.getLsbD n.toNat
  | _ => false

/-- The outcome of an instruction's effect (01 R31). -/
def finish (u : Use) (s : State) (e : Eff) : State :=
  match e with
  | .ok t => if locked u s then setRun .stalled s else advance u.len (retire u s t)
  | .jump t target => if locked u s then setRun .stalled s else jumpTo target (retire u s t)
  | .stop t r =>
    let t1 := retire u s t
    setRun r (if r = .halted then t1 else { t1 with ts := { t1.ts with pc := t1.ts.pc + BitVec.ofNat 20 u.len } })
  | .trap code detail val => takeTrap code detail val (u.len == 8) s
  | .hold t r => setRun r t
  | .final t => t

end Sys2Proof.Machine
end

