-- ==== Sys2Proof/Machine/Routes.lean ====
section
/-! DEFINITION. The routes of the mesh, and the flows that a failed link or a drain holds (22 R412, R413, R415, R417). -/
namespace Sys2Proof.Machine

/-! ## Routes (22 R412, R413, R415) -/

/-- The routers from row `r`, column `a` to column `b` of that row, the first left out. -/
def alongRow (r a b : Nat) : List Nat :=
  if a ≤ b then genList (b - a) fun i => r * 68 + a + 1 + i else genList (a - b) fun i => r * 68 + a - 1 - i

/-- The routers of column `c` from row `a` to row `b`, the first left out. -/
def alongCol (c a b : Nat) : List Nat :=
  if a ≤ b then genList (b - a) fun i => (a + 1 + i) * 68 + c else genList (a - b) fun i => (a - 1 - i) * 68 + c

/-- The dimension-order route: along the row to the destination column, then along the column (22 R415). -/
def dorRoute (x y : Nat) : List Nat := x :: alongRow (x / 68) (x % 68) (y % 68) ++ alongCol (y % 68) (x / 68) (y / 68)

/-- The directed links of a route. -/
def hopsOf : List Nat → List (Nat × Nat)
  | [] => []
  | [_] => []
  | x :: y :: l => (x, y) :: hopsOf (y :: l)

/-- Two routers are joined by a link (22 R412). -/
def adjacent (x y : Nat) : Bool :=
  (x / 68 == y / 68 && (x % 68 + 1 == y % 68 || y % 68 + 1 == x % 68)) ||
    (x % 68 == y % 68 && (x / 68 + 1 == y / 68 || y / 68 + 1 == x / 68))

/-- The link between two routers is declared failed (22 R415). -/
def linkDown (failed : List Link) (h : Nat × Nat) : Bool :=
  failed.any fun l => (l.src == h.1 && l.dst == h.2) || (l.src == h.2 && l.dst == h.1)

/-! ## Held flows (22 R415, R417) -/

/-- Flits of a flow wait at a failed link: the route that it has lies over one, and no new route has been installed (22 R415). -/
def flowStuck (f : Flow) (s : State) : Bool :=
  !s.failed.isEmpty &&
    (match s.flows.find? fun x => x.flow == f with
     | some x => !x.draining && (hopsOf x.route).any (linkDown s.failed)
     | none => (hopsOf (dorRoute f.src f.dst)).any (linkDown s.failed))

/-- The source router has stopped the flow until it has drained; `n` numbers what would be injected (22 R417). -/
def flowStopped (f : Flow) (n : Nat) (s : State) : Bool := s.flows.any fun x => x.draining && x.flow == f && decide (x.upto ≤ n)

/-- A failed link or a drain holds what would be injected into a flow under the number `n` (22 R415, R417). -/
def flowHeld (f : Flow) (n : Nat) (s : State) : Bool := flowStuck f s || flowStopped f n s

/-- A request from core `x` to core `y` cannot be made and answered now: its flow of network 0, or that of the reply, is held (22
R414, R415, R417). -/
def meshWait (x y : Nat) (s : State) : Bool :=
  !(x == y || (s.failed.isEmpty && s.flows.isEmpty)) &&
    (flowHeld { src := routerOf x s, dst := routerOf y s, vn := 0 } s.seq s ||
      flowHeld { src := routerOf y s, dst := routerOf x s, vn := 1 } s.seq s)

end Sys2Proof.Machine
end

