-- ==== Sys2Proof/Machine/Access.lean ====
section
/-! DEFINITION. Reaching memory (chapter 11): apertures, translation, protection, caches and the directory, the landing of a
write, and retired stores and atomics that are still to be performed. -/
namespace Sys2Proof.Machine

/-! ## Physical places (11 R238, R250 to R252) -/

/-- First physical address of shared memory (11 R238). -/
def paShared : Nat := 0x10000000000
/-- First physical address of host memory (11 R238). -/
def paHost : Nat := 0x100000000000
/-- First physical address above host memory (11 R238). -/
def paTop : Nat := 0x200000000000

/-- The physical address names host memory (11 R238). -/
def isHostPa (pa : Nat) : Bool := decide (paHost ≤ pa) && decide (pa < paTop)
/-- The physical address names shared memory (11 R238). -/
def isSharedPa (pa : Nat) : Bool := decide (paShared ≤ pa) && decide (pa < paShared + 0x40000000)
/-- The physical address names HBM (11 R238). -/
def isHbmPa (pa : Nat) : Bool := decide (pa < paShared)

/-- The shared size of a partition in bytes (11 R251). -/
def sharedSize (p : PartRec) : Nat := p.cores.length * p.g * 65536

/-- The memory key of a physical address of a partition: shared memory lies in the home slices (11 R251). -/
def physKey (p : PartRec) (pa : Nat) : Nat :=
  if isSharedPa pa then
    let off := pa - paShared
    let j := off / 64
    let n := p.cores.length
    sliceKey (nth 0 p.cores (j % n)) (j / n * 64 + off % 64)
  else pa

/-- The bytes of a save frame (19 R381). -/
def frameSize : Nat := 1146880

/-- The memory key of byte `off` of frame `i` of a partition's save pool (19 R381). -/
def frameKey (p : PartRec) (i off : Nat) : Nat := physKey p (p.pool + i * frameSize + off)

/-- The home core of a physical address (11 R251, R252). -/
def homeCore (p : PartRec) (pa : Nat) : Nat :=
  let n := p.cores.length
  if isSharedPa pa then nth 0 p.cores ((pa - paShared) / 64 % n)
  else nth 0 p.cores ((bitsOf pa 6 16 ^^^ bitsOf pa 22 16 ^^^ bitsOf pa 38 10) % n)

/-- The physical address lies in an HBM range of the partition (11 R238, 20 R389). -/
def inHbm (p : PartRec) (pa : Nat) : Bool :=
  isHbmPa pa && p.hbm.any fun r => decide (r.1 ≤ pa) && decide (pa < r.1 + r.2)

/-- R238 lets an entry of the partition name the physical address. -/
def placeOk (p : PartRec) (pa : Nat) : Bool :=
  inHbm p pa || isHostPa pa || (isSharedPa pa && decide (pa - paShared < sharedSize p))

/-! ## Caches and the directory (11 R253 to R255) -/

/-- The contention counter that a line selects (11 R255). -/
def predIndex (pa : Nat) : Nat := bitsOf pa 6 8 ^^^ bitsOf pa 14 8

/-- The number of the line of a physical address in the directories and caches of a partition: a shared line is each
partition's own (11 R251). -/
def dirLine (pid pa : Nat) : Nat := pa / 64 + pid * 2 ^ 48

/-- The physical address of a numbered line. -/
def linePa (line : Nat) : Nat := line % 2 ^ 48 * 64

/-- The memory key of a numbered line of a partition. -/
def lineKey (line : Nat) (s : State) : Nat :=
  match partOf (line / 2 ^ 48) s with
  | some p => physKey p.rcd (linePa line)
  | none => linePa line

/-- A single error of a line lies in the L1 of core `c`, at a word (11 R258). -/
def softIn (line c : Nat) (s : State) (x : Nat × Nat) : Bool := x.1 == c && x.2 / 8 == lineKey line s / 64

/-- A line of a core's L1, dropped. -/
def dropL1 (line c : Nat) (s : State) : State :=
  modCore c (fun k => { k with l1 := k.l1.filter (fun x => x.1 != line), amoLines := k.amoLines.filter fun x => x != line })
    { s with l1soft := s.l1soft.filter fun x => !softIn line c s x }

/-- A line taken away from a core's L1 by another; where the core's last atomic was performed on it there, the contention
counter rises (11 R255). -/
def takeL1 (line c : Nat) (s : State) : State :=
  modCore c (fun k =>
    let k1 := { k with l1 := k.l1.filter fun x => x.1 != line }
    if k.amoLines.contains line then
      let i := predIndex (linePa line)
      { k1 with amoLines := k1.amoLines.filter fun x => x != line,
                pred := insertKey i (Nat.min 3 (lookupD 0 k1.pred i + 1)) k1.pred }
    else k1) { s with l1soft := s.l1soft.filter fun x => !softIn line c s x }

/-- One more correction of structure `i` of a core, saturating: 0 local memory, 1 home slice, 2 L1, 3 HBM (11 R258). -/
def countAt (i c : Nat) (s : State) : State :=
  modCore c (fun x => { x with corr := insertKey i (Nat.min 65535 (lookupD 0 x.corr i + 1)) x.corr }) s

/-- A line of a core's L1, present with a dirty bit. -/
def putL1 (line c : Nat) (dirty : Bool) (s : State) : State :=
  modCore c (fun k => { k with l1 := (line, dirty) :: k.l1.filter fun x => x.1 != line }) s

/-! ## The L2-mode granules (11 R252, R254, R256) -/

/-- The sets of the L2-mode granules of a slice of a partition: 8 ways of 64 bytes (11 R252). -/
def l2Sets (p : PartRec) : Nat := (8 - p.g) * 128

/-- The set of a line. -/
def l2SetOf (p : PartRec) (line : Nat) : Nat := Config.l2Index line % l2Sets p

/-- The granules of its home slice hold a line. -/
def l2Has (line : Nat) (s : State) : Bool := s.l2.any fun x => x.line == line && !x.rsv

/-- A word of the line has more than one live version: its home slice holds the line (11 R256). -/
def verPinned (line : Nat) (s : State) : Bool :=
  s.versions.any fun v => v.pa / 64 == line % 2 ^ 48 && decide (1 < v.live.length)

/-- The directory entry of a line (11 R254). -/
def dirOf (line : Nat) (s : State) : Option DirSt := (s.dir.find? fun x => x.1 == line).map fun x => x.2

/-- An L1 owns the line. -/
def isOwned (line : Nat) (s : State) : Bool :=
  match dirOf line s with
  | some (.owned _) => true
  | some (.sharers _) | some (.overflow _) | some .broadcast | none => false

/-- What is written of a line cannot reach the host: it is host memory's and the link is down (22 R421). -/
def hostAway (line : Nat) (s : State) : Bool := isHostPa (linePa line) && s.gwerid == .down

/-- The line may be evicted; one that an L1 owns stays, and a dirty host line while the link is down (22 R421; log entry 24). -/
def l2Evictable (s : State) (x : L2Line) : Bool :=
  !x.rsv && !verPinned x.line s && !isOwned x.line s && !(x.dirty && hostAway x.line s)

/-- A line has been written back to HBM or the host. -/
def wroteBack (line : Nat) (s : State) : State := { s with hostOld := s.hostOld.filter fun x => x.1 != line }

/-- A line of host memory is written for the first time since its last write-back: what the host holds is noted (22 R421). -/
def noteHost (line : Nat) (s : State) : State :=
  if isHostPa (linePa line) && !(s.hostOld.any fun x => x.1 == line) then
    { s with hostOld := (line, memRead s.mem 64 (linePa line)) :: s.hostOld }
  else s

/-- A way freed in a set of a home slice, if there is one: a slice with fewer than eight lines has no full set. -/
def l2Room (home set : Nat) (s : State) : Option State :=
  let here := s.l2.filter fun x => x.home == home
  if here.length < 8 then some s
  else
    let ways := here.filter fun x => x.set == set
    if ways.length < 8 then some s
    else
      let vs := ways.filter (l2Evictable s)
      match nth? vs ((Config.freeWord s.free).toNat % vs.length) with
      | none => none
      | some v => some (tickFree (wroteBack v.line { s with l2 := s.l2.erase v }))

/-- A line put into a set of a home slice, where there is room. -/
def l2Add (home set line : Nat) (dirty rsv : Bool) (s : State) : Option State :=
  (l2Room home set s).map fun t => { t with l2 := { home := home, set := set, line := line, dirty := dirty, rsv := rsv, bad := [], soft := [] } :: t.l2 }

/-- A cacheable line comes to its home slice, whose L2-mode granules hold it where they have room; dirty data that finds none goes
on to HBM or the host. A partition with G = 8 caches no line there, nor is a shared line cached again (11 R252). -/
def l2Put (p : PartRec) (line : Nat) (dirty : Bool) (s : State) : State :=
  let on : Option State :=
    if 8 ≤ p.g || isSharedPa (linePa line) then none
    else if l2Has line s then
      some { s with l2 := s.l2.map fun x => if x.line == line && !x.rsv then { x with dirty := x.dirty || dirty } else x }
    else l2Add (homeCore p (linePa line)) (l2SetOf p line) line dirty false s
  on.getD (if dirty && !hostAway line s then wroteBack line s else s)

/-- The slice can hold the line (11 R252, R256, R257). -/
def l2Can (p : PartRec) (line : Nat) (s : State) : Bool :=
  decide (p.g < 8) && !isSharedPa (linePa line) && (l2Has line s || (l2Room (homeCore p (linePa line)) (l2SetOf p line) s).isSome)

/-- The numbers of the lines that a directory record of a line occupies: 256 bytes (11 R254). -/
def recordLines (line : Nat) : List Nat := (List.range 4).map fun i => (2 ^ 58 + line) * 4 + i

/-- An overflow record allocated in the L2-mode granules (11 R254). -/
def l2Reserve (p : PartRec) (line : Nat) (s : State) : Option State :=
  (recordLines line).foldl (fun o r => o.bind fun t => l2Add (homeCore p (linePa line)) (l2SetOf p r) r false true t) (some s)

/-- The overflow record of a line freed. -/
def l2Unreserve (line : Nat) (s : State) : State := { s with l2 := s.l2.filter fun x => !(x.rsv && x.line / 4 == 2 ^ 58 + line) }

/-! ## The directory (11 R253 to R255) -/

/-- The directory entry of a line set; the record of an OVERFLOW entry lasts as long as it does. -/
def setDir (line : Nat) (d : Option DirSt) (s : State) : State :=
  match d with
  | some (.overflow cs) => { s with dir := insertKey line (.overflow cs) s.dir }
  | some x => { l2Unreserve line s with dir := insertKey line x s.dir }
  | none => { l2Unreserve line s with dir := s.dir.filter fun x => x.1 != line }

/-- The overflow records that the slice of a home core holds (11 R254). -/
def overflowsAt (p : PartRec) (home : Nat) (s : State) : Nat :=
  (s.dir.filter fun x =>
    match x.2 with
    | .overflow _ => x.1 / 2 ^ 48 == p.pid && homeCore p (linePa x.1) == home
    | .owned _ | .sharers _ | .broadcast => false).length

/-- A core's L1 holds a line. -/
def l1Has (line c : Nat) (s : State) : Bool := (getCore c s).l1.any fun x => x.1 == line

/-- A core's L1 holds a line dirty. -/
def l1Dirty (line c : Nat) (s : State) : Bool := (getCore c s).l1.any fun x => x.1 == line && x.2

/-- A write-back to host memory over a down link is lost: the host's bytes stand (22 R421). -/
def hostLoses (line : Nat) (s : State) : State :=
  match s.hostOld.find? fun x => x.1 == line with
  | some x => wroteBack line { s with mem := memWrite (linePa line) x.2 s.mem }
  | none => s

/-- A dirty line that leaves an L1 would have to go to the host over a down link: its home slice cannot hold it (22 R421). -/
def backLost (p : PartRec) (line : Nat) (s : State) : Bool := hostAway line s && !l2Can p line s

/-- A write-back that the link loses is STORE_LOST at its physical address, and evicts the launch of the core whose L1 it left (22
R421; 19 R374; log entry 49). -/
def lostBack (p : PartRec) (line c : Nat) (s : State) : State :=
  let owner := (getCore c s).owner
  let r : FaultRec := { kind := 3, code := 0x84, detail := 0, tsid := 0, lid := (owner.map fun o => o.2).getD 0,
                        addr := w64 (linePa line), coord := coordOf c, pc := 0 }
  let t := writeFault p.pid r (modCore c (fun k => { k with meloc := w64 (linePa line) }) (hostLoses line s))
  match owner with
  | some o => killLaunch o.1 o.2 3 t
  | none => t

/-- A line of the L2-mode granules that a write-back rewrites whole has no error left (11 R258). -/
def l2Fresh (line : Nat) (s : State) : State :=
  if s.l2.any fun x => x.line == line && !(x.bad.isEmpty && x.soft.isEmpty) then
    { s with l2 := s.l2.map fun x => if x.line == line then { x with bad := [], soft := [] } else x }
  else s

/-- The line of core `c`'s L1, where it is dirty, written back to its home slice (11 R253), its single errors corrected on the way
(11 R258). -/
def l1WriteBack (p : PartRec) (line c : Nat) (s : State) : State :=
  if l1Dirty line c s then
    let t := (s.l1soft.filter (softIn line c s)).foldl (fun s _ => countAt 2 c s)
      { s with l1soft := s.l1soft.filter fun x => !softIn line c s x }
    if backLost p line t then lostBack p line c t else l2Put p line true (l2Fresh line t)
  else s

/-- A core drops a line from its L1, a dirty one being written back (11 R253, 13 R285). -/
def l1Leave (p : PartRec) (line c : Nat) (s : State) : State :=
  let t := dropL1 line c (l1WriteBack p line c s)
  match dirOf line t with
  | none => t
  | some (.owned o) => if o = c then setDir line none t else t
  | some (.sharers cs) =>
    let r := cs.filter fun o => o != c
    setDir line (if r.isEmpty then none else some (.sharers r)) t
  | some (.overflow cs) =>
    let r := cs.filter fun o => o != c
    setDir line (if r.isEmpty then none else some (.overflow r)) t
  | some .broadcast => t

/-- A place for one more line in a core's L1, of 64 KiB (00 R2); a dirty host line stays while the link is down (log entry 24). -/
def l1Room (p : PartRec) (c : Nat) (s : State) : State :=
  let l := (getCore c s).l1
  if l.length < 1024 then s
  else
    let vs := l.filter fun x => !(x.2 && hostAway x.1 s)
    match nth? vs ((Config.freeWord s.free).toNat % vs.length) with
    | some x => l1Leave p x.1 c (tickFree s)
    | none => s

/-- A line comes to a core's L1 as a read, with a directory entry. -/
def l1Take (p : PartRec) (line c : Nat) (d : DirSt) (s : State) : State := putL1 line c false (setDir line (some d) (l1Room p c s))

/-- The directory entry of a line with 4 sharers that a fifth L1 reads: the overflow handler allocates a record, or finds none
(11 R254; log entry 24). -/
def l1Fifth (p : PartRec) (line c : Nat) (cs : List Nat) (s : State) : State :=
  if p.g < 8 ∧ overflowsAt p (homeCore p (linePa line)) s < 64 then
    match l2Reserve p line s with
    | some t => l1Take p line c (.overflow (cs ++ [c])) t
    | none => l1Take p line c .broadcast s
  else l1Take p line c .broadcast s

/-- A read of a line by an L1 (11 R252 to R254). -/
def l1Read (p : PartRec) (pa c : Nat) (s : State) : State :=
  let line := dirLine p.pid pa
  match dirOf line s with
  | none => l1Take p line c (.sharers [c]) (l2Put p line false s)
  | some (.owned o) =>
    if o = c then s
    else l1Take p line c (.sharers [o, c]) (putL1 line o false (l1WriteBack p line o s))
  | some (.sharers cs) =>
    if cs.contains c then s
    else if cs.length < 4 then l1Take p line c (.sharers (cs ++ [c])) s
    else l1Fifth p line c cs s
  | some (.overflow cs) =>
    if cs.contains c then s else l1Take p line c (.overflow (cs ++ [c])) s
  | some .broadcast => if l1Has line c s then s else l1Take p line c .broadcast s

/-- Every L1 of the partition that may hold a line, as its directory entry has it (11 R254). -/
def dirHolders (p : PartRec) (line : Nat) (s : State) : List Nat :=
  match dirOf line s with
  | none => []
  | some (.owned o) => [o]
  | some (.sharers cs) => cs
  | some (.overflow cs) => cs
  | some .broadcast => p.cores

/-- A copy of a line taken from a core for an operation of core `by_`, which counts where that is another core (11 R255). -/
def l1Lose (p : PartRec) (line : Nat) (by_ : Option Nat) (s : State) (o : Nat) : State :=
  let t := l1WriteBack p line o s
  if by_ = some o then dropL1 line o t else takeL1 line o t

/-- An ownership request: every other copy is invalidated, and the line becomes OWNED, to be written; one that no L1 holds comes
through its home slice (11 R252, R254). -/
def l1Own (p : PartRec) (pa c : Nat) (s : State) : State :=
  let line := dirLine p.pid pa
  let t := ((dirHolders p line s).filter fun o => o != c).foldl (l1Lose p line (some c)) s
  let u := if l1Has line c t then t else l1Room p c (if (dirOf line s).isNone then l2Put p line false t else t)
  noteHost line (putL1 line c true (setDir line (some (.owned c)) u))

/-- Every L1 copy of a line recalled to its home slice, for a bank operation of a core or for another agent (13 R295); a BROADCAST
entry stays one (11 R254). -/
def l1Recall (p : PartRec) (pa : Nat) (by_ : Option Nat) (s : State) : State :=
  let line := dirLine p.pid pa
  setDir line (if dirOf line s = some .broadcast then some .broadcast else none) ((dirHolders p line s).foldl (l1Lose p line by_) s)

/-- A cacheable line read or written at its home slice: no L1 keeps it, and the L2-mode granules hold it (11 R252, 13 R295). -/
def homeUse (p : PartRec) (pa : Nat) (by_ : Option Nat) (write : Bool) (s : State) : State :=
  let line := dirLine p.pid pa
  let t := l1Recall p pa by_ s
  l2Put p line write (if write then noteHost line t else t)

/-- The contention counter of a core and line moved (11 R255). -/
def bumpPred (pa c : Nat) (up : Bool) (s : State) : State :=
  modCore c (fun k =>
    let n := lookupD 0 k.pred (predIndex pa)
    { k with pred := insertKey (predIndex pa) (if up then Nat.min 3 (n + 1) else n - 1) k.pred }) s

/-! ## Errors in memory (01 R24, 11 R258) -/

/-- The key lies in a local memory. -/
def isLmKey (k : Nat) : Bool := decide (2 ^ 48 ≤ k) && decide (k < 2 ^ 49)
/-- The key lies in a home slice. -/
def isSliceKey (k : Nat) : Bool := decide (2 ^ 49 ≤ k) && decide (k < 2 ^ 50)
/-- The core whose local memory holds a key. -/
def lmCore (k : Nat) : Nat := (k - 2 ^ 48) / 2 ^ 20
/-- The local-memory offset of a key. -/
def lmOff (k : Nat) : Nat := (k - 2 ^ 48) % 2 ^ 20

/-- The 64-bit word `w` holds one of the `n` bytes at a key. -/
def wordMeets (k n w : Nat) : Bool := decide (w * 8 < k + n) && decide (k < w * 8 + 8)

/-- A cache of the device holds the line of a host address: an access to it does not cross the link (11 R252, R253). -/
def hostCached (k : Nat) (s : State) : Bool :=
  (s.dir.any fun x => x.1 % 2 ^ 48 == k / 64) || s.l2.any fun x => x.line % 2 ^ 48 == k / 64 && !x.rsv

/-- The location of a word of a home slice as a machine error gives it: core, granule and offset (11 R258, 19 R374). -/
def sliceLoc (k : Nat) : Word :=
  let o := k - 2 ^ 49
  w64 (o / 2 ^ 19 * 2 ^ 48 + o % 2 ^ 19 / 65536 * 65536 + o % 65536)

/-- Those of the words `ws` of a line of the L2-mode granules that hold one of the `n` bytes at a key. -/
def L2Line.meet (k n : Nat) (ws : List Nat) (x : L2Line) : List Nat :=
  if x.rsv then [] else ws.filter fun w => wordMeets k n (x.line % 2 ^ 48 * 8 + w)

/-- The place of a word of a line in the L2-mode granules of its home slice, as a machine error gives it (19 R374; log entry 24). -/
def l2Loc (x : L2Line) (w : Nat) (s : State) : Word :=
  let g := match partOf (x.line / 2 ^ 48) s with
    | some p => p.rcd.g
    | none => 0
  sliceLoc (sliceKey x.home (g * 65536 + Config.l2Place x.line % ((8 - g) * 1024) * 64 + 8 * w))

/-- The first uncorrectable word that a read of `n` bytes at a key meets in the L2-mode granules; what an L1 owns is not read there
(11 R258). -/
def l2Bad (k n : Nat) (s : State) : Option (L2Line × Nat) :=
  (s.l2.filter fun x => !isOwned x.line s).findSome? fun x => ((x.meet k n x.bad).head?).map fun w => (x, w)

/-- The machine error of reading `n` bytes at a key, with its location (11 R258, 19 R374); a down Gwerid link poisons host memory
that no cache holds (22 R421). -/
def readError (k n : Nat) (s : State) : Option (Nat × Word) :=
  if s.l1bad.any fun x => wordMeets k n x.1 then (s.l1bad.find? fun x => wordMeets k n x.1).map fun x => (0x82, w64 x.2)
  else if isLmKey k then
    if s.bad.any fun w => wordMeets k n w then some (0x80, w64 (lmOff k)) else none
  else if isSliceKey k then
    if s.bad.any fun w => wordMeets k n w then some (0x81, sliceLoc k) else none
  else if (l2Bad k n s).isSome then (l2Bad k n s).map fun x => (0x81, l2Loc x.1 x.2 s)
  else if s.poison.any fun l => decide (l * 64 < k + n) && decide (k < l * 64 + 64) then some (0x83, w64 k)
  else if isHostPa k && s.gwerid == .down && !hostCached k s then some (0x83, w64 k)
  else none

/-- A store of `n` bytes at a key is lost: a partial store into an uncorrectable word, or a store into a poisoned line that
does not cover it (01 R24, 11 R258, 13 R283), or one to host memory over a down link (22 R421). -/
def storeLost (k n : Nat) (s : State) : Bool :=
  if decide (n < 8) && s.l1bad.any fun x => wordMeets k n x.1 then true
  else if isLmKey k || isSliceKey k then decide (n < 8) && s.bad.any fun w => wordMeets k n w
  else
    (s.poison.any fun l => decide (l * 64 < k + n) && decide (k < l * 64 + 64) && !(decide (k ≤ l * 64) && decide (l * 64 + 64 ≤ k + n)))
      || decide (n < 8) && (l2Bad k n s).isSome || (isHostPa k && s.gwerid == .down && !hostCached k s)

/-- A correction at a key counted: in HBM at the home core of the address (11 R258; log entry 24). -/
def countCorrection (k : Nat) (s : State) : State :=
  if isLmKey k then countAt 0 (lmCore k) s
  else if isSliceKey k then countAt 1 ((k - 2 ^ 49) / 2 ^ 19) s
  else
    match s.parts.find? fun p => inHbm p.rcd k with
    | some p => countAt 3 (homeCore p.rcd k) s
    | none => countAt 3 (Config.hbmCore k) s

/-- A single error of a word that the L1 of a core holds: in a dirty line it is corrected and counted, and a clean line is dropped
and fetched again, which no counter takes (11 R258; log entry 24). -/
def correctL1 (s : State) (x : Nat × Nat) : State :=
  match (getCore x.1 s).l1.find? fun y => lineKey y.1 s / 64 == x.2 / 8 with
  | none => s
  | some y =>
    if y.2 then countAt 2 x.1 s
    else
      match partOf (y.1 / 2 ^ 48) s with
      | some p => l1Leave p.rcd y.1 x.1 s
      | none => s

/-- A read meets a single error in the L1 of a core: its own L1's, or that of a dirty line, which it takes from there (11 R253,
R258). -/
def meetsSoft (rd : Option Nat) (k n : Nat) (s : State) (x : Nat × Nat) : Bool :=
  wordMeets k n x.2 && (rd == some x.1 || (getCore x.1 s).l1.any fun y => y.2 && lineKey y.1 s / 64 == x.2 / 8)

/-- The single errors that a read meets in the L2-mode granules, corrected and counted, each word once (11 R258). -/
def correctL2 (k n : Nat) (s : State) : State :=
  if s.l2.any fun x => !(x.meet k n x.soft).isEmpty then
    (s.l2.filter fun x => !(x.meet k n x.soft).isEmpty).foldl (fun s x => (x.meet k n x.soft).foldl (fun s _ => countAt 1 x.home s) s)
      { s with l2 := s.l2.map fun x => { x with soft := x.soft.filter fun w => !(x.meet k n x.soft).contains w } }
  else s

/-- A read, through the L1 of core `rd` where it is one, corrects the single-bit error of each of the words it covers and counts it (01
R24, 11 R258). -/
def correctBy (rd : Option Nat) (k n : Nat) (s : State) : State :=
  let s1 := if s.l1soft.any (meetsSoft rd k n s) then
      (s.l1soft.filter (meetsSoft rd k n s)).foldl correctL1 { s with l1soft := s.l1soft.filter fun x => !meetsSoft rd k n s x }
    else s
  let s2 := if s1.soft.any fun w => wordMeets k n w then
      (s1.soft.filter fun w => wordMeets k n w).foldl (fun s w => countCorrection (w * 8) s)
        { s1 with soft := s1.soft.filter fun w => !wordMeets k n w }
    else s1
  correctL2 k n s2

/-- A read that no L1 serves corrects the errors of the words it covers (01 R24, 11 R258). -/
def correct (k n : Nat) (s : State) : State := correctBy none k n s

/-! ## Page tables (11 R239 to R241) -/

/-- Entry bit V. -/
def pteV (e : Nat) : Bool := bitOf e 0
/-- Entry bit LEAF. -/
def pteLeaf (e : Nat) : Bool := bitOf e 1
/-- Entry bit W. -/
def pteW (e : Nat) : Bool := bitOf e 54
/-- Entry bit C. -/
def pteC (e : Nat) : Bool := bitOf e 55
/-- Entry bit VER. -/
def pteVer (e : Nat) : Bool := bitOf e 56
/-- Entry bit PIN. -/
def ptePin (e : Nat) : Bool := bitOf e 57
/-- Entry bit HB. -/
def pteHb (e : Nat) : Bool := bitOf e 58
/-- Entry bit NX. -/
def pteNx (e : Nat) : Bool := bitOf e 63
/-- PPN as a physical address. -/
def ptePa (e : Nat) : Nat := bitsOf e 13 35 * 8192

/-- A reserved field of the entry is nonzero (11 R240). -/
def pteReserved (e : Nat) : Bool :=
  bitsOf e 59 4 != 0 || bitsOf e 48 6 != 0 || bitsOf e 2 11 != 0 ||
    (!pteLeaf e && (pteNx e || bitsOf e 54 4 != 0))

/-- RangeOk for a leaf: R238, PIN needs HBM, VER needs cacheable HBM and G < 8 (11 R241, R256). -/
def leafOk (p : PartRec) (pa e : Nat) : Bool :=
  placeOk p pa && (!ptePin e || inHbm p pa) && (!pteVer e || (inHbm p pa && pteC e && decide (p.g < 8)))

/-- The result of a walk: the physical address with its leaf and level, or a TRANSLATION fault with its level and whether an
HB bit was met (11 R241), or a machine error in a table with its code and location (11 R258, 19 R374). -/
inductive Walk where
  | ok (pa lvl e : Nat)
  | tfault (lvl : Nat) (hb : Bool)
  | merr (code : Nat) (loc : Word)
  deriving DecidableEq, Repr

/-- The machine error that a walk meets in the table entry at a physical address (11 R258; 22 R421). -/
def tableError (p : PartRec) (a : Nat) (s : State) : Option (Nat × Word) := readError (physKey p a) 8 s

/-- The physical address a leaf gives for a virtual address (11 R241). -/
def leafPa (e va lvl : Nat) : Nat :=
  let sz := 13 + 10 * lvl
  ptePa e / 2 ^ sz * 2 ^ sz + va % 2 ^ sz

/-- A walk from the table at `t`, over the levels still to visit (11 R241). -/
def walkFrom (p : PartRec) (va : Nat) (s : State) : List Nat → Nat → Bool → Walk
  | [], _, hb => .tfault 0 hb
  | lvl :: lvls, t, hb =>
    let a := t + 8 * bitsOf va (13 + 10 * lvl) 10
    match tableError p a s with
    | some e => .merr e.1 e.2
    | none =>
      let e := memValue s.mem 8 (physKey p a)
      let hb := hb || pteHb e
      if !pteV e || pteReserved e then .tfault lvl hb
      else if pteLeaf e then
        if lvl = 3 ∨ ptePa e % 2 ^ (13 + 10 * lvl) ≠ 0 ∨ leafOk p (leafPa e va lvl) e = false then .tfault lvl hb
        else .ok (leafPa e va lvl) lvl e
      else if lvl = 0 then .tfault 0 hb
      else if placeOk p (ptePa e) then walkFrom p va s lvls (ptePa e) hb
      else .tfault lvl hb

/-- Walk (11 R241). -/
def walk (p : PartRec) (va : Nat) (s : State) : Walk := walkFrom p va s [3, 2, 1, 0] p.root false

/-! ## Translation caches (11 R242 to R244) -/

/-- A cached translation is for a virtual address of a partition. -/
def TlbEnt.covers (t : TlbEnt) (pid va : Nat) : Bool := t.pid == pid && t.vpn == va / 2 ^ (13 + 10 * t.lvl)

/-- The TLBs that serve a core's own accesses: its L1 TLB and its quad's L2 TLB; another requester has none (11 R242; log entry
24). -/
def TlbAt.serves (rq : Option Nat) : TlbAt → Bool
  | .l1 c => rq == some c
  | .l2 q => (rq.map fun c => quadCore c 0) == some q
  | .walker _ _ => false

/-- The die whose walkers serve a requester. -/
def walkDie (rq : Option Nat) (s : State) : Nat := dieOf (rq.getD s.here) s

/-- The leaves that the TLBs of a requester hold for an address. -/
def tlbLeaves (rq : Option Nat) (pid va : Nat) (s : State) : List TlbEnt :=
  s.tlb.filter fun t => t.place.serves rq && t.covers pid va && !t.bad

/-- The non-leaf entries that the walkers of a die hold for an address. -/
def tlbPointers (die pid va : Nat) (s : State) : List TlbEnt :=
  s.tlb.filter fun t => t.covers pid va && !t.bad && (match t.place with
    | .walker d _ => d == die
    | .l1 _ | .l2 _ => false)

/-- The levels below one. -/
def levelsBelow (lvl : Nat) : List Nat := [3, 2, 1, 0].filter fun l => decide (l < lvl)

/-- What a cached translation gives for an address: its leaf, or the walk that goes on from a walker's entry (11 R242). -/
def TlbEnt.gives (t : TlbEnt) (p : PartRec) (va : Nat) (s : State) : Walk :=
  let e := t.entry.toNat
  if pteLeaf e then .ok (leafPa e va t.lvl) t.lvl e else walkFrom p va s (levelsBelow t.lvl) (ptePa e) t.hb

/-- The translation that an access uses where old ones are allowed beside the table's: free bits decide (11 R244). -/
def pickWalk : List Walk → Walk → State → Walk × State
  | [], w, s => (w, s)
  | o :: os, w, s =>
    if o = w then pickWalk os w s
    else if Config.freeBit s.free then (o, tickFree s) else pickWalk os w (tickFree s)

/-- A list with the element at a free place taken out, where it has as many as a structure holds. -/
def makeRoom {α : Type} (cap : Nat) (l : List α) (s : State) : List α × State :=
  if l.length < cap then (l, s) else (dropNth l ((Config.freeWord s.free).toNat % l.length), tickFree s)

/-- A leaf put into the L1 TLB of a core, which holds 64 (11 R242). -/
def fillL1Tlb (c : Nat) (t : TlbEnt) (s : State) : State :=
  let mine (x : TlbEnt) : Bool := x.place == .l1 c
  let r := makeRoom 64 (s.tlb.filter mine) s
  { r.2 with tlb := { t with place := .l1 c } :: r.1 ++ s.tlb.filter fun x => !mine x }

/-- The entries of one set of a quad's L2 TLB; a quad with fewer than eight has none full (11 R242). -/
def l2TlbSet (q : Nat) (t x : TlbEnt) (few : Bool) : Bool :=
  x.place == .l2 q && !few && Config.tlbIndex x.vpn x.lvl % 256 == Config.tlbIndex t.vpn t.lvl % 256

/-- A leaf put into the L2 TLB of a quad, 256 sets of 8 ways, where entries with PIN = 1 are replaced last (11 R242). -/
def fillL2Tlb (q : Nat) (t : TlbEnt) (s : State) : State :=
  let few := decide ((s.tlb.filter fun x => x.place == .l2 q).length < 8)
  let inSet (x : TlbEnt) : Bool := l2TlbSet q t x few
  let ways := s.tlb.filter inSet
  let pins := ways.filter fun x => ptePin x.entry.toNat
  let rest := ways.filter fun x => !ptePin x.entry.toNat
  let r := if rest.isEmpty then makeRoom 8 pins s else makeRoom (8 - pins.length) rest s
  { r.2 with tlb := { t with place := .l2 q } :: r.1 ++ (if rest.isEmpty then [] else pins) ++ s.tlb.filter fun x => !inSet x }

/-- A table entry that a walk has read: its level, its physical address, its value, and whether it or one above it has HB = 1 (11 R241). -/
structure WalkStep where
  lvl : Nat
  addr : Nat
  entry : Nat
  hb : Bool
  deriving DecidableEq, Repr

/-- The entry sends the walk on to a table (11 R241). -/
def WalkStep.pointer (p : PartRec) (x : WalkStep) : Bool :=
  pteV x.entry && !pteReserved x.entry && !pteLeaf x.entry && x.lvl != 0 && placeOk p (ptePa x.entry)

/-- The entries that a walk reads, first the root's, up to the one that it ends with (11 R241). -/
def walkSteps (p : PartRec) (va : Nat) (s : State) : List Nat → Nat → Bool → List WalkStep
  | [], _, _ => []
  | lvl :: lvls, t, hb =>
    let a := t + 8 * bitsOf va (13 + 10 * lvl) 10
    if (tableError p a s).isSome then []
    else
      let e := memValue s.mem 8 (physKey p a)
      let x : WalkStep := { lvl := lvl, addr := a, entry := e, hb := hb || pteHb e }
      if x.pointer p then x :: walkSteps p va s lvls (ptePa e) x.hb else [x]

/-- The number of a walker's walk; the 64 walkers of a die hold the entries of its last 64 walks (11 R242). -/
def TlbEnt.walkNo (die : Nat) (t : TlbEnt) : Nat :=
  match t.place with
  | .walker d n => if d = die then n + 1 else 0
  | .l1 _ | .l2 _ => 0

/-- The physical address of the table entry at which a walk ends (11 R241). -/
def walkEnd (p : PartRec) (va : Nat) (s : State) : Nat :=
  match (walkSteps p va s [3, 2, 1, 0] p.root false).getLast? with
  | none => p.root + 8 * bitsOf va 43 10
  | some x => if x.pointer p then ptePa x.entry + 8 * bitsOf va (3 + 10 * x.lvl) 10 else x.addr

/-- A walk of a die, one that ends in a fault too, leaves its non-leaf entries in the walker that made it, over those of that walker's
last walk, and corrects the single errors of what it reads (11 R242, R258). -/
def fillWalker (die pid : Nat) (p : PartRec) (va : Nat) (s : State) : State :=
  let n := s.tlb.foldl (fun m t => Nat.max m (t.walkNo die)) 0
  let xs := walkSteps p va s [3, 2, 1, 0] p.root false
  let new := (xs.filter fun x => x.pointer p).map fun x =>
    { place := .walker die n, bad := false, pid := pid, vpn := va / 2 ^ (13 + 10 * x.lvl), lvl := x.lvl, hb := x.hb,
      entry := w64 x.entry : TlbEnt }
  let t := xs.foldl (fun s x => correct (physKey p x.addr) 8 s) s
  { t with tlb := t.tlb.filter (fun t => t.walkNo die == 0 || decide (n < t.walkNo die + 63)) ++ new }

/-- A translation that was used enters the TLBs of its requester that lack it, and the walker that walked (11 R242). -/
def fillTlbs (rq : Option Nat) (pid : Nat) (p : PartRec) (va lvl e : Nat) (s : State) : State :=
  let t : TlbEnt := { place := .walker 0 0, bad := false, pid := pid, vpn := va / 2 ^ (13 + 10 * lvl), lvl := lvl, hb := false, entry := w64 e }
  let has (a : TlbAt) : Bool := s.tlb.any fun x => x.place == a && x.covers pid va && !x.bad
  match rq with
  | none => fillWalker (walkDie rq s) pid p va s
  | some c =>
    let q := quadCore c 0
    let s1 := if has (.l1 c) then s else fillL1Tlb c t s
    let s2 := if has (.l2 q) then s1 else fillL2Tlb q t s1
    if has (.l1 c) || has (.l2 q) then s2 else fillWalker (walkDie rq s) pid p va s2

/-- Cached translations for an address that have a parity error are dropped (11 R258). -/
def dropBadTlb (pid va : Nat) (s : State) : State :=
  if s.tlb.any fun t => t.covers pid va && t.bad then { s with tlb := s.tlb.filter fun t => !(t.covers pid va && t.bad) } else s

/-- What translation gives a requester: where software changed a valid entry without an invalidation, an access may use an old
translation that a TLB or a walker holds, or the new table (11 R244). -/
def translate (rq : Option Nat) (pid : Nat) (p : PartRec) (va : Nat) (s0 : State) : Walk × State :=
  let s := dropBadTlb pid va s0
  let olds := (tlbLeaves rq pid va s ++ tlbPointers (walkDie rq s) pid va s).map fun t => t.gives p va s
  let r := pickWalk olds (walk p va s) s
  match r.1 with
  | .ok _ lvl e => (r.1, fillTlbs rq pid p va lvl e r.2)
  | .tfault _ _ | .merr _ _ => (r.1, fillWalker (walkDie rq s) pid p va r.2)

/-! ## Whose a retired operation is -/

/-- The retired operation is one of thread set `t` of core `c` in a launch, given by PID and launch id. -/
def Pend.isOf (c t : Nat) (o : Nat × Nat) (p : Pend) : Bool := p.core == c && p.tid == t && p.pid == o.1 && p.lid == o.2

/-- The retired operation is one of the focused thread set's, in its launch. -/
def Pend.isMine (s : State) (p : Pend) : Bool := p.isOf s.here s.tid (myPid s, myLid s)

/-- The launch that a thread set belongs to, by PID and launch id (01 R17). -/
def ThreadSet.launch (x : ThreadSet) : Nat × Nat := (bitsOf x.partid.toNat 0 4, bitsOf x.launchid.toNat 0 32)

/-! ## Where an access goes (11 R235 to R247) -/

/-- The kinds of R246, as DETAIL[1:0] has them. -/
inductive Kind where
  | load | store | atomic | code
  deriving DecidableEq, Repr

/-- DETAIL[1:0] of a kind (11 R246). -/
def Kind.bits : Kind → Nat
  | .load => 0 | .store => 1 | .atomic => 2 | .code => 3

/-- What an address comes to for an access. -/
inductive Acc where
  /-- A byte of memory by key, in a class, with the leaf entry and physical address where it was translated. -/
  | mem (s : State) (key : Nat) (cls : Cls) (pte pa : Nat)
  /-- The constant bank, by key (01 R15). -/
  | const (key : Nat)
  /-- A line word or configuration word of the event unit (08 R189). -/
  | event (line : Nat) (cfg : Bool)
  /-- A firmware register (25 R466). -/
  | fw (block off : Nat)
  /-- A fault with its code and DETAIL (11 R246). -/
  | fault (s : State) (code detail : Nat)
  /-- The access waits (11 R247, 20 R401). -/
  | wait (s : State)
  /-- A machine error (11 R258). -/
  | merr (code : Nat) (loc : Word)

/-- ACCESS with DETAIL[4:2] (11 R246). -/
def accFault (s : State) (k : Kind) (n : Nat) : Acc := .fault s 0x21 (n * 4 + k.bits)

/-- A local-memory offset of a core lies in a window lent to a penumbra context; `true` while a reclaim takes it back
(20 R400, R401). -/
def lentAt (off n : Nat) (k : Core) : Option Bool :=
  (k.lent.find? fun w => decide (w.base < off + n) && decide (off < w.base + w.size)).map fun w => w.reclaim

/-- The local memory of core `c` at an offset, for an access by an agent of the owning launch (20 R400, R401). -/
def ownerLm (c off n : Nat) (k : Kind) (s : State) : Acc :=
  match lentAt off n (getCore c s) with
  | some true => .wait s
  | some false => accFault s k 5
  | none => .mem s (lmKey c off) .lm 0 0

/-- Aperture 0x400 (11 R236, 20 R396). -/
def ownLm (off n : Nat) (k : Kind) (s : State) : Acc :=
  if isBank s then
    if s.ts.wsize - 4096 < off + n then accFault s k 2 else .mem s (lmKey s.here (s.ts.wbase + off)) .lm 0 0
  else if isF s = false ∧ 0xFC000 < off + n then accFault s k 1
  else if s.tid = 6 then .mem s (lmKey s.here off) .lm 0 0
  else ownerLm s.here off n k s

/-- The firewall accepts a packet of partition `pid` for thread sets 0–3 and the memory of a core (20 R390). -/
def firewallOk (c pid : Nat) (s : State) : Bool :=
  let w := (getCore c s).fwctl.toNat
  bitOf w 4 && bitsOf w 0 4 == pid

/-- One more request of a partition refused by the firewall, counted in FWDROP and its status block (20 R391). -/
def countFwDrop (pid : Nat) (s : State) : State :=
  match partOf pid s with
  | none => s
  | some p =>
    let n := (p.fwdrop + 1) % 2 ^ 32
    { modPart pid (fun q => { q with fwdrop := n }) s with mem := memWrite p.rcd.statblk (leBytes 4 n) s.mem }

/-- A core of the focused launch is pre-empted (19 R383). -/
def heldFromMe (c : Nat) (s : State) : Bool :=
  (getCore c s).owner != some (myPid s, myLid s) &&
    (match myLaunch s with
     | some l => l.held.any fun h => h.core == c
     | none => false)

/-- Aperture 0x401 (11 R236; log entry 13). -/
def remoteLm (c off n : Nat) (k : Kind) (s : State) : Acc :=
  if isBank s then accFault s k 2
  else if isF s = false ∧ 0xFC000 < off + n then accFault s k 1
  else if c = s.here then ownLm off n k s
  else if inMyRect c s = false ∨ (myLaunch s).isNone then accFault s k 2
  else if heldFromMe c s then .wait s
  else if firewallOk c (myPid s) s = false then accFault s k 2
  else if (getCore c s).owner ≠ some (myPid s, myLid s) ∨ (k = .load ∧ meshWait s.here c s = true) then .wait s
  else ownerLm c off n k s

/-- The forwarded fault that the focused thread set waits for (19 R388). -/
def myTicket (s : State) : Option Ticket :=
  match s.ts.ticket with
  | none => none
  | some n => s.tickets.find? fun t => t.num == n

/-- A new forwarded fault (19 R388): a 16-bit ticket; over a down link it is answered as denied (22 R421). -/
def newTicket (t : Ticket) (s : State) : State :=
  { s with tickets := s.tickets ++ [{ t with num := s.nextTicket, denied := if s.gwerid = .down then some true else none }]
           nextTicket := (s.nextTicket + 1) % 65536 }

/-- The focused thread set waits for the host's answer about an access, or has got it (19 R388). -/
def ticketFor (va : Nat) (k : Kind) (s : State) : Option Ticket := (myTicket s).filter fun t => t.va == va && t.kind == k.bits

/-- An access whose fault has been forwarded: it waits for the answer, and traps HOST_DENIED where the host refuses (11 R247). -/
def ticketAcc (t : Ticket) (k : Kind) (s : State) : Acc :=
  match t.denied with
  | some true =>
    .fault { s with ts := { s.ts with ticket := none }, tickets := s.tickets.filter fun x => x.num != t.num }
      0x26 (t.lvl * 4 + k.bits)
  | _ => .wait s

/-- A TRANSLATION fault met at or below an HB entry by the focused thread set is forwarded; one of another access that it has
forwarded before is dropped (11 R247, 19 R388). -/
def hostFault (va lvl : Nat) (k : Kind) (s : State) : Acc :=
  let s0 := dropTicket s
  let s1 := newTicket { num := 0, pid := myPid s, lid := myLid s, va := va, kind := k.bits, lvl := lvl,
                        party := .thread s.here s.tid, denied := none } s0
  .wait { s1 with ts := { s1.ts with ticket := some s.nextTicket } }

/-- The versioned-word rule that an access follows (11 R256): it must meet VER = 1, or must not, or may meet either. -/
inductive VerUse where
  | need | forbid | either
  deriving DecidableEq, Repr

/-- Protection against the leaf (11 R241, R256; log entry 14). -/
def protect (k : Kind) (ver : VerUse) (e : Nat) : Option Nat :=
  if (k = .store ∨ k = .atomic) ∧ pteW e = false then some 0
  else if k = .code ∧ pteNx e = true then some 1
  else if (ver = .need ∧ pteVer e = false) ∨ (ver = .forbid ∧ pteVer e = true) then some 2
  else none

/-- What a tenant virtual address comes to for an access of a partition: a memory key with its leaf entry and physical
address, a fault with its code and DETAIL, a fault to forward to the host with its level, or a machine error in a table. -/
inductive Place where
  | ok (s : State) (key e pa : Nat)
  | fault (s : State) (code detail : Nat)
  | host (s : State) (lvl : Nat)
  | merr (code : Nat) (loc : Word)

/-- The firewall of a home core accepts a packet of a partition for its slice: no launch of another partition holds the core
(20 R390; log entry 62). -/
def sliceOk (home pid : Nat) (s : State) : Bool :=
  let w := (getCore home s).fwctl.toNat
  !bitOf w 4 || bitsOf w 0 4 == pid

/-- Tenant virtual memory of a partition for a requester, whose TLBs serve it (11 R241 to R247, 20 R390, R391); a partition that does
not exist has no translation. -/
def placeVaFor (rq : Option Nat) (pid va : Nat) (k : Kind) (ver : VerUse) (s : State) : Place :=
  match partOf pid s with
  | none => .fault s 0x22 (3 * 4 + k.bits)
  | some p =>
    let r := translate rq pid p.rcd va s
    match r.1 with
    | .merr code loc => .merr code loc
    | .tfault lvl hb => if hb then .host r.2 lvl else .fault r.2 0x22 (lvl * 4 + k.bits)
    | .ok pa _ e =>
      match protect k ver e with
      | some n => .fault r.2 0x23 (n * 4 + k.bits)
      | none => if sliceOk (homeCore p.rcd pa) pid r.2 then .ok r.2 (physKey p.rcd pa) e pa else .fault r.2 0x21 (2 * 4 + k.bits)

/-- Tenant virtual memory of a partition for a unit of the device, which has no TLB of its own (11 R242; log entry 24); a request that
the firewall of the home slice refuses is counted (20 R391). -/
def placeVa (pid va : Nat) (k : Kind) (ver : VerUse) (s : State) : Place :=
  match placeVaFor none pid va k ver s with
  | .fault t code detail => .fault (if code = 0x21 then countFwDrop pid t else t) code detail
  | .ok t key e pa => .ok t key e pa
  | .host t lvl => .host t lvl
  | .merr code loc => .merr code loc

/-- A read of the focused thread set waits for the mesh: it goes to the line's home core, unless the L1 holds the line (22 R414,
R415, R417). -/
def homeWait (cls : Cls) (pa : Nat) (s : State) : Bool :=
  match partOf (myPid s) s with
  | none => false
  | some p => !(cls == .l1 && l1Has (dirLine (myPid s) pa) s.here s) && meshWait s.here (homeCore p.rcd pa) s

/-- Tenant virtual memory for the focused thread set; an access whose fault has been forwarded walks again only once the host has
answered (11 R241 to R247). -/
def virtual (va : Nat) (k : Kind) (ver : VerUse) (s : State) : Acc :=
  match ticketFor va k s with
  | some x => ticketAcc x k s
  | none =>
    match placeVaFor (some s.here) (myPid s) va k ver s with
    | .ok t key e pa =>
      let c : Cls := if pteC e then .l1 else .hs
      if k = .load ∧ homeWait c pa t = true then .wait t else .mem t key c e pa
    | .fault t code detail => .fault t code detail
    | .host t lvl => hostFault va lvl k t
    | .merr code loc => .merr code loc

/-- The waiting instruction of the focused thread set has passed its check of an entry, and carries this generation
(12 R273). -/
def palKept (e : Nat) (s : State) : Option Nat :=
  match s.ts.palTaken with
  | some (x, g) => if x = e then some g else none
  | none => none

/-- The issuing core's copy of a programmable palette entry lets an operation issue (12 R273); the entries of a penumbra
context keep their defaults (20 R396, R397). -/
def palOk (e : Nat) (s : State) : Bool :=
  if 4 ≤ e ∧ e ≤ 14 then isBank s || (palKept e s).isSome || !(vecGet s.core.pal (e - 4)).inv else true

/-- The generation that an operation naming an entry carries (12 R273); 0 for a fixed entry. -/
def palGen (e : Nat) (s : State) : Nat :=
  if 4 ≤ e ∧ e ≤ 14 ∧ isBank s = false then (palKept e s).getD (vecGet s.core.pal (e - 4)).gen else 0

/-- The membership of a generation at the issuing core: its old slot's or the current one (12 R271, R273). -/
def palMem (e g : Nat) (s : State) : PalMem :=
  let k := vecGet s.core.pal (e - 4)
  match k.old with
  | some o => if o.1 = g then o.2 else k.mem
  | none => k.mem

/-- The classes L1 and HS that a palette entry covers, in the generation an operation carries (12 R262, R263). -/
def covers (e : Nat) (s : State) : Bool × Bool :=
  if 4 ≤ e ∧ e ≤ 14 ∧ isBank s = false then (bitOf (palMem e (palGen e s) s).flags 0, bitOf (palMem e (palGen e s) s).flags 1)
  else (true, true)

/-- A class is covered: LM always is (12 R263). -/
def clsCovered (c : Bool × Bool) (k : Cls) : Bool :=
  match k with
  | .lm => true
  | .l1 => c.1
  | .hs => c.2

/-- A retired acquire of the focused thread set that is still to be performed holds back an access of a class (12 R266). -/
def acqHeld (k : Cls) (s : State) : Bool :=
  s.pend.any fun p => p.isMine s && (match p.acq with
    | some c => clsCovered c k
    | none => false)

/-- A generic address decoded and checked in the order of R246: ALIGN, ACCESS, STALE_PALETTE, TRANSLATION, PROTECTION
(of two limits of one aperture the order is log entry 69). Tag 0 is tenant virtual memory, also for the bare offsets of chapter 07
(log entry 70). -/
def reachAny (k : Kind) (n : Nat) (ga : Word) (ver : VerUse) (pal : Option Nat) (s : State) : Acc :=
  let g := ga.toNat
  let tag := g / 2 ^ 53
  let stale : Bool := match pal with
    | none => false
    | some e => !palOk e s
  let late (x : Acc) : Acc := match x with
    | .mem t key c e pa => if stale then .fault s 0x24 k.bits else .mem t key c e pa
    | .const key => if stale then .fault s 0x24 k.bits else .const key
    | .event l c => .event l c
    | .fw b o => .fw b o
    | .fault t code detail => .fault t code detail
    | .wait t => if stale then .fault s 0x24 k.bits else .wait t
    | .merr code loc => .merr code loc
  if g % n ≠ 0 then .fault s 0x20 k.bits
  else if tag = 0x400 then
    if bitsOf g 20 33 ≠ 0 then accFault s k 0 else late (ownLm (bitsOf g 0 20) n k s)
  else if tag = 0x401 then
    if bitsOf g 31 22 ≠ 0 then accFault s k 0
    else late (remoteLm (bitsOf g 26 5 * 64 + bitsOf g 20 6) (bitsOf g 0 20) n k s)
  else if tag = 0x402 then
    let o := bitsOf g 0 53
    if 2 ^ bitsOf s.ts.priv.toNat 58 6 ≤ o then accFault s k 2
    else if stale then .fault s 0x24 k.bits
    else virtual ((bitsOf s.ts.priv.toNat 0 53 + o) % 2 ^ 53) k ver s
  else if tag = 0x403 then
    if bitsOf g 12 41 ≠ 0 then accFault s k 0
    else if k = .store ∨ k = .atomic then accFault s k 3
    else if isBank s then late (.const (lmKey s.here (s.ts.wbase + (s.ts.wsize - 4096) + bitsOf g 0 12)))
    else late (.const (constKey s.here (bitsOf g 0 12)))
  else if tag = 0x404 then
    if bitsOf g 9 44 ≠ 0 ∨ bitsOf g 0 3 ≠ 0 then accFault s k 4 else .event (bitsOf g 3 5) (bitOf g 8)
  else if tag = 0x405 then
    if isF s = false then accFault s k 1
    else if bitsOf g 20 33 ≠ 0 then accFault s k 0 else .fw (bitsOf g 12 8) (bitsOf g 0 12)
  else if tag = 0 then
    if stale then .fault s 0x24 k.bits else virtual (bitsOf g 0 53) k ver s
  else accFault s k 0

/-- The access of a thread set at a generic address, of the class that `f` gives it from its page's class and address; it waits
while an acq-rel PALSET or PALINV of the thread set holds its later accesses back, or a retired acquire that is still to be
performed (12 R260, R266, R272; 13 R294, R301). -/
def reachAs (f : Cls → Nat → Cls) (k : Kind) (n : Nat) (ga : Word) (ver : VerUse) (pal : Option Nat) (s : State) : Acc :=
  if !s.ts.palHold.isEmpty then .wait s
  else
    match reachAny k n ga ver pal s with
    | .mem t key c e pa => if acqHeld (f c pa) s then .wait s else .mem t key c e pa
    | .const key => .const key
    | .event l c => .event l c
    | .fw b o => .fw b o
    | .fault t code detail => .fault t code detail
    | .wait t => .wait t
    | .merr code loc => .merr code loc

/-- The access of a load or store, which is performed in its page's class (12 R260). -/
def reach (k : Kind) (n : Nat) (ga : Word) (ver : VerUse) (pal : Option Nat) (s : State) : Acc := reachAs (fun c _ => c) k n ga ver pal s

/-- The class of an operation that is performed at the home slice where it is not in local memory (12 R260). -/
def homeCls (c : Cls) (_pa : Nat) : Cls :=
  match c with
  | .lm => .lm
  | .l1 | .hs => .hs

/-! ## Refused requests (20 R391) -/

/-- The tenant virtual address that a generic address of tag 0 or 0x402 names for the focused thread set (11 R235). -/
def vaOf (ga : Word) (s : State) : Nat :=
  let o := bitsOf ga.toNat 0 53
  if ga.toNat / 2 ^ 53 = 0x402 then (bitsOf s.ts.priv.toNat 0 53 + o) % 2 ^ 53 else o

/-- The fault that the focused thread set takes for an access is the firewall's refusal: of a core's local memory, or of a home
slice (20 R390, R391). -/
def fwRefused (code detail : Nat) (ga : Word) (s : State) : Bool :=
  let g := ga.toNat
  let tag := g / 2 ^ 53
  let c := bitsOf g 26 5 * 64 + bitsOf g 20 6
  let slice (va : Nat) : Bool := match partOf (myPid s) s with
    | none => false
    | some p =>
      match walk p.rcd va s with
      | .ok pa _ _ => !sliceOk (homeCore p.rcd pa) (myPid s) s
      | .tfault _ _ | .merr _ _ => false
  code == 0x21 && detail / 4 == 2 &&
    (if tag = 0x401 then
      !isBank s && c != s.here && inMyRect c s && (myLaunch s).isSome && !heldFromMe c s && !firewallOk c (myPid s) s
    else if tag = 0x402 then
      decide (bitsOf g 0 53 < 2 ^ bitsOf s.ts.priv.toNat 58 6) && slice (vaOf ga s)
    else tag == 0 && slice (vaOf ga s))

/-- A refused request of the focused thread set is counted with the fault that it takes (20 R391). -/
def countRefused (e : Eff) (s : State) : State :=
  match e with
  | .trap code detail val => if fwRefused code detail val s then countFwDrop (myPid s) s else s
  | .ok _ | .jump _ _ | .stop _ _ | .hold _ _ | .final _ => s

/-! ## Writes and the fetch buffer (01 R27, R28) -/

/-- The local-memory offset at which a thread set's pc stands. -/
def pcOff (t : ThreadSet) : Nat := t.wbase + t.pc.toNat

/-- The word-aligned offset `w` lies in the eight words from offset `n` (01 R28). -/
def inFetchWindow (n w : Nat) : Bool := decide (n ≤ w) && decide (w ≤ n + 28)

/-- The number of bytes that a retired operation touches. -/
def Pend.len (p : Pend) : Nat :=
  match p.op with
  | .store bs => bs.length
  | .amo _ w _ _ _ => w
  | .recl _ => 8

/-- A retired operation touches one of the `n` bytes at a key. -/
def Pend.overlaps (p : Pend) (k n : Nat) : Bool := decide (p.key < k + n) && decide (k < p.key + p.len)

/-- The retired operations of one thread set of a launch that touch the bytes (06 R152: they take effect in program order). -/
def pendAt (c t : Nat) (o : Nat × Nat) (k n : Nat) (s : State) : List Pend := s.pend.filter fun p => p.isOf c t o && p.overlaps k n

/-- The retired operations of the focused thread set that touch the bytes. -/
def mineAt (k n : Nat) (s : State) : List Pend := pendAt s.here s.tid (myPid s, myLid s) k n s

/-- Bytes with those of a retired store laid over them. -/
def overlay (k : Nat) (bs : List Byte) (p : Pend) : List Byte :=
  match p.op with
  | .amo _ _ _ _ _ => bs
  | .recl _ => bs
  | .store xs => (List.range bs.length).map fun i =>
    if decide (p.key ≤ k + i) && decide (k + i < p.key + xs.length) then nth 0 xs (k + i - p.key) else nth 0 bs i

/-- The word at an offset of core `c`'s local memory as thread set `t` of a launch fetches it: every store that it has retired has
taken effect for it (01 R28). -/
def codeWord (c t : Nat) (o : Nat × Nat) (off : Nat) (s : State) : W32 :=
  let k := lmKey c off
  BitVec.ofNat 32 (leValue ((pendAt c t o k 4 s).foldl (fun bs p => overlay k bs p) (memRead s.mem 4 k)))

/-- The old content of the local-memory words at the aligned offsets of a write that thread set `t` of core `c`, in a launch, about
to issue from offset `n`, may still execute (01 R28). -/
def staleWords (c t : Nat) (o : Nat × Nat) (n off len : Nat) (s : State) : List (Nat × W32) :=
  ((List.range (len / 4 + 2)).map fun i => off / 4 * 4 + 4 * i).filterMap fun w =>
    if decide (w < off + len) && inFetchWindow n w then some (w, codeWord c t o w s) else none

/-- Thread set `x`, of number `t` on core `c`, keeps what it may still execute of the words that a write replaces; its next
instruction lies `d` bytes beyond its pc (01 R28). -/
def keepStale (c t off len d : Nat) (s : State) (x : ThreadSet) : ThreadSet :=
  { x with fbuf := x.fbuf ++ staleWords c t x.launch (pcOff x + d) off len s }

/-- The thread sets of core `c` keep what they may still execute of the words that a write replaces, but for the one whose own
retired store the write is, which kept it then; `step` is how far the focused thread set's next instruction lies beyond its pc
(01 R28). -/
def noteCode (c off len step : Nat) (own : Option Nat) (s : State) : State :=
  let upd (x : ThreadSet) (t d : Nat) : ThreadSet := if own = some t then x else keepStale c t off len d s x
  if c = s.here then
    { s with ts := upd s.ts s.tid step, core := { s.core with tsets := vecGen 7 fun t => upd (vecGet s.core.tsets t) t 0 } }
  else
    match s.cores.find? fun x => x.1 == c with
    | none => s
    | some x => { s with cores := insertKey c { x.2 with tsets := vecGen 7 fun t => upd (vecGet x.2.tsets t) t 0 } s.cores }

/-- A write narrower than 64 bits reads the words that it covers in part to rewrite their check bits, which corrects a single-bit
error of them and counts it (01 R24, 11 R258). -/
def correctEnds (k n : Nat) (s : State) : State :=
  let s1 := if k % 8 = 0 then s else correct (k / 8 * 8) 8 s
  if (k + n) % 8 = 0 then s1 else correct ((k + n) / 8 * 8) 8 s1

/-- A line of the L2-mode granules as a write of `n` bytes at a key leaves it: the words it covers whole have no error (11 R258). -/
def L2Line.written (k n : Nat) (x : L2Line) : L2Line :=
  if x.bad.isEmpty && x.soft.isEmpty then x
  else
    let out (w : Nat) : Bool := !(decide (k ≤ (x.line % 2 ^ 48 * 8 + w) * 8) && decide ((x.line % 2 ^ 48 * 8 + w) * 8 + 8 ≤ k + n))
    { x with bad := x.bad.filter out, soft := x.soft.filter out }

/-- A write lands, the performance of thread set `own`'s retired store where it is one: memory takes the bytes, the words it
covers whole lose their errors, and the fetch buffers of the core keep what R28 lets them execute. -/
def landOwn (own : Option Nat) (k : Nat) (bs : List Byte) (step : Nat) (s : State) : State :=
  let n := bs.length
  let s0 := correctEnds k n s
  let s1 := if isLmKey k then noteCode (lmCore k) (lmOff k) n step own s0 else s0
  { s1 with
    mem := memWrite k bs s1.mem
    bad := s1.bad.filter fun w => !(decide (k ≤ w * 8) && decide (w * 8 + 8 ≤ k + n))
    soft := s1.soft.filter fun w => !(decide (k ≤ w * 8) && decide (w * 8 + 8 ≤ k + n))
    l1bad := s1.l1bad.filter fun x => !(decide (k ≤ x.1 * 8) && decide (x.1 * 8 + 8 ≤ k + n))
    l1soft := s1.l1soft.filter fun x => !(decide (k ≤ x.2 * 8) && decide (x.2 * 8 + 8 ≤ k + n))
    poison := s1.poison.filter fun l => !(decide (k ≤ l * 64) && decide (l * 64 + 64 ≤ k + n))
    l2 := s1.l2.map fun x => x.written k n }

/-- A write that is no performance of a retired store lands. -/
def land (k : Nat) (bs : List Byte) (step : Nat) (s : State) : State := landOwn none k bs step s

/-- A transfer engine writes zero to the `n` bytes from a key on (20 R393). -/
def zeroBytes (k n : Nat) (s : State) : State :=
  { s with
    mem := memZero k n s.mem
    bad := s.bad.filter fun w => !(decide (k ≤ w * 8) && decide (w * 8 + 8 ≤ k + n))
    soft := s.soft.filter fun w => !(decide (k ≤ w * 8) && decide (w * 8 + 8 ≤ k + n)) }

/-! ## Retired operations still to be performed (13 R283, R294) -/

/-- The bytes [lo, hi) of a core's local memory meet a window. -/
def meets (w : Window) (c lo hi : Nat) : Bool := w.core == c && decide (w.lo < hi) && decide (lo < w.hi)

/-- Every window that the commands and accepted operations of a launch on a core that are older than number `b` hold (15 R327,
16 R336); a reserve bank's windows are those of its own launch (20 R397). -/
def windowsOf (b : Nat) (o : Nat × Nat) (k : Core) : List Window :=
  ((k.queues.toList.flatten.filter fun c => decide (c.seq < b) && (c.pid, c.lid) == o).map fun c => c.reads ++ c.writes).flatten ++
    ((k.matq.filter fun x => decide (x.seq < b) && (x.pid, x.lid) == o).map fun x => x.wins).flatten

/-- The windows of a launch that commands of its pre-empted cores of a quad still hold (19 R383). -/
def heldWindows (b : Nat) (o : Nat × Nat) (q : Nat) (s : State) : List Window :=
  match launchOf o.1 o.2 s with
  | none => []
  | some l => ((l.held.filter fun h => quadCore h.core 0 == quadCore q 0).map fun h => windowsOf b o h.saved).flatten

/-- The windows, older than number `b`, that guard a launch's local memory of a core: those registered from the cores of its quad
(15 R327). -/
def quadWindows (b : Nat) (o : Nat × Nat) (c : Nat) (s : State) : List Window :=
  (((List.range 4).map fun m => windowsOf b o (getCore (quadCore c m) s)).flatten ++ heldWindows b o c s).filter fun w => w.core == c

/-- A store, numbered `b`, into `n` bytes at a key by a thread set of a launch on core `c` waits for a window of that core: one
registered after the store had retired does not hold it (12 R277, 15 R327). -/
def windowHeldAt (b : Nat) (o : Nat × Nat) (c k n : Nat) (s : State) : Bool :=
  isLmKey k && lmCore k == c && (quadWindows b o c s).any fun w => meets w c (lmOff k) (lmOff k + n)

/-- A store into `n` bytes at a key by the focused thread set, of core `c`, that issues now waits for a window (15 R327). -/
def windowHeld (c k n : Nat) (s : State) : Bool := windowHeldAt s.seq (myPid s, myLid s) c k n s

/-- A retired operation that waits for a window (15 R327). -/
def Pend.windowHeld (p : Pend) (s : State) : Bool := windowHeldAt p.id (p.pid, p.lid) p.core p.key p.len s

/-- A retired operation touches each of the `n` bytes at a key. -/
def Pend.encloses (p : Pend) (k n : Nat) : Bool := decide (p.key ≤ k) && decide (k + n ≤ p.key + p.len)

/-- A read of `n` bytes at a key may take the old or the new value of an appended element (06 R163). -/
def Pend.open_ (k n : Nat) (p : Pend) : Bool := p.slot.isSome && !p.seen && p.encloses k n

/-- The reader takes the value of a retired operation of its own: it has taken it before, or a free bit says so (06 R163, 12
R261). -/
def Pend.taken (k n : Nat) (s : State) (p : Pend) : Bool :=
  p.slot.isNone || p.seen || (p.open_ k n && Config.freeBit s.free)

/-- What the focused thread set reads at a key: its own retired stores stand before memory (12 R261); of an element that a
stream has appended and that is still to be performed it reads the old or the new value, and no part of each (06 R163, 11
R245). -/
def readOwn (k n : Nat) (s : State) : List Byte :=
  ((mineAt k n s).filter fun p => p.taken k n s).foldl (fun bs p => overlay k bs p) (memRead s.mem n k)

/-- The choice that `readOwn` makes is used up; what has been read new is never read old again (12 R261). -/
def readOwnTick (k n : Nat) (s : State) : State :=
  if (mineAt k n s).any (Pend.open_ k n) then
    tickFree { s with
      pend := s.pend.map fun p => if p.isMine s && p.open_ k n && Config.freeBit s.free then { p with seen := true } else p }
  else s

/-- The focused thread set must wait before it reads the bytes: a retired atomic of its own on them is still to be performed,
or a store of its own on them waits for a window or gives only a part of a single-copy atomic read (11 R245, 12 R261, 13
R283). -/
def mustWait (k n : Nat) (s : State) : Bool :=
  (mineAt k n s).any fun p =>
    match p.op with
    | .amo _ _ _ _ _ => true
    | .recl _ => true
    | .store _ => (p.slot.isNone && p.windowHeld s) || ((p.slot.isNone || p.seen) && decide (n ≤ 8) && !p.encloses k n)

/-- A retired operation joins those still to be performed, with the next number. -/
def addPend (p : Pend) (s : State) : State := { s with pend := s.pend ++ [{ p with id := s.seq }], seq := s.seq + 1 }

/-- A retired operation of the focused thread set at a key. -/
def pendOf (key pa : Nat) (cls : Cls) (ga : Word) (op : PendOp) (s : State) : Pend :=
  { id := 0, core := s.here, tid := s.tid, pid := myPid s, lid := myLid s, cls := cls, key := key, pa := pa, ga := ga,
    slot := none, seen := false, cached := false, pal := none, rel := none, acq := none, op := op }

/-- A store of the issuing core into its own local memory that nothing holds back is performed at once. -/
def landsNow (k : Nat) (n : Nat) (s : State) : Bool :=
  isLmKey k && lmCore k == s.here && !windowHeld s.here k n s && (mineAt k n s).isEmpty && !storeLost k n s

/-- A store retires (13 R283), or the append of a slot by an instruction of some length: one into the issuing core's own local
memory is performed at once unless a window holds it; every other is performed later, but for the thread set's own fetches has
taken effect (01 R28). -/
def retireStore (k pa : Nat) (cls : Cls) (ga : Word) (bs : List Byte) (slot : Option (Nat × Nat)) (s : State) : State :=
  if slot.isNone && landsNow k bs.length s then land k bs 4 s
  else
    let step := match slot with
      | some x => x.2
      | none => 4
    let s1 := if isLmKey k && lmCore k == s.here then { s with ts := keepStale s.here s.tid (lmOff k) bs.length step s s.ts } else s
    addPend { pendOf k pa cls ga (.store bs) s1 with slot := slot.map fun x => x.1 } s1

/-! ## Ordering of retired operations (12 R266, 13 R299) -/

/-- An accepted matrix operation reads operands in local memory (16 R331, R338; 12 R260). -/
def MatOp.reads (o : MatOp) : Bool := o.kind != .zero

/-- An accepted matrix operation is one of thread set `t` in a launch. -/
def MatOp.isOf (t : Nat) (l : Nat × Nat) (o : MatOp) : Bool := o.tid == t && o.pid == l.1 && o.lid == l.2

/-- The numbers of the accesses of the focused thread set that are still to be performed: of its retired operations, and of its
accepted matrix operations, which have yet to read their operands (12 R266, R277). -/
def openAccesses (s : State) : List Nat :=
  (s.pend.filter fun p => p.isMine s).map (fun p => p.id) ++
    (s.core.matq.filter fun o => o.reads && o.isOf s.tid (myPid s, myLid s)).map fun o => o.seq

/-- Of the accesses with the numbers `ns`, of core `c`, none is still to be performed. -/
def performedAll (ns : List Nat) (c : Nat) (s : State) : Bool :=
  (s.pend.all fun p => !ns.contains p.id) && !((getCore c s).matq.any fun o => ns.contains o.seq)

/-- A release on covered classes waits for a retired operation of its thread set; for an appended element whatever its class (06
R163; 12 R263, R266). -/
def Pend.releases (c : Bool × Bool) (p : Pend) : Bool := clsCovered c p.cls || p.slot.isSome

/-- Every earlier access of the focused thread set in the covered classes has been performed (06 R163, 13 R299). -/
def drained (c : Bool × Bool) (s : State) : Bool :=
  (s.pend.all fun p => !(p.isMine s && p.releases c)) && !(s.core.matq.any fun o => o.reads && o.isOf s.tid (myPid s, myLid s))

/-- Every earlier read of the focused thread set in the covered classes has been performed: a retired atomic may still be to come
(12 R266). -/
def readsDone (c : Bool × Bool) (s : State) : Bool :=
  (s.pend.all fun p => !(p.isMine s && clsCovered c p.cls && (match p.op with
    | .amo _ _ _ _ _ => true
    | .store _ => false
    | .recl _ => false))) && !(s.core.matq.any fun o => o.reads && o.isOf s.tid (myPid s, myLid s))

/-- A retired operation acts on the local memory of a core from which its launch is pre-empted: it is performed in the image that
the save frame holds, whose key this is (15 R327; 19 R381, R383). -/
def lmAway (p : Pend) (s : State) : Option Nat :=
  if isLmKey p.key && decide (p.tid < 4) && (getCore (lmCore p.key) s).owner != some (p.pid, p.lid) then
    match launchOf p.pid p.lid s, partOf p.pid s with
    | some l, some q => (l.held.find? fun h => h.core == lmCore p.key).map fun h => frameKey q.rcd h.frame (0x8000 + lmOff p.key)
    | _, _ => none
  else none

/-- A retired operation with the key at which it is performed now. -/
def Pend.placed (p : Pend) (s : State) : Pend :=
  match lmAway p s with
  | some k => { p with key := k }
  | none => p

/-- The line of a retired operation owned by the L1 in which it is performed, where that is its class (11 R253). -/
def ownFor (p : Pend) (s : State) : State :=
  match p.cls, partOf p.pid s with
  | .l1, some q => l1Own q.rcd p.pa p.core s
  | _, _ => s

/-- The flow of virtual network 0 that carries a retired operation to its place (22 R414). -/
def Pend.flow (p : Pend) (s : State) : Option Flow :=
  let dest (c : Nat) : Flow := { src := routerOf p.core s, dst := routerOf c s, vn := 0 }
  if isLmKey p.key then some (dest (lmCore p.key)) else (partOf p.pid s).map fun q => dest (homeCore q.rcd p.pa)

/-- The mesh holds a retired operation back: at a failed link, or at its source router while its flow drains (22 R415, R417). -/
def Pend.meshHeld (p : Pend) (s : State) : Bool :=
  !(s.failed.isEmpty && s.flows.isEmpty) &&
    (match p.flow s with
     | some f => flowHeld f p.id s
     | none => false)

/-- A retired operation may be performed: its window and its way are free, no earlier one of its thread set touches its bytes, and a
release has nothing earlier left in the classes it covers, nor the operand reads of a matrix operation (06 R152, 12 R266, 15 R327, 22 R415). -/
def performable (before : List Pend) (p : Pend) (s : State) : Bool :=
  !p.windowHeld s && !p.meshHeld s &&
    !(p.rel.isSome && (getCore p.core s).matq.any fun o => o.reads && o.isOf p.tid (p.pid, p.lid) && decide (o.seq < p.id)) &&
    before.all fun q => !(q.isOf p.core p.tid (p.pid, p.lid) &&
      (q.overlaps p.key p.len || (match p.rel with
        | some c => q.releases c
        | none => false)))

end Sys2Proof.Machine
end

