-- ==== Sys2Proof/Machine/Streams.lean ====
section
/-! DEFINITION. Stream slots (06 R154 to R164), and the one wrapper that every instruction's effect goes through: it gives a
read-bound register its element, sends the value of a write-bound register to its element, and retires the instruction. -/
namespace Sys2Proof.Machine

/-- The element total of a slot (06 R155). -/
def Slot.total (k : Slot) : Nat := k.counts.foldl (fun a b => a * b) 1

/-- ElemAddr (06 R155) over the remaining dimensions. -/
def elemAddr : List (Nat × Word) → Nat → Word → Word
  | [], _, base => base
  | (c, st) :: ds, m, base => elemAddr ds (m / c) (base + w64 (m % c) * st)

/-- The generic address of element `m` of a slot (06 R155). -/
def Slot.addr (k : Slot) (m : Nat) : Word := elemAddr (k.counts.zip k.strides) m k.base

/-- The element size in bytes (06 R155). -/
def Slot.bytes (k : Slot) : Nat := if k.esize = 4 then 64 else 2 ^ k.esize

/-- The value that a popped element gives its register (06 R158). -/
def Slot.value (k : Slot) (x : Nat) : Nat :=
  if k.sext then wrapOf 64 (signedOf (8 * k.bytes) x) else x

/-- The outcome of loading one element. -/
inductive Load where
  | val (x : Nat) (s : State)
  | fault (c : Cause)
  | wait (s : State)
  | merr (code : Nat) (loc : Word)

/-- A relaxed load of `n` bytes by the focused thread set, at a place that has been checked (13 R282). -/
def loadMem (n key : Nat) (cls : Cls) (pa : Nat) (s : State) : Load :=
  if mustWait key n s then .wait s
  else
    match readError key n s with
    | some e => .merr e.1 e.2
    | none =>
      let t := correctBy (some s.here) key n s
      let u := match cls, partOf (myPid t) t with
        | .l1, some p => l1Read p.rcd pa t.here t
        | _, _ => t
      .val (leValue (readOwn key n t)) (readOwnTick key n u)

/-- A relaxed load of `n` bytes at a generic address by the focused thread set (13 R282). -/
def loadAt (n : Nat) (ga : Word) (s : State) : Load :=
  match reach .load n ga .either none s with
  | .mem t key cls _ pa => loadMem n key cls pa t
  | .const key =>
    (match readError key n s with
     | some e => .merr e.1 e.2
     | none => .val (memValue s.mem n key) (correct key n s))
  | .event _ _ => .fault { code := 0x21, detail := 4 * 4, val := ga }
  | .fw _ _ => .fault { code := 0x21, detail := 4 * 4, val := ga }
  | .fault _ code detail => .fault { code := code, detail := detail, val := ga }
  | .wait t => .wait t
  | .merr code loc => .merr code loc

/-- The outcome of checking one store. -/
inductive Chk where
  | ok (s : State) (key : Nat) (cls : Cls) (pa : Nat)
  | fault (c : Cause)
  | wait (s : State)
  | merr (code : Nat) (loc : Word)

/-- A store of `n` bytes at a generic address, translated and checked (13 R282). -/
def checkStore (n : Nat) (ga : Word) (s : State) : Chk :=
  match reach .store n ga .forbid none s with
  | .mem t key cls _ pa => .ok t key cls pa
  | .const _ => .fault { code := 0x21, detail := 3 * 4 + 1, val := ga }
  | .event _ _ => .fault { code := 0x21, detail := 4 * 4 + 1, val := ga }
  | .fw _ _ => .fault { code := 0x21, detail := 4 * 4 + 1, val := ga }
  | .fault _ code detail => .fault { code := code, detail := detail, val := ga }
  | .wait t => .wait t
  | .merr code loc => .merr code loc

/-- Slot `i` of the focused thread set. -/
def slotOf (i : Nat) (s : State) : Slot := vecGet s.ts.slots i

/-- Slot `i` of the focused thread set set. -/
def setSlot (i : Nat) (k : Slot) (s : State) : State := { s with ts := { s.ts with slots := vecSet s.ts.slots i k } }

/-- The raw contents of the register a slot is bound to (06 R156: never s0 nor s24–s31). -/
def putBound (r : RegRef) (x : Nat) (s : State) : State :=
  match r with
  | .s n => { s with ts := { s.ts with s := vecSet s.ts.s n.toNat (w64 x) } }
  | .v n => { s with ts := { s.ts with v := vecSet s.ts.v n.toNat (BitVec.ofNat 512 x) } }

/-- The register's own contents in one state put back into another (06 R156). -/
def keepOwn (r : RegRef) (from_ s : State) : State :=
  match r with
  | .s n => { s with ts := { s.ts with s := vecSet s.ts.s n.toNat (vecGet from_.ts.s n.toNat) } }
  | .v n => { s with ts := { s.ts with v := vecSet s.ts.v n.toNat (vecGet from_.ts.v n.toNat) } }

/-- STREAM_STATE with a DETAIL for a slot (06 R157). -/
def streamFault (i detail : Nat) : Cause := { code := 7, detail := detail, val := w64 i }

/-- The slots that an instruction reads through, each once, with the register. -/
def readSlots (s : State) : List RegRef → List (Nat × RegRef)
  | [] => []
  | r :: rs =>
    let rest := readSlots s rs
    match boundSlot r s with
    | none => rest
    | some i => if rest.any fun x => x.1 == i then rest else (i, r) :: rest

/-- What reading through slots comes to: registers hold their elements, or the instruction traps or waits. -/
inductive Pops where
  | ok (s : State)
  | fault (s : State) (c : Cause)
  | wait (s : State)
  | merr (code : Nat) (loc : Word)

/-- The STREAM_STATE cause of a slot that a register read meets, if any (06 R157). -/
def badRead (i : Nat) (s : State) : Option Cause :=
  if (slotOf i s).write then some (streamFault i 5)
  else if (slotOf i s).st = .done then some (streamFault i 6) else none

/-- The STREAM_STATE cause of a slot that a register write meets, if any (06 R157). -/
def badWrite (i : Nat) (s : State) : Option Cause :=
  if (slotOf i s).write = false then some (streamFault i 5)
  else if (slotOf i s).st = .done then some (streamFault i 6) else none

/-- One pop (06 R158 to R160) from a slot that may be read: the register receives element pos; the position moves only when
the instruction retires. -/
def popOne (i : Nat) (r : RegRef) (s : State) : Pops :=
  let k := slotOf i s
  match k.buf.find? fun b => b.1 == k.pos with
  | some b => .ok (putBound r (k.value b.2.toNat) s)
  | none =>
    match k.held.filter fun h => h.1 == k.pos with
    | some h => .fault (setSlot i { k with st := .active, held := none } s) h.2
    | none =>
      match loadAt k.bytes (k.addr k.pos) s with
      | .val x t => .ok (putBound r (k.value x) (setSlot i { k with buf := [(k.pos, BitVec.ofNat 512 x)] } t))
      | .fault c => .fault s c
      | .wait t => .wait t
      | .merr code loc => .merr code loc

/-- Every pop of an instruction. -/
def popAll : List (Nat × RegRef) → State → Pops
  | [], s => .ok s
  | (i, r) :: rest, s =>
    match popOne i r s with
    | .ok t => popAll rest t
    | .fault t c => .fault t c
    | .wait t => .wait t
    | .merr code loc => .merr code loc

/-- A slot after an append, a pop or a skip up to position `n`; a move past the held fault discards it (06 R158, R160, R161). -/
def Slot.moveTo (k : Slot) (n : Nat) : Slot :=
  let h := k.held.filter fun x => decide (n ≤ x.1)
  { k with pos := n, buf := k.buf.filter fun b => decide (n ≤ b.1), held := h,
           st := if n = k.total then .done else if h.isSome then .faulted else .active }

/-- A slot after one of its elements has been popped; SSKIP through the slot that it skips may have reached the end (06 R158,
R161; log entry 30). -/
def Slot.popped (k : Slot) : Slot := k.moveTo (Nat.min (k.pos + 1) k.total)

/-- The positions of popped slots move on (06 R158). -/
def moveSlots (l : List (Nat × RegRef)) (s : State) : State :=
  l.foldl (fun s x => setSlot x.1 (slotOf x.1 s).popped s) s

/-- The value a write-bound register would have received (06 R158). -/
def boundValue (r : RegRef) (s : State) : Nat :=
  match r with
  | .s n => (vecGet s.ts.s n.toNat).toNat
  | .v n => (vecGet s.ts.v n.toNat).toNat

/-- An instruction that does not retire leaves registers and slots as they stood when it issued (01 R31). -/
def unpopped (s t : State) : State := { t with ts := { s.ts with ticket := t.ts.ticket, barl := t.ts.barl, palHold := t.ts.palHold, palTaken := t.ts.palTaken, trgWait := t.ts.trgWait, waitphase := t.ts.waitphase, sends := t.ts.sends, enqWord := t.ts.enqWord } }

/-- The element buffer of a write slot, which holds what has been appended and is still to be performed, has no room for another
element (06 R159). -/
def bufferFull (i : Nat) (k : Slot) (s : State) : Bool :=
  let n := (s.pend.filter fun p => p.isMine s && p.slot == some i).length
  decide (512 < (n + 1) * k.bytes)

/-- An instruction whose append must wait has no effect: it stalls as it stood after its pops, `s1`, where the wait itself is
all that it leaves (06 R159). -/
def appendHold (ga : Word) (n : Nat) (s s1 : State) : Eff :=
  match checkStore n ga s1 with
  | .wait u => .hold (unpopped s u) .stalled
  | .ok _ _ _ _ | .fault _ | .merr _ _ => .hold (unpopped s s1) .stalled

/-- The effect `t` of an instruction of `len` bytes that writes a write-bound register becomes an append (06 R158 to R160); it
issued in `s` and its pops gave `s1`. -/
def appendOne (i : Nat) (r : RegRef) (len : Nat) (s s1 t : State) : Eff :=
  let k := slotOf i s
  let x := boundValue r t
  let ga := k.addr k.pos
  if bufferFull i k s then .hold (unpopped s s1) .stalled
  else
    match checkStore k.bytes ga (keepOwn r s t) with
    | .ok t1 key cls pa =>
      let t2 := retireStore key pa cls ga (leBytes k.bytes x) (some (i, len)) t1
      .ok (setSlot i (k.moveTo (k.pos + 1)) t2)
    | .fault c => .trap c.code c.detail c.val
    | .wait _ => appendHold ga k.bytes s s1
    | .merr code loc => .final (machineError code loc s)

/-- The append of a write-bound register, after the effect `t` of its instruction (06 R158, R160). -/
def appended (w : Option (Nat × RegRef)) (len : Nat) (s s1 t : State) : Eff :=
  match w with
  | none => .ok t
  | some x => appendOne x.1 x.2 len s s1 t

/-- The popped registers keep their own contents, and their slots move on (06 R156, R158). -/
def popsDone (pops : List (Nat × RegRef)) (s t : State) : State :=
  moveSlots pops (pops.foldl (fun t x => keepOwn x.2 s t) t)

/-- The effect of an instruction of `len` bytes after its pops, which gave `s1`; it issued in `s` (06 R158). -/
def afterPops (pops : List (Nat × RegRef)) (w : Option (Nat × RegRef)) (len : Nat) (s s1 : State) (e : Eff) : Eff :=
  match e with
  | .ok t =>
    match appended w len s s1 t with
    | .ok t2 => .ok (popsDone pops s t2)
    | .jump t2 _ => .ok t2
    | .stop t2 _ => .ok t2
    | .trap a b c => .trap a b c
    | .hold t2 r => .hold t2 r
    | .final t2 => .final t2
  | .jump t target =>
    match appended w len s s1 t with
    | .ok t2 => .jump (popsDone pops s t2) target
    | .jump t2 x => .jump t2 x
    | .stop t2 _ => .ok t2
    | .trap a b c => .trap a b c
    | .hold t2 r => .hold t2 r
    | .final t2 => .final t2
  | .stop t r => .stop (popsDone pops s t) r
  | .trap a b c => .trap a b c
  | .hold t r => .hold (unpopped s t) r
  | .final t => .final t

/-- A trap that R31 reports before STREAM_STATE: a cause of decoding, of a control target or of a control register. -/
def Eff.early (e : Eff) : Bool :=
  match e with
  | .trap code _ _ => decide (code < 7)
  | .ok _ | .jump _ _ | .stop _ _ | .hold _ _ | .final _ => false

/-- The first cause of a list. -/
def firstCause : List (Option Cause) → Option Cause
  | [] => none
  | some c :: _ => some c
  | none :: rest => firstCause rest

/-- The effect of an instruction that reads or writes bound registers (06 R158), its causes in the order of 01 R31
(those of several operands in operand order, log entry 30). -/
def streamed (u : Use) (s : State) (body : State → Eff) : Eff :=
  let pops := readSlots s u.reads
  let w := u.w.bind fun r => (boundSlot r s).map fun i => (i, r)
  match firstCause (pops.map fun x => badRead x.1 s) with
  | some c => .trap c.code c.detail c.val
  | none =>
    let bad := w.bind fun x => badWrite x.1 s
    let clear (t : State) : State :=
      match w with
      | some x => putBound x.2 0 t
      | none => t
    match popAll pops s, bad with
    | .ok s1, none => afterPops pops w u.len s s1 (body (clear s1))
    | .ok s1, some c =>
      let e := body (clear s1)
      if e.early then e else .trap c.code c.detail c.val
    | .fault _ _, some c => .trap c.code c.detail c.val
    | .wait _, some c => .trap c.code c.detail c.val
    | .merr _ _, some c => .trap c.code c.detail c.val
    | .fault t c, none =>
      .final (takeTrap c.code c.detail c.val (u.len == 8)
        (countRefused (.trap c.code c.detail c.val) { t with ts := { s.ts with slots := t.ts.slots } }))
    | .wait t, none => .hold (unpopped s t) .stalled
    | .merr code loc, none => .final (machineError code loc s)

/-- What an instruction that names bound register `a` as an operand sees of it when the cause that it meets comes before every
cause of the slot: the element where there is one, else a value that the manual does not state (01 R31; log entry 3). -/
def operandSeen (a : Reg) (s : State) : Word × State :=
  match boundSlot (.s a) s with
  | none => (getS a s, s)
  | some i =>
    if (badRead i s).isSome then (Config.freeWord s.free, tickFree s)
    else
      match popOne i (.s a) s with
      | .ok t => (getS a t, s)
      | .fault _ _ | .wait _ | .merr _ _ => (Config.freeWord s.free, tickFree s)

/-- An instruction that names no bound register (the plain case). -/
def plain (u : Use) (s : State) : Bool :=
  (u.reads ++ u.w.toList).all fun r => (boundSlot r s).isNone

/-- The execution of one instruction: its effect, through the stream slots where it names a bound register, and its
retirement (01 R31, 06 R158; 20 R391). -/
def execUse (u : Use) (s : State) (body : State → Eff) : State :=
  let e := if plain u s then body s else streamed u s body
  finish u (countRefused e s) e

/-- The execution of an instruction one of whose causes of execution needs no operand value: that cause comes before those of
the slots it names (01 R31; log entry 30). -/
def execFirst (u : Use) (s : State) (first : Option Cause) (body : State → Eff) : State :=
  match first with
  | some c => finish u s (.trap c.code c.detail c.val)
  | none => execUse u s body

end Sys2Proof.Machine
end

