-- ==== Sys2Proof/Machine/Operands.lean ====
section
/-! DEFINITION. Operand forms: registers, literals, immediates and constant-bank entries (02 R38, R39, R43, R45, R56). -/
namespace Sys2Proof.Machine

/-- The register that operand b names, if it names one (02 R39). -/
def bReg (b : OpB) : Option RegRef :=
  match b with
  | .reg r => some (.s r)
  | .lit _ => none

/-- The length of an instruction with operand b (02 R39). -/
def bLen (b : OpB) : Nat :=
  match b with
  | .reg _ => 4
  | .lit _ => 8

/-- Operand b of majors 0x01 and 0x09: a register, or the literal sign-extended (02 R39). -/
def intB (b : OpB) (s : State) : Word :=
  match b with
  | .reg r => getS r s
  | .lit x => sext64 x

/-- The format of a precision (02 R47). -/
def precFmt (z : Prec) : FFmt :=
  match z with
  | .s => .f32
  | .d => .f64

/-- The bits of a scalar register that a precision reads (01 R13). -/
def precBits (z : Prec) (x : Word) : Nat :=
  match z with
  | .s => x.toNat % 2 ^ 32
  | .d => x.toNat

/-- A 32-bit literal or constant-bank entry as an FP operand of a precision: read as FP32 and, in .d forms, widened as FCVT.d.s
does, with its flags (02 R39, 05 R120). -/
def fpConst (z : Prec) (x : Nat) : Nat × FFlags :=
  match z with
  | .s => (x, 0)
  | .d => convertFloat .f64 .rne (fdecode .f32 x) 0

/-- Operand b of majors 0x10 and 0x11 (02 R39). -/
def fpB (z : Prec) (b : OpB) (s : State) : Nat × FFlags :=
  match b with
  | .reg r => (precBits z (getS r s), 0)
  | .lit x => fpConst z x.toNat

/-- The memory key of constant-bank entry `k` for the focused context (01 R15, 20 R396). -/
def constEntryKey (k : BitVec 10) (s : State) : Nat :=
  if isBank s then lmKey s.here (s.ts.wbase + (s.ts.wsize - 4096) + 4 * k.toNat) else constKey s.here (4 * k.toNat)

/-- Constant-bank entry `k` (01 R15). -/
def constEntry (k : BitVec 10) (s : State) : W32 := BitVec.ofNat 32 (memValue s.mem 4 (constEntryKey k s))

/-- What follows the read of constant-bank entry `k`: a penumbra context's entries lie in its window, whose words may hold errors
(01 R24, 20 R396). -/
def constEff (k : BitVec 10) (s : State) (f : W32 → State → Eff) : Eff :=
  match readError (constEntryKey k s) 4 s with
  | some e => .final (machineError e.1 e.2 s)
  | none => f (constEntry k s) (correct (constEntryKey k s) 4 s)

/-- The registers of an A-format operation d := a op b. -/
def useABD (d a : Reg) (b : OpB) : Use :=
  { len := bLen b, a := some (.s a), b := bReg b, more := [], w := some (.s d) }

/-- The registers of an operation d := op a. -/
def useAD (d a : Reg) : Use := { len := 4, a := some (.s a), b := none, more := [], w := some (.s d) }

/-- The registers of an operation that only writes d. -/
def useD (d : Reg) : Use := { len := 4, a := none, b := none, more := [], w := some (.s d) }

/-- The registers of an operation that only reads a. -/
def useA (a : Reg) : Use := { len := 4, a := some (.s a), b := none, more := [], w := none }

/-- The registers of an operation that reads a and b and writes none. -/
def useAB (a b : Reg) : Use := { len := 4, a := some (.s a), b := some (.s b), more := [], w := none }

/-- A `Use` that reads further registers. -/
def withMore (u : Use) (l : List RegRef) : Use := { u with more := l }

/-- An instruction that names no register. -/
def useNone : Use := { len := 4, a := none, b := none, more := [], w := none }

end Sys2Proof.Machine
end

