-- ==== Sys2Proof/Machine/Flags.lean ====
section
/-! DEFINITION. Flag computations: what a rounding scalar operation accrues, and the draw it consumes (04 R88, R93). -/
namespace Sys2Proof.Machine

/-- The draws that one rounding in a mode consumes (04 R93). -/
def drawCount (m : Rnd) : Nat :=
  match m with
  | .sr => 1
  | .rne | .rtz | .rup | .rdn | .rna | .dyn => 0

/-- The draw of a rounding in a mode: draw `k` after SRCTR under SR; no other mode reads it (04 R92, R93). -/
def drawFor (m : Rnd) (k : Nat) (s : State) : Nat :=
  match m with
  | .sr => drawOf s k
  | .rne | .rtz | .rup | .rdn | .rna | .dyn => 0

/-- A floating-point result delivered to a scalar register, its flags accrued and its draw consumed (01 R13, 04 R88). -/
def deliver (d : Reg) (m : Rnd) (r : Nat × FFlags) (extra : FFlags) (s : State) : State :=
  setS d (w64 r.1) (accrue (r.2 ||| extra) (useDraws (drawCount m) s))

/-- The NV condition of FCMP (05 R117): a signalling NaN, or for an ordered relation any NaN. -/
def cmpFlags (ordered : Bool) (x y : FVal) : FFlags :=
  flagIf (x.isSNaN || y.isSNaN || (ordered && (x.isNaN || y.isNaN))) flNV

end Sys2Proof.Machine
end

