-- ==== Sys2Proof/Machine/Control.lean ====
section
/-! DEFINITION. Control transfers, traps and returns, and the words that no instruction has (01 R26, R30, R32; 02 R63;
05 R121 to R126). -/
namespace Sys2Proof.Machine

/-- The word that the fields of an instruction make, as EVAL reports it (01 R30). -/
def evalWord (r : Raw) : Word := w64 (rawWord r)

/-- A control transfer to a 64-bit target, checked under 01 R26. -/
def transfer (t : State) (target : Word) : Eff :=
  if targetOk target.toNat t then .jump t target.toNat else .trap 4 0 target

/-- The address of the instruction as a 64-bit value. -/
def pcW (s : State) : Word := zext64 s.ts.pc

/-- A branch (05 R121). -/
def branch (cond : Word → Word → Bool) (a b : Reg) (off : BitVec 12) (s : State) : State :=
  execUse (useAB a b) s fun t =>
    if cond (getS a t) (getS b t) then transfer t (pcW t + sext64 off * 4) else .ok t

/-- BEQ (05 R121). -/
def execBeq (a b : Reg) (off : BitVec 12) (s : State) : Host.Outcome State Fault Refusal :=
  .next (branch (fun x y => x == y) a b off s)
/-- BNE (05 R121). -/
def execBne (a b : Reg) (off : BitVec 12) (s : State) : Host.Outcome State Fault Refusal :=
  .next (branch (fun x y => x != y) a b off s)
/-- BLT (05 R121). -/
def execBlt (a b : Reg) (off : BitVec 12) (s : State) : Host.Outcome State Fault Refusal :=
  .next (branch (fun x y => decide (x.toInt < y.toInt)) a b off s)
/-- BGE (05 R121). -/
def execBge (a b : Reg) (off : BitVec 12) (s : State) : Host.Outcome State Fault Refusal :=
  .next (branch (fun x y => decide (y.toInt ≤ x.toInt)) a b off s)
/-- BLTU (05 R121). -/
def execBltu (a b : Reg) (off : BitVec 12) (s : State) : Host.Outcome State Fault Refusal :=
  .next (branch (fun x y => decide (x.toNat < y.toNat)) a b off s)
/-- BGEU (05 R121). -/
def execBgeu (a b : Reg) (off : BitVec 12) (s : State) : Host.Outcome State Fault Refusal :=
  .next (branch (fun x y => decide (y.toNat ≤ x.toNat)) a b off s)

/-- The link: the address of the next instruction (05 R122). -/
def link (d : Reg) (t : State) : State := setS d (pcW t + 4) t

/-- JumpAndLink with its target formed first (05 R122). -/
def jumpAndLink (d : Reg) (target : Word) (t : State) : Eff := transfer (link d t) target

/-- JAL (05 R122). -/
def execJal (d : Reg) (off : BitVec 20) (s : State) : Host.Outcome State Fault Refusal :=
  .next (execUse (useD d) s fun t => jumpAndLink d (pcW t + sext64 off * 4) t)
/-- JALR (05 R122). -/
def execJalr (d a : Reg) (imm : BitVec 15) (s : State) : Host.Outcome State Fault Refusal :=
  .next (execUse (useAD d a) s fun t => jumpAndLink d (getS a t + sext64 imm) t)

/-- The residency tag of a page of the core's local memory (05 R123). A page with no entry is RESIDENT, as are the pages
from 0xF_C000 on, for which there are no tags (log entry 65). -/
def residency (page : Nat) (s : State) : PageSt × Nat := lookupD (.resident, 0) s.core.tags page

/-- Fjmp (05 R123); the pages of a penumbra window are RESIDENT (20 R396). -/
def fjmpTo (d : Reg) (target : Word) (t : State) : Eff :=
  if targetOk target.toNat t then
    let tag := residency (target.toNat / 4096) t
    if tag.1 = .resident ∨ isBank t = true then .jump (link d t) target.toNat
    else .trap 6 (if tag.1 = .landing then tag.2 else 0x40) target
  else .trap 4 0 target

/-- FJMP (05 R123). -/
def execFjmp (d a : Reg) (imm : BitVec 15) (s : State) : Host.Outcome State Fault Refusal :=
  .next (execUse (useAD d a) s fun t => fjmpTo d (getS a t + sext64 imm) t)

/-- TRAP (05 R124). -/
def execTrap (imm : BitVec 15) (s : State) : Host.Outcome State Fault Refusal :=
  .next (finish useNone s (.trap 5 0 (zext64 imm)))

/-- ERET (01 R32, 05 R125). -/
def execEret (s : State) : Host.Outcome State Fault Refusal :=
  .next (finish useNone s
    (if inTrap s then
      (if targetOk (returnTarget s.ts.epc) s then .jump (modStatus eretStatus s) (returnTarget s.ts.epc)
       else .trap 4 0 (w64 (returnTarget s.ts.epc)))
     else .trap 1 0 (evalWord (.a 0 0 0 0 0x71))))

/-- UXRET (05 R126). -/
def execUxret (s : State) : Host.Outcome State Fault Refusal :=
  .next (finish useNone s
    (if inUx s = false ∨ inTrap s = true then .trap 1 0 (evalWord (.a 1 0 0 0 0x71))
     else if targetOk (returnTarget s.ts.uxepc) s then .jump (modStatus uxretStatus s) (returnTarget s.ts.uxepc)
     else .trap 4 0 (w64 (returnTarget s.ts.uxepc))))

/-- IFENCE empties the fetch buffer (05 R129). -/
def execIfence (s : State) : Host.Outcome State Fault Refusal :=
  .next (finish useNone s (.ok (emptyFetch s)))

/-- The word at the pc lies outside the fetch range (01 R26). -/
def pcOutside (s : State) : Bool := decide (fetchLimit s < s.ts.pc.toNat + 4)

/-- A word that no instruction has: FETCH_FAULT where the pc itself lies outside the fetch range, else ILLEGAL (01 R30,
02 R63). -/
def execIllegalEncoding (w : W32) (s : State) : Host.Outcome State Fault Refusal :=
  .next (if pcOutside s then takeTrap 4 0 (pcW s) false s else takeTrap 1 0 (zext64 w) (needsLit w.toNat) s)

/-- FETCH_FAULT of a trailing literal word that lies outside the fetch range (01 R26, R31). -/
def literalFault (s : State) : State := takeTrap 4 0 (pcW s + 4) true s

end Sys2Proof.Machine
end

