-- ==== Sys2Proof/Machine/System.lean ====
section
/-! DEFINITION. Control registers and system instructions (01 R16 to R21; 05 R127 to R131; 16 R332, R334; 20 R397, R401;
25 R466). -/
namespace Sys2Proof.Machine

/-- The outcome of reading a control register. -/
inductive CtlRd where
  | val (x : Word) (s : State)
  | reserved
  | wait

/-- A read of the control register with an index, past the privilege check (01 R17, R21; 11 R237; 15 R323; 16 R332, R334;
20 R395, R397; 25 R466). -/
def ctlRead (i : Nat) (s : State) : CtlRd :=
  match i with
  | 0x000 => .val s.ts.status s
  | 0x001 => .val s.ts.epc s
  | 0x002 => .val s.ts.ecause s
  | 0x003 => .val s.ts.eval s
  | 0x004 => .val s.ts.tvec s
  | 0x005 => .val s.ts.uxvec s
  | 0x006 => .val s.ts.uxid s
  | 0x007 => .val s.ts.uxepc s
  | 0x008 => .val (w64 s.time) s
  | 0x009 => .val (zext64 s.ts.srctr) s
  | 0x00A => .val (if isBank s then 0 else s.core.lmhwm) s
  | 0x00B => if s.core.matq.isEmpty then .val s.core.mstat s else .wait
  | 0x00C => if s.core.matq.isEmpty then .val s.core.mctx s else .wait
  | 0x020 => .val (vecGet s.ts.budget 0) s
  | 0x021 => .val (vecGet s.ts.budget 1) s
  | 0x022 => .val (vecGet s.ts.budget 2) s
  | 0x023 => .val (vecGet s.ts.budget 3) s
  | 0x100 => .val s.ts.rankid s
  | 0x101 => .val s.ts.coord s
  | 0x102 => .val s.ts.launchid s
  | 0x103 => .val s.ts.rect s
  | 0x104 => .val s.ts.deadline s
  | 0x105 => .val s.ts.srseed s
  | 0x106 => .val s.ts.partid s
  | 0x107 => .val s.ts.tsid s
  | 0x108 => .val s.ts.prio s
  | 0x109 => .val s.ts.priv s
  | 0x10A => .val s.ts.plen s
  | 0x200 => .val s.core.role s
  | 0x201 => .val (w64 s.fw.profile) s
  | 0x202 => .val s.core.meloc { s with core := { s.core with meloc := 0 } }
  | _ => .reserved

/-- The bits of TVEC and UXVEC that are not reserved (01 R20). -/
def vecBits : Nat := 0xFFFFD

/-- A write of STATUS (01 R18): FFLAGS, RM and UXEN take the value; none where it breaks a limit. -/
def statusWritten (x old : Word) : Option Word :=
  if bitsOf x.toNat 16 48 != 0 || bitsOf x.toNat 5 3 != 0 || decide (6 ≤ bitsOf x.toNat 8 3) then none
  else some ((x &&& 0xFF04) ||| (old &&& 0xFFFFFFFFFFFF00FB))

/-- A write of TVEC or UXVEC breaks a limit of 01 R20. -/
def badVec (x : Word) (s : State) : Bool :=
  bitsOf x.toNat 20 44 != 0 || bitOf x.toNat 1 || (!isF s && decide (0x3F000 ≤ bitsOf x.toNat 2 18))

/-- A raise of LMHWM takes back every window that it rises above (20 R401). -/
def reclaimAbove (mark : Nat) (s : State) : State :=
  { s with core := { s.core with lent := s.core.lent.map fun w => if w.base < mark then { w with reclaim := true } else w } }

/-- A write of LMHWM (01 R17, R25; 20 R397, R401). -/
def lmhwmWritten (x : Word) (s : State) : Option State :=
  if isBank s then some s
  else if x.toNat % 4096 ≠ 0 ∨ 0xFC000 < x.toNat then none
  else
    let t := if s.core.lmhwm.toNat < x.toNat then reclaimAbove x.toNat s else s
    some { t with core := { t.core with lmhwm := x } }

/-- The reserved fields of the read-only registers that have a field map (15 R323, 16 R332; 01 R21; 11 R237), as a mask, and bits
63:48 of SRCTR (01 R17); log entry 59. -/
def ctlReserved (i : Nat) : Nat :=
  match i with
  | 0x006 => 2 ^ 64 - 2 ^ 28
  | 0x009 => 2 ^ 64 - 2 ^ 48
  | 0x00C => 2 ^ 63 - 2 ^ 19 + 2 ^ 11
  | 0x101 => 2 ^ 64 - 2 ^ 13 + (2 ^ 8 - 2 ^ 6)
  | 0x103 => 2 ^ 64 - 2 ^ 24 + (2 ^ 13 - 2 ^ 6)
  | 0x109 => 2 ^ 58 - 2 ^ 53
  | _ => 0

/-- A write of the control register with an index, past the privilege check (05 R127): none where it traps CTL_RESERVED. MELOC,
whose access code RC gives no write rule, keeps its value (00 R6; log entry 59). -/
def ctlWrite (i : Nat) (x : Word) (s : State) : Option State :=
  match i with
  | 0x000 => (statusWritten x s.ts.status).map fun w => { s with ts := { s.ts with status := w } }
  | 0x001 => some { s with ts := { s.ts with epc := x } }
  | 0x002 => if bitsOf x.toNat 17 47 = 0 then some { s with ts := { s.ts with ecause := x } } else none
  | 0x003 => some { s with ts := { s.ts with eval := x } }
  | 0x004 => if badVec x s then none else some { s with ts := { s.ts with tvec := x } }
  | 0x005 => if badVec x s then none else some { s with ts := { s.ts with uxvec := x } }
  | 0x007 => some { s with ts := { s.ts with uxepc := x } }
  | 0x00A => lmhwmWritten x s
  | 0x00B =>
    if bitsOf x.toNat 5 59 = 0 then some { s with core := { s.core with mstat := s.core.mstat &&& ~~~x } } else none
  | _ =>
    match ctlRead i s with
    | .val _ _ => if x.toNat &&& ctlReserved i = 0 then some s else none
    | .wait => if x.toNat &&& ctlReserved i = 0 then some s else none
    | .reserved => none

/-- An index of 0x200–0x2FF at U (01 R16, R23). -/
def ctlPrivileged (i : Nat) (s : State) : Bool := !isF s && decide (0x200 ≤ i) && decide (i < 0x300)

/-- A read of a control register by CTLRD (05 R127, R128), with the word that EVAL reports. -/
def readCtl (i : Nat) (d : Reg) (s : State) : State :=
  if ctlPrivileged i s then finish useNone s (.trap 2 0 (evalWord (.i i 0 d.toNat 0x72)))
  else execUse (useD d) s fun t =>
    match ctlRead i t with
    | .val x t1 => .ok (setS d x t1)
    | .wait => .hold t .stalled
    | .reserved => .trap 3 (i % 256) 0

/-- No control register has the index (01 R16). -/
def ctlUnassigned (i : Nat) (s : State) : Bool :=
  match ctlRead i s with
  | .reserved => true
  | .val _ _ | .wait => false

/-- A write of a control register by CTLWR (05 R127, R128); a reserved index comes before every cause of a stream slot
(01 R31). -/
def writeCtl (i : Nat) (a : Reg) (s : State) : State :=
  if ctlPrivileged i s then finish useNone s (.trap 2 0 (evalWord (.i i a.toNat 0 0x73)))
  else if ctlUnassigned i s then
    let x := operandSeen a s
    finish (useA a) x.2 (.trap 3 (i % 256) x.1)
  else execUse (useA a) s fun t =>
    match ctlWrite i (getS a t) t with
    | some t1 => .ok t1
    | none => .trap 3 (i % 256) (getS a t)

/-- CTLRD (05 R127). -/
def execCtlrd (c : BitVec 12) (d : Reg) (s : State) : Host.Outcome State Fault Refusal := .next (readCtl c.toNat d s)
/-- CTLWR (05 R127). -/
def execCtlwr (c : BitVec 12) (a : Reg) (s : State) : Host.Outcome State Fault Refusal := .next (writeCtl c.toNat a s)
/-- STATUS_WRITE: CTLWR of STATUS (01 R18, 05 R128). -/
def execStatusWrite (a : Reg) (s : State) : Host.Outcome State Fault Refusal := .next (writeCtl 0x000 a s)
/-- LMHWM_WRITE: CTLWR of LMHWM (20 R401). -/
def execLmhwmWrite (a : Reg) (s : State) : Host.Outcome State Fault Refusal := .next (writeCtl 0x00A a s)
/-- MSTAT_WRITE: CTLWR of MSTAT (16 R334). -/
def execMstatWrite (a : Reg) (s : State) : Host.Outcome State Fault Refusal := .next (writeCtl 0x00B a s)
/-- MELOC_READ: CTLRD of MELOC, which a read clears (25 R466). -/
def execMelocRead (d : Reg) (s : State) : Host.Outcome State Fault Refusal := .next (readCtl 0x202 d s)

/-- HALT (05 R131). -/
def execHalt (s : State) : Host.Outcome State Fault Refusal :=
  .next (finish useNone s (if isF s then .stop s .halted else .trap 2 0 (evalWord (.a 3 0 0 0 0x71))))

/-- RAND writes 64 free bits (05 R130; log entry 3). -/
def execRand (d : Reg) (s : State) : Host.Outcome State Fault Refusal :=
  .next (execUse (useD d) s fun t =>
    if t.core.entropyBad then .final (machineError 0x85 0 t)
    else .ok (setS d (Config.freeWord t.free) (tickFree t)))

end Sys2Proof.Machine
end

