-- ==== Sys2Proof/Machine/Interrupts.lean ====
section
/-! DEFINITION. What is taken at an instruction boundary: user-level interrupts (15 R322, R323) and scheduling events
(01 R34; 09 R212; 20 R405), and the abandonment of a wait (10 R223). -/
namespace Sys2Proof.Machine

/-- The gang arrival of a core withdrawn where the barrier has not decided it (16 R346). -/
def withdrawGang (g : Option GangArrival) (tid : Nat) : Option GangArrival :=
  match g with
  | none => none
  | some x => if x.tid == tid && x.decided.isNone && !x.started then none else some x

/-- A waiting or stalled instruction of thread set `t` of core `c` is abandoned: a WAITA leaves its queue, a gang arrival is
withdrawn and a forwarded fault is dropped; a barrier arrival and a place among event waiters are kept (08 R193; 10 R223;
13 R304; 16 R346; 19 R388). -/
def abandonAt (c t : Nat) (s : State) : State :=
  let s1 := { s with waiters := s.waiters.filter fun w => !(w.core == c && w.tid == t) }
  let s2 := modCore c (fun k => { k with gang := withdrawGang k.gang t }) s1
  let n := (getTs c t s2).ticket
  modTs c t (fun x => { x with ticket := none, palTaken := none, trgWait := none, enqWord := none })
    { s2 with tickets := s2.tickets.filter fun x => !(n == some x.num) }

/-- The wait of the focused thread set abandoned. -/
def abandon (s : State) : State := abandonAt s.here s.tid s

/-- The gang barrier has decided about the MGANG of the focused thread set, which retires or traps before anything else is taken (16
R345, R346). -/
def gangDecided (s : State) : Bool :=
  match s.core.gang with
  | some g => g.tid == s.tid && (g.started || g.decided.isSome)
  | none => false

/-- UXID of a completion (15 R323). -/
def uxidOf (c : Completion) : Word := w64 (c.tag % 65536 + c.cls % 16 * 2 ^ 16 + c.status % 256 * 2 ^ 20)

/-- STATUS after user-level interrupt entry (15 R322). -/
def uxStatus (w : Word) : Word := setBit (setBit w 3 true) 2 false

/-- A user-level interrupt can be taken now (01 R33, 15 R322). -/
def uxDue (s : State) : Bool := !s.ts.ux.isEmpty && uxEn s && !inTrap s && !gangDecided s

/-- The entry of a user-level interrupt for the oldest completion that raised one (15 R322). -/
def uxEnter (c : Completion) (s : State) : State :=
  if c.uxh = 0 ∧ s.ts.uxvec.getLsbD 0 = false then s
  else
    let h := if c.uxh = 0 then bitsOf s.ts.uxvec.toNat 2 18 else c.uxh
    if isF s = false ∧ 0x3F000 ≤ h then takeTrap 0x60 0 (w64 (h * 4)) false s
    else
      { s with ts := { s.ts with uxepc := zext64 s.ts.pc, uxid := uxidOf c, status := uxStatus s.ts.status, fbuf := [],
                                 pc := BitVec.ofNat 20 (h * 4), run := .ready } }

/-- UX_ENTRY (15 R322): with no interrupt to take it changes nothing. -/
def execUxEntry (s : State) : Host.Outcome State Fault Refusal :=
  .next (match s.ts.ux with
    | [] => s
    | c :: rest =>
      if uxDue s then
        let t := abandon s
        uxEnter c { t with ts := { t.ts with ux := rest } }
      else s)

/-- A thread set takes the overrun event of a class: a grace of 0 counts the charges made from the last taking on (09 R212). -/
def noteOverrun (c : Cause) (s : State) : State :=
  if c.code = 0x40 then
    modLaunch (myPid s) (myLid s) (fun l => { l with graceFrom := vecSet l.graceFrom c.detail (some (vecGet l.charged c.detail)) }) s
  else s

/-- A scheduling event is delivered (01 R34): a revocation that finds no usable handler is discarded (20 R405). -/
def deliverEvent (c : Cause) (s : State) : State :=
  if c.code = 0x41 ∧ (tvecEn s = false ∨ inTrap s = true) then s
  else takeTrap c.code c.detail c.val false (abandon (noteOverrun c s))

/-- SCHEDULING_EVENT (01 R34): with no event pending, or for a thread set that takes none, it changes nothing (09 R212). -/
def execSchedulingEvent (s : State) : Host.Outcome State Fault Refusal :=
  .next (match s.ts.sched with
    | [] => s
    | c :: rest =>
      if gangDecided s then s
      else match s.ts.run with
      | .ready | .stalled | .waiting => deliverEvent c { s with ts := { s.ts with sched := rest } }
      | .idle | .ended | .halted => s)

end Sys2Proof.Machine
end

