-- ==== Sys2Proof/Machine/Issue.lean ====
section
/-! DEFINITION. Which thread set issues next (08 R171), instruction fetch (01 R26 to R28), the passing of device time with the
charge of class C (09 R211), and the budget registers (01 R17). -/
namespace Sys2Proof.Machine

/-! ## Device time and class C -/

/-- The core clock in tenths of a GHz (25 R472). -/
def clockTenths (profile : Nat) : Nat :=
  match profile with
  | 0 => 20 | 1 => 16 | _ => 12

/-- Core cycles up to a device time under the current profile. -/
def cyclesAt (profile t : Nat) : Nat := t * clockTenths profile / 10

/-- A launch with `n` more units charged in a class (09 R211). -/
def Launch.charge (k n : Nat) (l : Launch) : Launch := { l with charged := vecSet l.charged k (vecGet l.charged k + n) }

/-- The cores that a launch holds but that a pre-emption message has reached, or that have been resumed and have not issued since
(19 R383, R385). -/
def restingCores (l : Launch) (s : State) : Nat :=
  ((s.core :: (s.cores.filter fun x => x.1 != s.here).map fun x => x.2).filter fun k =>
    (k.pre != .none || k.resumed) && k.owner == some (l.pid, l.lid)).length

/-- The charge of class C for a number of core cycles: one for each core that the launch holds and that is not pre-empted,
from its release to its completion, from its first issue after a resume; penumbra launches are charged as they issue (09 R211; 19
R383, R385; 20 R399). -/
def chargeC (cycles : Nat) (s : State) (l : Launch) : Launch :=
  if l.st = .running ∧ l.pen = false then l.charge 0 (cycles * (2 ^ (l.lgw + l.lgh) - l.held.length - restingCores l s)) else l

/-- One step's device time passes (log entries 3 and 7). -/
def passTime (s : State) : State :=
  let t1 := s.time + Config.elapsed s.tick
  let n := cyclesAt s.fw.profile t1 - cyclesAt s.fw.profile s.time
  { s with time := t1, tick := s.tick + 1, launches := s.launches.map fun l => chargeC n s l }

/-! ## Selection (08 R171) -/

/-- Thread set `t` of the focused core is READY. -/
def isReady (t : Nat) (s : State) : Bool := (getTs s.here t s).run == .ready

/-- Thread set `t` of the focused core holds an instruction that did not retire: it is looked at again (08 R171). -/
def isBlocked (t : Nat) (s : State) : Bool :=
  let r := (getTs s.here t s).run
  r == .stalled || r == .waiting

/-- The ids after `t` in cyclic order, `t` last. -/
def cyclic (t : Nat) : List Nat := [(t + 1) % 4, (t + 2) % 4, (t + 3) % 4, t % 4]

/-- The thread sets 0–3 may issue: no pre-emption has stopped them (19 R383). -/
def ownersRun (s : State) : Bool := s.core.pre == .none

/-- A reserve bank of the focused core whose window is being taken back issues nothing (20 R401, R404). -/
def bankStopped (t : Nat) (s : State) : Bool := s.core.lent.any fun w => w.bank == t && w.reclaim

/-- The focused thread set may not issue: its core is being pre-empted, its window is being taken back, or its die's clocks
stand still (19 R383, 20 R401, 25 R473). -/
def issueStopped (s : State) : Bool :=
  (decide (s.tid < 4) && !ownersRun s) || bankStopped s.tid s || !clocked s s.here

/-- Another of thread sets 0–3 than the current one is among those READY (08 R171 step 4). -/
def othersReady (rd : List Nat) (t : Nat) : Bool := (cyclic t).any fun i => i != t && rd.contains i

/-- The one of thread sets 0–3 that issues next, of those READY (08 R171 steps 2 to 4). -/
def pickOwner (rd : List Nat) (s : State) : Option Nat :=
  if ownersRun s = false then none
  else if rd.contains s.core.cur && !(decide (256 ≤ s.core.count) && othersReady rd s.core.cur) then some s.core.cur
  else (cyclic s.core.cur).find? fun i => rd.contains i

/-- The reserve bank that issues next: a READY one, alternating (08 R171 step 5, 20 R398). -/
def pickBank (rd : List Nat) (s : State) : Option Nat :=
  let other := if s.core.bank = 4 then 5 else 4
  let ok (t : Nat) : Bool := rd.contains t && !bankStopped t s
  if ok other then some other else if ok s.core.bank then some s.core.bank else none

/-- A thread set whose instruction did not retire, where none is READY. -/
def pickBlocked (s : State) : Option Nat :=
  if isBlocked 6 s then some 6
  else if ownersRun s && (cyclic s.core.cur).any fun i => isBlocked i s then (cyclic s.core.cur).find? fun i => isBlocked i s
  else if isBlocked 4 s && !bankStopped 4 s then some 4
  else if isBlocked 5 s && !bankStopped 5 s then some 5
  else none

/-- The thread sets that selection looks at: those READY, but for one that has yielded this cycle (10 R230). -/
def candidates (rd : List Nat) (s : State) : List Nat := rd.filter fun t => s.core.yielded != some t

/-- The thread set of the focused core that issues next, of those READY, if there is one (08 R171). -/
def pick (rd : List Nat) (s : State) : Option Nat :=
  if clocked s s.here = false then none
  else
    let c := candidates rd s
    if c.contains 6 then some 6
    else
      match pickOwner c s with
      | some t => some t
      | none => pickBank c s

/-- The focus on thread set `t` of the focused core, which issues: it becomes the current one, and the count of R171 step 4 goes
on while another of thread sets 0–3 is READY, which one that has yielded is not in this cycle (10 R230). -/
def switchTo (rd : List Nat) (t : Nat) (s : State) : State :=
  let n := if othersReady (candidates rd s) t then (if s.core.cur = t then s.core.count + 1 else 1) else 0
  let k (x : Core) : Core :=
    if t < 4 then { x with cur := t, count := n, yielded := none, resumed := false }
    else { x with bank := if t = 6 then x.bank else t, count := 0, yielded := none }
  modCore s.here k (focusOn s.here t s)

/-- The focus on thread set `t` of the focused core, whose instruction did not retire and executes again: after a resume that is an
issue (19 R385). -/
def lookAt (t : Nat) (s : State) : State :=
  focusOn s.here t (if decide (t < 4) && ownersRun s && clocked s s.here then { s with core := { s.core with resumed := false } } else s)

/-- A cycle in which no thread set of the focused core issues ends the rest after a YIELD (10 R230). -/
def rested (s : State) : State := { s with core := { s.core with yielded := none } }

/-- A penumbra context that issues is charged a cycle of class C (20 R399). -/
def chargeIssue (s : State) : State :=
  modLaunch (myPid s) (myLid s) (fun l => if l.pen then l.charge 0 1 else l) s

/-- THREAD_SWITCH (08 R171 step 4): after 256 consecutive issues, with another of thread sets 0–3 READY, the core switches. -/
def execThreadSwitch (s : State) : Host.Outcome State Fault Refusal :=
  .next (if 256 ≤ s.core.count then
    match (cyclic s.core.cur).find? fun i => i != s.core.cur && isReady i s with
    | some t => { focusOn s.here t s with core := { (focusOn s.here t s).core with cur := t, count := 0 } }
    | none => s
  else s)

/-! ## Budget registers (01 R17, 09 R211, R212) -/

/-- What a budget register shows of a launch: the declared budget less the charges, at least 0, or the remaining grace after a
TRAP overrun; all ones where the class is unlimited (01 R17, 09 R211, R212; log entry 10). -/
def Launch.remaining (l : Launch) (k : Nat) : Nat :=
  if vecGet l.unlimited k then 2 ^ 64 - 1
  else
    match vecGet l.grace k with
    | some g => vecGet l.declared k + g - vecGet l.charged k
    | none => vecGet l.declared k - vecGet l.charged k

/-- BUDGET_REFRESH (01 R17): the budget registers of the focused thread set take what its launch has left. -/
def execBudgetRefresh (s : State) : Host.Outcome State Fault Refusal :=
  .next (match myLaunch s with
    | none => s
    | some l => { s with ts := { s.ts with budget := vecGen 4 fun k => w64 (l.remaining k) } })

/-! ## Fetch (01 R26 to R28) -/

/-- The key of the local-memory byte at offset `off` from the pc. -/
def pcKey (off : Nat) (s : State) : Nat := lmKey s.here (pcOff s.ts + off)

/-- The old forms in which the word at offset `off` from the pc may still be executed (01 R28). -/
def oldForms (off : Nat) (s : State) : List W32 :=
  (s.ts.fbuf.filter fun x => x.1 == pcOff s.ts + off).map fun x => x.2

/-- The word executed where old forms are allowed beside the new one: free bits decide (01 R28; log entry 3). -/
def pickForm : List W32 → W32 → State → W32 × State
  | [], w, s => (w, s)
  | o :: os, w, s =>
    if o = w then pickForm os w s
    else if Config.freeBit s.free then (o, tickFree s)
    else pickForm os w (tickFree s)

/-- The 32-bit word at offset `off` from the pc, as the thread set executes it; the read corrects a single-bit error (01 R24). -/
def fetchWord (off : Nat) (s : State) : W32 × State :=
  pickForm (oldForms off s) (codeWord s.here s.tid (myPid s, myLid s) (pcOff s.ts + off) s) (correct (pcKey off s) 4 s)

/-- The outcome of fetching an instruction: the instruction, or the fetch has failed and been dealt with. -/
inductive Fetched where
  | run (i : Instr) (s : State)
  | failed (s : State)

/-- An uncorrectable word met by a fetch (01 R24, 19 R374). -/
def fetchError (off : Nat) (s : State) : Option (Nat × Word) := readError (pcKey off s) 4 s

/-- The literal of an instruction at the pc: the words decoded, in the order of 02 R63 (step 3, then the literal word). -/
noncomputable def fetchLiteral (w : W32) (s : State) : Fetched :=
  match decodeWord w 0 with
  | none => .run (.illegalEncoding w) s
  | some _ =>
    if fetchLimit s < s.ts.pc.toNat + 8 then .failed (literalFault s)
    else
      match fetchError 4 s with
      | some e => .failed (machineError e.1 e.2 s)
      | none =>
        let x := fetchWord 4 s
        match decodeWord w x.1 with
        | some i => .run i x.2
        | none => .run (.illegalEncoding w) x.2

/-- The instruction at the pc of the focused thread set (01 R26 to R28, 02 R63). -/
noncomputable def fetch (s : State) : Fetched :=
  if pcOutside s then .run (.illegalEncoding 0) s
  else
    match fetchError 0 s with
    | some e => .failed (machineError e.1 e.2 s)
    | none =>
      let w := fetchWord 0 s
      if needsLit w.1.toNat then fetchLiteral w.1 w.2
      else
        match decodeWord w.1 0 with
        | some i => .run i w.2
        | none => .run (.illegalEncoding w.1) w.2

/-- A thread set that would issue has no task. -/
def ThreadSet.quiet (t : ThreadSet) : ThreadSet :=
  match t.run with
  | .ready | .stalled | .waiting => { t with run := .idle }
  | .idle | .ended | .halted => t

/-- An instruction's bytes stored at the pc of the focused thread set, which is READY, the one of its core that is selected, and
alone on the agenda (`withFetchWord`). -/
def placeWord (w : Nat) (s : State) : State :=
  let k := pcKey 0 s
  { s with
    ts := { s.ts with run := .ready, fbuf := [], sched := [], ux := [] }
    core := { s.core with pre := .none, lent := s.core.lent.map (fun w => { w with reclaim := false }), cur := s.tid % 4, count := 0,
                          yielded := none, tsets := vecGen 7 fun t => (vecGet s.core.tsets t).quiet }
    pend := s.pend.filter fun p => !(p.core == s.here && p.tid == s.tid && p.overlaps k 8)
    fw := { s.fw with tripped := s.fw.tripped.filter fun d => d != dieOf s.here s }
    mem := memWrite k (leBytes 8 w) s.mem
    bad := s.bad.filter fun x => !(decide (x * 8 < k + 8) && decide (k < x * 8 + 8))
    agenda := [.issue s.here s.tid] }

end Sys2Proof.Machine
end

