-- ==== Sys2Proof/Machine/Flows.lean ====
section
/-! DEFINITION. The flows of virtual network 3: which messages they carry, and the order in which those arrive (08 R194, R196; 22
R414, R415, R417). -/
namespace Sys2Proof.Machine

/-! ## Their flows (22 R414) -/

/-- The flow of virtual network 3 from one core to another (22 R414). -/
def msgFlow (c d : Nat) (s : State) : Flow := { src := routerOf c s, dst := routerOf d s, vn := 3 }

/-- The cores that own line CLINE in each quad of a chain message's block (08 R194). -/
def chainCores (cfg : Word) : List Nat :=
  let g := bitsOf cfg.toNat 45 2
  let w := bitsOf cfg.toNat 42 3
  let r0 := bitsOf cfg.toNat 39 3 / 2 ^ g * 2 ^ g
  let c0 := bitsOf cfg.toNat 33 6 / 2 ^ w * 2 ^ w
  (genList (2 ^ g) fun i => genList (2 ^ w) fun j => ((r0 + i) % 8 * 4 + bitsOf cfg.toNat 28 5 / 8) * 64 + (c0 + j) % 64).flatten

/-- The flow that carries a palette message, between its core and the launch's palette home, the core of rank 0 (12 R271, 22 R414). -/
def PalMsg.flow (m : PalMsg) (s : State) : Option Flow :=
  (launchOf m.pid m.lid s).map fun l =>
    let h := routerOf (l.row0 * 64 + l.col0) s
    let c := routerOf m.core s
    if m.step = .ack then { src := c, dst := h, vn := 3 } else { src := h, dst := c, vn := 3 }

/-- A message has been injected: what its SEND releases has been performed (08 R196). -/
def Msg.injected (m : Msg) (s : State) : Bool := performedAll m.after m.core s

/-! ## Their order (22 R415, R417) -/

/-- A message, chain message or palette message injected before number `n` into a flow has not arrived. -/
def flowAhead (f : Flow) (n : Nat) (s : State) : Bool :=
  (s.msgs.any fun m => decide (m.num < n) && m.injected s && msgFlow m.core m.dst s == f) ||
    (s.chains.any fun m => decide (m.num < n) && m.left.any fun c => msgFlow m.core c s == f) ||
      s.palMsgs.any fun m => decide (m.num < n) && m.flow s == some f

/-- What number `n` of a flow carries cannot arrive now: a failed link or a drain holds it, or something injected into the flow
before it has not arrived (22 R415, R417). -/
def flowWaits (f : Flow) (n : Nat) (s : State) : Bool := flowHeld f n s || flowAhead f n s

/-- A chain message cannot reach one of its cores now. -/
def ChainMsg.waits (m : ChainMsg) (s : State) (c : Nat) : Bool := flowWaits (msgFlow m.core c s) m.num s

/-- A palette message cannot arrive now. -/
def PalMsg.stuck (m : PalMsg) (s : State) : Bool :=
  match m.flow s with
  | some f => flowWaits f m.num s
  | none => false

/-- An earlier message of the same sender to the same thread set goes before another (08 R196). -/
def Msg.before (x m : Msg) : Bool := x.core == m.core && x.tid == m.tid && x.dst == m.dst && x.dts == m.dts

end Sys2Proof.Machine
end

