-- ==== Sys2Proof/Machine/EventUnit.lean ====
section
/-! DEFINITION. The quad event unit (08 R189 to R194; 10 R224, R225). -/
namespace Sys2Proof.Machine

/-! ## Lines -/

/-- TYPE of a configuration word (08 R190): 0 off, 1 barrier, 2 event, 3 mutex. -/
def evType (cfg : Word) : Nat := bitsOf cfg.toNat 16 2
/-- MEMBERS. -/
def evMembers (cfg : Word) : Nat := bitsOf cfg.toNat 0 16
/-- CIN. -/
def evCin (cfg : Word) : Nat := bitsOf cfg.toNat 20 8
/-- CHEN. -/
def evChen (cfg : Word) : Bool := bitOf cfg.toNat 47

/-- The core that owns line `line` of the quad of core `c` (08 R189). -/
def lineCore (c line : Nat) : Nat := quadCore c (line / 8 % 4)

/-- The cores of a launch hold state in a frame while pre-empted: the core's launch state changed by `f`, where the launch
holds the core or its frame (19 R384, R386). -/
def modOwned (pid lid c : Nat) (f : Core → Core) (s : State) : State :=
  if (getCore c s).owner = some (pid, lid) then modCore c f s
  else modLaunch pid lid (fun l => { l with held := modWhere (fun h => h.core == c) (fun h => { h with saved := f h.saved }) l.held }) s

/-- A core belongs to a launch, running or pre-empted. -/
def ownedBy (pid lid c : Nat) (s : State) : Bool :=
  (getCore c s).owner == some (pid, lid) ||
    (match launchOf pid lid s with
     | some l => l.held.any fun h => h.core == c
     | none => false)

/-- The state of a core as a launch sees it: the core, or the frame that holds it. -/
def ownedCore (pid lid c : Nat) (s : State) : Core :=
  if (getCore c s).owner = some (pid, lid) then getCore c s
  else
    match launchOf pid lid s with
    | some l => ((l.held.find? fun h => h.core == c).map fun h => h.saved).getD (getCore c s)
    | none => getCore c s

/-- Line `line` of the quad of core `c`, as the focused launch reaches it: a pre-empted core's lines go on (08 R193). -/
def lineOf (c line : Nat) (s : State) : EvLine := vecGet (ownedCore (myPid s) (myLid s) (lineCore c line) s).lines (line % 8)

/-- Line `line` of the quad of core `c` set. -/
def setLine (c line : Nat) (e : EvLine) (s : State) : State :=
  modOwned (myPid s) (myLid s) (lineCore c line) (fun k => { k with lines := vecSet k.lines (line % 8) e }) s

/-- The focused thread set's launch owns the line's core (08 R189). -/
def lineMine (line : Nat) (s : State) : Bool :=
  ownedBy (myPid s) (myLid s) (lineCore s.here line) s

/-- The line word (08 R191); COUNT of a mutex is its waiters. -/
def EvLine.word (e : EvLine) : Word :=
  let n := if evType e.cfg = 3 then (e.waiters.filter fun w => w.result.isNone).length else e.count
  w64 (e.gen % 2 ^ 32 + n % 2 ^ 16 * 2 ^ 32 + e.holder % 16 * 2 ^ 48 + (if e.held then 2 ^ 52 else 0) +
    (if e.misuse then 2 ^ 53 else 0))

/-- Every waiter that has no result yet gets one. -/
def EvLine.releaseAll (e : EvLine) (x : Word) : EvLine :=
  { e with waiters := e.waiters.map fun w => if w.result.isNone then { w with result := some x } else w }

/-- The oldest waiter without a result. -/
def EvLine.oldest (e : EvLine) : Option EvWaiter := e.waiters.find? fun w => w.result.isNone

/-- One waiter gets its result. -/
def EvLine.release1 (e : EvLine) (core tid : Nat) (x : Word) : EvLine :=
  { e with waiters := e.waiters.map fun w =>
      if w.core == core && w.tid == tid && w.result.isNone then { w with result := some x } else w }

/-- A barrier fires when every member has arrived and COUNT ≥ CIN (08 R192). -/
def EvLine.fires (e : EvLine) : Bool :=
  evType e.cfg == 1 && (e.arrivals &&& evMembers e.cfg) == evMembers e.cfg && decide (evCin e.cfg ≤ e.count)

/-- The firing of a barrier line (08 R192). -/
def EvLine.fired (e : EvLine) : EvLine :=
  let f := { e with gen := (e.gen + 1) % 2 ^ 32, count := e.count - evCin e.cfg, arrivals := 0 }
  f.releaseAll f.word

/-- The chain message that the firing of a line sends from its core, where CHEN is set (08 R194). -/
def chainSend (pid lid c : Nat) (cfg : Word) (s : State) : State :=
  if evChen cfg then
    { s with chains := s.chains ++ [{ pid := pid, lid := lid, core := c, num := s.seq, cfg := cfg, left := chainCores cfg }],
             seq := s.seq + 1 }
  else s

/-- A line after an arrival or a chain message, with the chain message that a firing sends (08 R192, R194). -/
def settle (pid lid c line : Nat) (e : EvLine) (s : State) : State :=
  if e.fires then chainSend pid lid (lineCore c line) e.cfg (setLine c line e.fired s) else setLine c line e s

/-- A signal on an event line: COUNT and GEN rise, and the oldest waiter is served (08 R192). -/
def EvLine.signal (e : EvLine) : EvLine :=
  let f := { e with count := Nat.min 65535 (e.count + 1), gen := (e.gen + 1) % 2 ^ 32 }
  match f.oldest with
  | none => f
  | some w =>
    let g := { f with count := f.count - 1 }
    g.release1 w.core w.tid g.word

/-- The holder of a mutex passes it to the oldest waiter, or clears HELD (08 R192). -/
def EvLine.pass (e : EvLine) : EvLine :=
  match e.oldest with
  | none => { e with held := false }
  | some w =>
    let f := { e with holder := 4 * memberOf w.core + w.tid % 4, gen := (e.gen + 1) % 2 ^ 32 }
    f.release1 w.core w.tid (f.release1 w.core w.tid 0).word

/-- A chain message at a line (08 R192, R194). -/
def EvLine.chained (e : EvLine) : EvLine :=
  match evType e.cfg with
  | 1 => { e with count := Nat.min 65535 (e.count + 1) }
  | 2 => e.signal
  | _ => e

/-! ## Configuration stores (08 R190) -/

/-- MEMBERS names no thread set of a core outside the launch, whose pre-empted cores stay its own (08 R190, 19 R383). -/
def membersOk (x : Word) (s : State) : Bool :=
  (List.range 4).all fun m =>
    bitsOf x.toNat (4 * m) 4 == 0 || ownedBy (myPid s) (myLid s) (quadCore s.here m) s

/-- A configuration word is accepted (08 R190). -/
def evCfgOk (x : Word) (s : State) : Bool :=
  bitsOf x.toNat 48 16 == 0 && bitsOf x.toNat 18 2 == 0 && bitsOf x.toNat 42 3 != 7 &&
    !(evChen x && evType x != 1) && !(evType x == 1 && evMembers x == 0 && evCin x == 0) && membersOk x s

/-- An accepted configuration store: the line word becomes zero and every waiter is released with ABORT set (08 R190). -/
def storeEvCfg (line : Nat) (x : Word) (s : State) : State :=
  let e := lineOf s.here line s
  let ws := (e.releaseAll (e.word ||| 0x8000000000000000)).waiters
  setLine s.here line { EvLine.off with cfg := x, waiters := ws } s

/-- The generic address of a line's configuration word or line word (08 R189). -/
def evAddr (line : Nat) (cfg : Bool) : Word := w64 (0x404 * 2 ^ 53 + (if cfg then 256 else 0) + 8 * line)

/-- The access fault of the event unit (08 R189, 11 R246), for a kind. -/
def evFault (k : Kind) (ga : Word) : Eff := .trap 0x21 (4 * 4 + k.bits) ga

/-- ST.d of a configuration word (08 R189, R190). -/
def evStore (line : Nat) (x ga : Word) (s : State) : Eff :=
  if lineMine line s && evCfgOk x s then .ok (storeEvCfg line x s) else evFault .store ga

/-- LD.d of a line word or configuration word (08 R189). -/
def evLoad (line : Nat) (cfg : Bool) (s : State) : Option Word :=
  if lineMine line s then some (if cfg then (lineOf s.here line s).cfg else (lineOf s.here line s).word) else none

/-- EVENT_CONFIG_STORE: the ST.d of register `a`, its d field, to a line's configuration word (02 R69, 08 R190). -/
def execEventConfigStore (line : BitVec 5) (a : Reg) (s : State) : Host.Outcome State Fault Refusal :=
  .next (execUse (withMore useNone [.s a]) s fun t => evStore line.toNat (getS a t) (evAddr line.toNat true) t)

/-! ## EVWAIT and EVSIG (08 R192, 10 R224) -/

/-- This thread set's place among the waiters of a line (10 R223; log entry 68). -/
def myWait (e : EvLine) (s : State) : Option EvWaiter := e.waiters.find? fun w => w.core == s.here && w.tid == s.tid

/-- The line without this thread set's place. -/
def dropWait (e : EvLine) (s : State) : EvLine :=
  { e with waiters := e.waiters.filter fun w => !(w.core == s.here && w.tid == s.tid) }

/-- The line with this thread set waiting at its tail. -/
def joinWait (arrived : Bool) (e : EvLine) (s : State) : EvLine :=
  { e with waiters := e.waiters ++ [{ core := s.here, tid := s.tid, arrived := arrived, result := none }] }

/-- The member bit of the focused thread set (08 R190). -/
def myMember (s : State) : Nat := 4 * memberOf s.here + s.tid % 4

/-- EVWAIT completes where this thread set has its result, else it waits (08 R192, R193). -/
def takeResult (d : Reg) (line : Nat) (s : State) : Eff :=
  let e := lineOf s.here line s
  match myWait e s with
  | some w =>
    match w.result with
    | some x => .ok (setS d x (setLine s.here line (dropWait e s) s))
    | none => .hold s .waiting
  | none => .hold s .waiting

/-- EVWAIT at a line where this thread set has no place yet (08 R192). -/
def evArrive (d : Reg) (line : Nat) (ga : Word) (s : State) : Eff :=
  let e := lineOf s.here line s
  match evType e.cfg with
  | 1 =>
    let member := bitOf (evMembers e.cfg) (myMember s)
    let f := if member then { e with arrivals := e.arrivals ||| 2 ^ myMember s } else e
    takeResult d line (settle (myPid s) (myLid s) s.here line (joinWait member f s) s)
  | 2 =>
    if e.count = 0 then .hold (setLine s.here line (joinWait false e s) s) .waiting
    else
      let f := { e with count := e.count - 1 }
      .ok (setS d f.word (setLine s.here line f s))
  | 3 =>
    if e.held then .hold (setLine s.here line (joinWait false e s) s) .waiting
    else
      let f := { e with held := true, holder := myMember s, gen := (e.gen + 1) % 2 ^ 32 }
      .ok (setS d f.word (setLine s.here line f s))
  | _ => evFault .load ga

/-- The address of an event instruction names a line word of its launch (10 R224). -/
def evLine? (ga : Word) (s : State) : Option Nat :=
  let line := bitsOf ga.toNat 3 5
  if ga = evAddr line false ∧ lineMine line s = true then some line else none

/-- The instruction is ILLEGAL with DETAIL 2 in slice context 6 (10 R221) or in a reserve bank (20 R397). -/
def notOwner (s : State) : Bool := decide (4 ≤ s.tid)

/-- ILLEGAL with a DETAIL, EVAL the instruction word (10 R221, R226, R231; 16 R330; 20 R397). -/
def illegal (detail : Nat) (r : Raw) : Eff := .trap 1 detail (evalWord r)

/-- EVWAIT (10 R224): an arrival is a release with scope p3 of the earlier accesses (10 R225; log entry 17). -/
def execEvwait (d base : Reg) (off : BitVec 12) (s : State) : Host.Outcome State Fault Refusal :=
  .next (if notOwner s then finish useNone s (illegal 2 (.m off.toNat 0 base.toNat d.toNat 0x38))
  else execUse (useAD d base) s fun t =>
    let ga := getS base t + sext64 off
    match evLine? ga t with
    | none => evFault .load ga
    | some line =>
      match myWait (lineOf t.here line t) t with
      | some _ => takeResult d line t
      | none => if drained (true, true) t then evArrive d line ga t else .hold t .stalled)

/-- EVSIG (10 R224) at a line of its launch (08 R192). -/
def evSignal (line : Nat) (ga : Word) (s : State) : Eff :=
  let e := lineOf s.here line s
  match evType e.cfg with
  | 1 =>
    if bitOf (evMembers e.cfg) (myMember s) then
      .ok (settle (myPid s) (myLid s) s.here line { e with arrivals := e.arrivals ||| 2 ^ myMember s } s)
    else .ok s
  | 2 => .ok (setLine s.here line e.signal s)
  | 3 =>
    if e.held ∧ e.holder = myMember s then .ok (setLine s.here line e.pass s)
    else .ok (setLine s.here line { e with misuse := true } s)
  | _ => evFault .store ga

/-- EVSIG (10 R224): a release with scope p3 of the earlier accesses (10 R225; log entry 17). -/
def execEvsig (base : Reg) (off : BitVec 12) (s : State) : Host.Outcome State Fault Refusal :=
  .next (if notOwner s then finish useNone s (illegal 2 (.m off.toNat 1 base.toNat 0 0x38))
  else execUse (useA base) s fun t =>
    let ga := getS base t + sext64 off
    match evLine? ga t with
    | none => evFault .store ga
    | some line => if drained (true, true) t then evSignal line ga t else .hold t .stalled)

/-! ## Chain messages (08 R194) -/

/-- A chain message at the line of one core: counted, or discarded and counted by the firewall (08 R194, 20 R391). -/
def chainAt (m : ChainMsg) (s : State) (c : Nat) : State :=
  if ownedBy m.pid m.lid c s then
    let i := bitsOf m.cfg.toNat 28 5 % 8
    let e := (vecGet (ownedCore m.pid m.lid c s).lines i).chained
    let put (e : EvLine) (s : State) : State := modOwned m.pid m.lid c (fun k => { k with lines := vecSet k.lines i e }) s
    if e.fires then chainSend m.pid m.lid c e.cfg (put e.fired s) else put e s
  else countFwDrop m.pid s

/-- CHAIN_MESSAGE (08 R194): message `n` in flight arrives at the cores that it has still to reach, but for those whose flow is held
or carries something before it (22 R415, R417). -/
def execChainMessage (n : Nat) (s : State) : Host.Outcome State Fault Refusal :=
  .next (match nth? s.chains n with
    | none => s
    | some m =>
      let wait := m.left.filter (m.waits s)
      let chains := if wait.isEmpty then dropNth s.chains n else setNth s.chains n { m with left := wait }
      (m.left.filter fun c => !m.waits s c).foldl (chainAt m) { s with chains := chains })

end Sys2Proof.Machine
end

