-- ==== Sys2Proof/Machine/FwRegs.lean ====
section
/-! DEFINITION. The firmware registers of aperture 0x405: firewall registers (20 R390), VCSEL lanes (22 R423, R424), port
registers (22 R425) and SUMSTAT (23 R431). -/
namespace Sys2Proof.Machine

/-- The optical engine of a die. -/
def opticsOf (die : Nat) (s : State) : Optics := vecGet s.optics die

/-- The optical engine of a die changed by `f`. -/
def modOptics (die : Nat) (f : Optics → Optics) (s : State) : State :=
  { s with optics := vecSet s.optics die (f (vecGet s.optics die)) }

/-- A port of an optical engine changed by `f`. -/
def Optics.modPort (p : Nat) (f : OPort → OPort) (o : Optics) : Optics :=
  { o with ports := vecSet o.ports p (f (vecGet o.ports p)) }

/-- A lane of an optical engine changed by `f`. -/
def Optics.modLane (n : Nat) (f : Lane → Lane) (o : Optics) : Optics := { o with lanes := modNth f o.lanes n }

/-- The lane register (22 R423): PORT and WL read only while STATE is not 0. -/
def Lane.word (l : Lane) : Word :=
  w64 (l.bias % 2 ^ 12 + (if l.st = 0 then 0 else l.wl % 64 * 2 ^ 18 + l.port % 4 * 2 ^ 24) + l.st % 4 * 2 ^ 28 +
    (if l.ret then 2 ^ 31 else 0) + Nat.min (l.age / 1000) (2 ^ 32 - 1) * 2 ^ 32)

/-- OPORTCFG (22 R425). -/
def OPort.cfgWord (p : OPort) : Word := p.cfg

/-- MODE of OPORTCFG. -/
def OPort.cfgMode (p : OPort) : Nat := bitsOf p.cfg.toNat 10 2
/-- MIN of OPORTCFG. -/
def OPort.cfgMin (p : OPort) : Nat := bitsOf p.cfg.toNat 0 7

/-- The lanes that are being woken for a port (22 R425). -/
def Optics.waking (p : Nat) (o : Optics) : Nat := (o.lanes.filter fun l => l.st == 3 && l.port == p).length

/-- OPORTSTAT (22 R425). -/
def Optics.statWord (p : Nat) (o : Optics) : Word :=
  let x := vecGet o.ports p
  w64 (x.cfgMode + x.width % 32 * 2 ^ 8 + o.waking p % 256 * 2 ^ 16)

/-- SUMSTAT (23 R431). -/
def SumPort.word (p : SumPort) : Word :=
  w64 (p.lowered % 2 ^ 16 + p.grpmax % 16 * 2 ^ 16 + p.failrun % 8 * 2 ^ 20 + p.ddly % 256 * 2 ^ 23 +
    p.lambda % 64 * 2 ^ 31 + p.wmax % 16 * 2 ^ 37 + p.pidx % 16 * 2 ^ 41 + p.level % 8 * 2 ^ 45 + p.segid % 2 ^ 16 * 2 ^ 48)

/-- The lanes that serve a wavelength and are not retired (22 R424, R425). -/
def Optics.available (o : Optics) : Nat := (o.lanes.filter fun l => l.st != 0 && !l.ret).length

/-- The sum of MIN over the four ports. -/
def Optics.minSum (o : Optics) : Nat := sumList (o.ports.toList.map OPort.cfgMin)

/-- FWCTL after a write (20 R390). DEDUCED: the reserved bits 63:15, whose access is RO, are dropped and the rest is taken (00 R6 leaves
such a write to a rule that is not given; log entry 59). -/
def fwctlWritten (x : Word) : Word := x &&& 0x7FFF

/-- A write of the firewall register of a core's router (20 R390). -/
def writeFwctl (core : Nat) (x : Word) (s : State) : State := modCore core (fun k => { k with fwctl := fwctlWritten x }) s

/-- A lane is retired: RET is set, and the lane waits for its replacement at the next reallocation boundary (22 R424). -/
def retireLane (die n : Nat) (s : State) : State := modOptics die (Optics.modLane n fun l => { l with ret := true }) s

/-- A value that OPORTCFG of a port takes (22 R425): MODE not 3, and for port 3 only 1; MIN up to 16 for ports 0 to 2, as set
from its segment for port 3; no reserved bit. -/
def oportcfgOk (port : Nat) (x : Word) (old : OPort) : Bool :=
  bitsOf x.toNat 12 52 == 0 && bitsOf x.toNat 7 3 == 0 &&
    (if port = 3 then bitsOf x.toNat 10 2 == 1 && bitsOf x.toNat 0 7 == old.cfgMin
     else bitsOf x.toNat 10 2 != 3 && decide (bitsOf x.toNat 0 7 ≤ 16))

/-- A write of OPORTCFG, refused where it breaks a limit or brings the minimums above the available lanes (22 R425;
log entry 16). -/
def writeOportcfg (die port : Nat) (x : Word) (s : State) : State :=
  let o := opticsOf die s
  let n := o.modPort port fun p => { p with cfg := x }
  if oportcfgOk port x (vecGet o.ports port) && decide (n.minSum ≤ n.available) then modOptics die (fun _ => n) s else s

/-- The value of a firmware register, and the state after it is read: SUMSTAT clears LOWERED (23 R431). -/
def readFwReg (r : FwReg) (s : State) : Word × State :=
  match r with
  | .fwctl c => ((getCore c s).fwctl, s)
  | .lane die n => ((nth (Lane.reset n) (opticsOf die s).lanes n).word, s)
  | .oportcfg die p => ((vecGet (opticsOf die s).ports p).cfgWord, s)
  | .oportstat die p => ((opticsOf die s).statWord p, s)
  | .sumstat die => ((opticsOf die s).sum.word, modOptics die (fun o => { o with sum := { o.sum with lowered := 0 } }) s)

/-- A write of a firmware register; read-only ones keep their value (00 R6). A lane takes RET alone (22 R423; log
entry 16). -/
def writeFwReg (r : FwReg) (x : Word) (s : State) : State :=
  match r with
  | .fwctl c => writeFwctl c x s
  | .lane die n => if bitOf x.toNat 31 then retireLane die n s else s
  | .oportcfg die p => writeOportcfg die p x s
  | .oportstat _ _ => s
  | .sumstat _ => s

/-- FWCTL_WRITE (20 R390). -/
def execFwctlWrite (core : Nat) (x : Word) (s : State) : Host.Outcome State Fault Refusal := .next (writeFwctl core x s)
/-- OPORTCFG_WRITE (22 R425). -/
def execOportcfgWrite (die port : Nat) (x : Word) (s : State) : Host.Outcome State Fault Refusal :=
  .next (writeOportcfg die port x s)
/-- LANE_RETIRE (22 R424). -/
def execLaneRetire (die lane : Nat) (s : State) : Host.Outcome State Fault Refusal := .next (retireLane die lane s)
/-- FW_REGISTER_WRITE (25 R466). -/
def execFwRegisterWrite (reg : FwReg) (x : Word) (s : State) : Host.Outcome State Fault Refusal := .next (writeFwReg reg x s)
/-- SUMSTAT_READ (23 R431): the load of a sum port's status, F only (11 R246). -/
def execSumstatRead (d : Reg) (die : Nat) (s : State) : Host.Outcome State Fault Refusal :=
  .next (execUse (useD d) s fun t =>
    if isF t then
      let r := readFwReg (.sumstat die) t
      .ok (setS d r.1 r.2)
    else .trap 0x21 4 (Config.fwAddr (.sumstat die)))

end Sys2Proof.Machine
end

