-- ==== Sys2Proof/Machine/LoadStore.lean ====
section
/-! DEFINITION. Loads, stores, residency control, code overlays and versioned words (13 R281 to R291; 11 R256, R257). -/
namespace Sys2Proof.Machine

/-- What follows a load. -/
def loadEff (l : Load) (s : State) (f : Nat → State → Eff) : Eff :=
  match l with
  | .val x t => f x t
  | .fault c => .trap c.code c.detail c.val
  | .wait t => .hold t .stalled
  | .merr code loc => .final (machineError code loc s)

/-- What follows a checked store. -/
def chkEff (c : Chk) (s : State) (f : State → Nat → Cls → Nat → Eff) : Eff :=
  match c with
  | .ok t key cls pa => f t key cls pa
  | .fault c => .trap c.code c.detail c.val
  | .wait t => .hold t .stalled
  | .merr code loc => .final (machineError code loc s)

/-! ## LD and ST (13 R281, R282) -/

/-- The bytes of a load size (02 R51). -/
def ldBytes : LdSize → Nat
  | .b | .bu => 1
  | .h | .hu => 2
  | .w | .wu => 4
  | .d => 8

/-- What LD writes to d (13 R281). -/
def ldValue (z : LdSize) (x : Nat) : Word :=
  match z with
  | .b => w64i (signedOf 8 x)
  | .h => w64i (signedOf 16 x)
  | .w => w64i (signedOf 32 x)
  | .d | .bu | .hu | .wu => w64 x

/-- The bytes of a store size (02 R51). -/
def stBytes : StSize → Nat
  | .b => 1
  | .h => 2
  | .w => 4
  | .d => 8

/-- A load of a firmware register through aperture 0x405 (25 R466; log entry 8). -/
def fwLoad (n block off : Nat) (ga : Word) (s : State) (f : Nat → State → Eff) : Eff :=
  if n = 8 then
    match Config.fwBlock block off with
    | some r => f (readFwReg r s).1.toNat (readFwReg r s).2
    | none => evFault .load ga
  else evFault .load ga

/-- A load of `n` bytes at a generic address: memory, the constant bank, the event unit or a firmware register (13 R282). -/
def loadBytes (n : Nat) (ga : Word) (s : State) (f : Nat → State → Eff) : Eff :=
  match reach .load n ga .either none s with
  | .event line cfg =>
    (match evLoad line cfg s with
     | some x => if n = 8 then f x.toNat s else evFault .load ga
     | none => evFault .load ga)
  | .fw block off => fwLoad n block off ga s f
  | .mem _ _ _ _ _ | .const _ | .fault _ _ _ | .wait _ | .merr _ _ => loadEff (loadAt n ga s) s f

/-- LD (13 R281, R282). -/
def execLd (z : LdSize) (d base : Reg) (off : BitVec 12) (s : State) : Host.Outcome State Fault Refusal :=
  .next (execUse (useAD d base) s fun t =>
    loadBytes (ldBytes z) (getS base t + sext64 off) t fun x u => .ok (setS d (ldValue z x) u))

/-- A store of bytes to memory that has been checked: it retires (13 R283). -/
def storeMem (ga : Word) (bs : List Byte) (s : State) : Eff :=
  chkEff (checkStore bs.length ga s) s fun t key cls pa => .ok (retireStore key pa cls ga bs none t)

/-- A store to a firmware register through aperture 0x405 (25 R466; log entry 8). -/
def fwStore (n block off x : Nat) (ga : Word) (s : State) : Eff :=
  if n = 8 then
    match Config.fwBlock block off with
    | some r => .ok (writeFwReg r (w64 x) s)
    | none => evFault .store ga
  else evFault .store ga

/-- A store of the low `n` bytes of `x` at a generic address (13 R282). -/
def storeBytes (n : Nat) (x : Word) (ga : Word) (s : State) : Eff :=
  match reach .store n ga .forbid none s with
  | .event line cfg => if n = 8 ∧ cfg = true then evStore line x ga s else evFault .store ga
  | .fw block off => fwStore n block off x.toNat ga s
  | .mem _ _ _ _ _ | .const _ | .fault _ _ _ | .wait _ | .merr _ _ => storeMem ga (leBytes n x.toNat) s

/-- ST (13 R281 to R283). -/
def execSt (z : StSize) (d base : Reg) (off : BitVec 12) (s : State) : Host.Outcome State Fault Refusal :=
  .next (execUse (withMore (useA base) [.s d]) s fun t => storeBytes (stBytes z) (getS d t) (getS base t + sext64 off) t)

/-! ## Residency control (13 R284, R285) -/

/-- PREF.l1 brings the line of a cacheable page into the L1; whatever keeps it from that makes it a no-operation (13 R284). -/
def prefetch1 (ga : Word) (s : State) : State :=
  match reach .load 1 ga .either none s with
  | .mem t _ .l1 _ pa =>
    (match partOf (myPid t) t with
     | some p => l1Read p.rcd pa t.here t
     | none => s)
  | .mem _ _ _ _ _ | .const _ | .event _ _ | .fw _ _ | .fault _ _ _ | .wait _ | .merr _ _ => s

/-- PREF.l1 (13 R284). -/
def execPrefL1 (base : Reg) (off : BitVec 12) (s : State) : Host.Outcome State Fault Refusal :=
  .next (execUse (useA base) s fun t => .ok (prefetch1 (getS base t + sext64 off) t))

/-- PREF.l2 brings a cacheable HBM or host line into the L2-mode granules of its home slice (13 R284). -/
def prefetch2 (ga : Word) (s : State) : State :=
  match reach .load 1 ga .either none s with
  | .mem t _ .l1 _ pa =>
    (match partOf (myPid t) t with
     | some p => l2Put p.rcd (dirLine p.rcd.pid pa) false t
     | none => s)
  | .mem _ _ _ _ _ | .const _ | .event _ _ | .fw _ _ | .fault _ _ _ | .wait _ | .merr _ _ => s

/-- PREF.l2 (13 R284). -/
def execPrefL2 (base : Reg) (off : BitVec 12) (s : State) : Host.Outcome State Fault Refusal :=
  .next (execUse (useA base) s fun t => .ok (prefetch2 (getS base t + sext64 off) t))

/-- A dirty line of this core's L1 is written back to its home slice and kept clean (13 R285). -/
def cleanL1 (p : PartRec) (line : Nat) (s : State) : State :=
  if l1Dirty line s.here s then putL1 line s.here false (setDir line (some (.sharers [s.here])) (l1WriteBack p line s.here s)) else s

/-- The copy of a line in the L2-mode granules, whose write-back has been sent where it was dirty, kept clean (13 R285). -/
def cleanL2 (line : Nat) (s : State) : State :=
  { s with l2 := s.l2.map fun x => if x.line == line && !x.rsv then { x with dirty := false } else x }

/-- A line that CLEAN is to write back to host memory has to cross a link that is down (22 R421). -/
def cleanFails (line : Nat) (s : State) : Bool := s.gwerid == .down && s.hostOld.any fun x => x.1 == line

/-- CLEAN of a line (13 R285): a write-back that the link loses is STORE_LOST (22 R421). -/
def cleanEff (c : Bool) (pa : Nat) (s : State) : Eff :=
  let line := dirLine (myPid s) pa
  match partOf (myPid s) s with
  | none => .ok s
  | some p =>
    if cleanFails line s then
      let t := if c && l1Dirty line s.here s then putL1 line s.here false (setDir line (some (.sharers [s.here])) s) else s
      .final (machineError 0x84 (w64 pa) (hostLoses line (cleanL2 line t)))
    else .ok (wroteBack line (cleanL2 line (if c then cleanL1 p.rcd line s else s)))

/-- INVAL of a line of a cacheable page: this core's L1 drops it, a dirty one being written back to the home slice first (13
R285), and on to host memory where that cannot hold it: a write-back that the link loses is STORE_LOST (22 R421). -/
def invalEff (c : Bool) (pa : Nat) (s : State) : Eff :=
  let line := dirLine (myPid s) pa
  match partOf (myPid s) s with
  | some p =>
    if c then
      if l1Dirty line s.here s && backLost p.rcd line s then
        .final (machineError 0x84 (w64 pa) (l1Leave p.rcd line s.here (putL1 line s.here false (hostLoses line s))))
      else .ok (l1Leave p.rcd line s.here s)
    else .ok s
  | none => .ok s

/-- A retired operation of the focused thread set on a line is still to be performed. -/
def linePending (pa : Nat) (s : State) : Bool :=
  s.pend.any fun p => p.isMine s && p.cls != .lm && p.pa / 64 == pa / 64

/-- What CLEAN and INVAL check before they act on a line, of a page with C = 1 or C = 0 (13 R285): apertures 0x400 and 0x401 are
not checked at all. They act on the line once the thread set's earlier writes to it have been performed. -/
def lineEff (ga : Word) (s : State) (f : Bool → Nat → State → Eff) : Eff :=
  if bitsOf ga.toNat 53 11 = 0x400 ∨ bitsOf ga.toNat 53 11 = 0x401 then .ok s
  else match reach .load 1 ga .forbid none s with
  | .mem t _ .l1 _ pa => if linePending pa t then .hold t .stalled else f true pa t
  | .mem t _ .lm _ _ => .ok t
  | .mem t _ .hs _ pa => if linePending pa t then .hold t .stalled else f false pa t
  | .const _ => .ok s
  | .event _ _ | .fw _ _ => evFault .load ga
  | .fault _ code detail => .trap code detail ga
  | .wait t => .hold t .stalled
  | .merr code loc => .final (machineError code loc s)

/-- CLEAN (13 R285). -/
def execClean (base : Reg) (off : BitVec 12) (s : State) : Host.Outcome State Fault Refusal :=
  .next (execUse (useA base) s fun t => lineEff (getS base t + sext64 off) t cleanEff)

/-- INVAL (13 R285). -/
def execInval (base : Reg) (off : BitVec 12) (s : State) : Host.Outcome State Fault Refusal :=
  .next (execUse (useA base) s fun t => lineEff (getS base t + sext64 off) t invalEff)

/-! ## Code overlays (13 R286, R287) -/

/-- The virtual address of the overlay directory (13 R286). -/
def overlayDir (l : Launch) : Nat := l.image + ceilDiv (64 + l.imgBytes + 4 * l.kwords) 64 * 64

/-- A directory entry is valid (13 R286). -/
def dirEntryOk (va lmoff size : Nat) : Bool :=
  size != 0 && va % 64 == 0 && lmoff % 4096 == 0 && size % 4 == 0 && decide (lmoff + size ≤ 0xFC000) && decide (va + size ≤ 2 ^ 53)

/-- The overlay region of a segment: its local-memory pages (13 R286). -/
def overlayPages (lmoff size : Nat) : List Nat := (List.range (ceilDiv size 4096)).map fun i => lmoff / 4096 + i

/-- The addresses at which the pages of a virtual range are translated: its first byte, then each 8 KiB page after it. -/
def pageStarts (va size : Nat) : List Nat :=
  va :: (List.range ((va + size - 1) / 8192 - va / 8192)).map fun i => (va / 8192 + 1 + i) * 8192

/-- Every page of a code segment translated for a code read (13 R287). -/
def codePages : List Nat → State → Chk
  | [], s => .ok s 0 .hs 0
  | va :: vas, s =>
    match virtual va .code .either s with
    | .mem t _ _ _ _ => codePages vas t
    | .fault _ code detail => .fault { code := code, detail := detail, val := w64 va }
    | .wait t => .wait t
    | .merr code loc => .merr code loc
    | .const _ | .event _ _ | .fw _ _ => codePages vas s

/-- The tags of pages set (05 R123). -/
def setTags (ps : List Nat) (t : PageSt × Nat) (s : State) : State :=
  { s with core := { s.core with tags := ps.foldl (fun ts p => insertKey p t ts) s.core.tags } }

/-- What follows where the pages of an overlay region are not lent: an owner's access to lent pages faults, or waits while they are
being taken back (20 R400, R401; log entry 65). -/
def withPages (off n : Nat) (s : State) (e : Eff) : Eff :=
  match lentAt off n s.core with
  | some true => .hold s .stalled
  | some false => .trap 0x21 (5 * 4 + 1) (w64 (0x400 * 2 ^ 53 + off))
  | none => e

/-- CFETCH of a segment whose directory entry has been read (13 R287). -/
def cfetchGo (n va lmoff size : Nat) (s : State) : Eff :=
  let pages := overlayPages lmoff size
  if dirEntryOk va lmoff size = false then .trap 6 0x42 (w64 n)
  else if pages.any fun p => (residency p s).1 == .landing then .hold s .stalled
  else if pages.all fun p => residency p s == (.resident, n) then .ok s
  else
    withPages lmoff (pages.length * 4096) s <| chkEff (codePages (pageStarts va size) s) s fun t _ _ _ =>
      let t1 := setTags pages (.landing, n) t
      let t2 := modLaunch (myPid t) (myLid t) (Launch.charge 2 (ceilDiv size 64)) t1
      .ok { t2 with core := { t2.core with landing := t2.core.landing ++
              [{ seg := n, va := va, lmoff := lmoff, size := size, pid := myPid t, lid := myLid t }] } }

/-- Cfetch (13 R287). -/
def cfetchEff (n : Word) (s : State) : Eff :=
  if n.toNat < 1 ∨ 63 < n.toNat then .trap 6 0x41 n
  else
    match myLaunch s with
    | none => .trap 6 0x42 n
    | some l =>
      let va := overlayDir l + 16 * (n.toNat - 1)
      loadEff (loadAt 8 (w64 va) s) s fun x t =>
        loadEff (loadAt 8 (w64 (va + 8)) t) t fun y u => cfetchGo n.toNat x (bitsOf y 0 32) (bitsOf y 32 32) u

/-- CFETCH (13 R287, 20 R397). -/
def execCfetch (a : Reg) (imm : BitVec 15) (s : State) : Host.Outcome State Fault Refusal :=
  .next (if isBank s then finish useNone s (illegal 2 (.i imm.toNat a.toNat 0 0x24))
    else execUse (useA a) s fun t => cfetchEff (getS a t + sext64 imm) t)

/-! ## Versioned words (11 R256, R257; 13 R288 to R291) -/

/-- Version a precedes version b (11 R257). -/
def precedes (a b : Nat) : Bool :=
  let d := (b + 2 ^ 24 - a) % 2 ^ 24
  decide (1 ≤ d) && decide (d ≤ 2 ^ 23)

/-- A versioned word: at mapping it holds version 0, whose value is its memory content (11 R257). -/
def verOf (key pa : Nat) (s : State) : VerWord :=
  (s.versions.find? fun v => v.pa == pa).getD { pa := pa, pid := 0, vas := [], n := 0, live := [(0, w64 (memValue s.mem 8 key))] }

/-- A versioned word set. -/
def setVer (v : VerWord) (s : State) : State :=
  { s with versions := v :: s.versions.filter fun x => x.pa != v.pa }

/-- Stv of R257 by a partition at a virtual address: the newest version is what an ordinary load returns (11 R256). -/
def VerWord.push (v : VerWord) (x : Word) (pid va : Nat) : VerWord :=
  let n := (v.n + 1) % 2 ^ 24
  { v with pid := pid, vas := if v.vas.contains va then v.vas else va :: v.vas, n := n, live := v.live ++ [(n, x)] }

/-- Recl of R257. -/
def VerWord.recl (b : Nat) (v : VerWord) : VerWord :=
  { v with live := v.live.filter fun p => !precedes p.1 b || p.1 == v.n }

/-- The order a release carries: the classes it covers (12 R266). -/
def relCover (o : Order) (p : Pal) (s : State) : Option (Bool × Bool) :=
  match o with
  | .rel | .acqrel => some (covers p.toNat s)
  | .rlx | .acq => none

/-- A release waits until its thread set's earlier covered accesses have been performed (12 R266). -/
def releaseReady (o : Order) (p : Pal) (s : State) : Bool :=
  match relCover o p s with
  | some c => drained c s
  | none => true

/-- A fence that acquires waits until its thread set's earlier covered reads have been performed (12 R266). -/
def acquireReady (o : Order) (p : Pal) (s : State) : Bool :=
  match o with
  | .acq | .acqrel => readsDone (covers p.toNat s) s
  | .rlx | .rel => true

/-- An instruction that waits after its palette check keeps what it took (12 R273). -/
def keepPal (p : Nat) (e : Eff) : Eff :=
  match e with
  | .hold t r =>
    if !t.ts.palHold.isEmpty then .hold t r else .hold { t with ts := { t.ts with palTaken := some (p, palGen p t) } } r
  | .ok t => .ok t
  | .jump t x => .jump t x
  | .stop t r => .stop t r
  | .trap a b c => .trap a b c
  | .final t => .final t

/-- A word of a versioned page reached for LDV, STV or RECL, at its home slice (12 R260, 13 R288). -/
def verReach (k : Kind) (p : Pal) (ga : Word) (s : State) (f : State → Nat → Nat → Eff) : Eff :=
  match reachAs homeCls k 8 ga .need (some p.toNat) s with
  | .mem _ _ .lm _ _ => .trap 0x23 (2 * 4 + k.bits) ga
  | .mem t key _ _ pa => f t key pa
  | .const _ => .trap 0x23 (2 * 4 + k.bits) ga
  | .event _ _ | .fw _ _ => evFault k ga
  | .fault _ code detail => .trap code detail ga
  | .wait t => .hold t .stalled
  | .merr code loc => .final (machineError code loc s)

/-- The bank operation of a home slice on `n` bytes at a key meets no error there (11 R258). -/
def bankEff (key n : Nat) (s : State) (f : State → Eff) : Eff :=
  match readError key n s with
  | some e => .final (machineError e.1 e.2 s)
  | none => f (correct key n s)

/-- A line recalled from every L1 before a bank operation of the focused thread set on it (13 R295). -/
def recallLine (pa : Nat) (s : State) : State :=
  match partOf (myPid s) s with
  | some p => homeUse p.rcd pa (some s.here) false s
  | none => s

/-- An operation on a versioned word follows the thread set's earlier ones on it (12 R261). -/
def afterOwn (key : Nat) (s : State) (e : Eff) : Eff := if mustWait key 8 s then .hold s .stalled else e

/-- The version operand s[data][23:0] (13 R288). -/
def version (x : Word) : Nat := bitsOf x.toNat 0 24

/-- Ldv of R257 (13 R289). -/
def ldvEff (d : Reg) (v : Nat) (ga : Word) (key pa : Nat) (s : State) : Eff :=
  let w := verOf key pa s
  match w.live.find? fun p => p.1 == v with
  | some x => .ok (setS d x.2 s)
  | none => if precedes w.n v then .hold s .waiting else .trap 0x25 0 ga

/-- LDV (13 R289). -/
def execLdv (_o : Order) (p : Pal) (d a c : Reg) (s : State) : Host.Outcome State Fault Refusal :=
  .next (execUse (useABD d a (.reg c)) s fun t =>
    keepPal p.toNat (verReach .load p (getS a t) t fun u key pa =>
      afterOwn key u (bankEff key 8 u fun u => ldvEff d (version (getS c t)) (getS a t) key pa u)))

/-- The home slice of a versioned word can hold its line (11 R256, R257). -/
def sliceCan (pa : Nat) (s : State) : Bool :=
  match partOf (myPid s) s with
  | some p => l2Can p.rcd (dirLine (myPid s) pa) s
  | none => true

/-- The line of a word with several live versions held in its home slice (11 R256). -/
def holdLine (pa : Nat) (s : State) : State :=
  match partOf (myPid s) s with
  | some p => l2Put p.rcd (dirLine (myPid s) pa) true s
  | none => s

/-- Stv of R257 (13 R290): it waits while four versions are live or the slice cannot hold the line. -/
def stvEff (d : Reg) (x : Word) (va key pa : Nat) (s : State) : Eff :=
  let w := verOf key pa s
  if decide (4 ≤ w.live.length) || !sliceCan pa s then .hold s .stalled
  else
    let w1 := w.push x (myPid s) va
    .ok (setS d (w64 w1.n) (land key (leBytes 8 x.toNat) 4 (setVer w1 (holdLine pa (recallLine pa s)))))

/-- STV (13 R290). -/
def execStv (o : Order) (p : Pal) (d a c : Reg) (s : State) : Host.Outcome State Fault Refusal :=
  .next (execUse (useABD d a (.reg c)) s fun t =>
    keepPal p.toNat (verReach .atomic p (getS a t) t fun u key pa =>
      afterOwn key u (if releaseReady o p u && !homeWait .hs pa u then
          bankEff key 8 u fun u => stvEff d (getS c t) (vaOf (getS a t) t) key pa u
        else .hold u .stalled)))

/-- RECL (13 R291): it retires once it is checked, and is applied later at the home slice. -/
def execRecl (o : Order) (p : Pal) (a c : Reg) (s : State) : Host.Outcome State Fault Refusal :=
  .next (execUse (useAB a c) s fun t =>
    keepPal p.toNat (verReach .atomic p (getS a t) t fun u key pa =>
      .ok (addPend { pendOf key pa .hs (getS a t) (.recl (version (getS c t))) u with
                     pal := some (p.toNat, palGen p.toNat u), rel := relCover o p u } u)))

end Sys2Proof.Machine
end

