-- ==== Sys2Proof/Machine/Inbox.lean ====
section
/-! DEFINITION. Inboxes, spill queues and completions (08 R195; 15 R319, R320; 19 R386), and the reads and writes of a core's own
local memory that the parallel and engine instructions make. -/
namespace Sys2Proof.Machine

/-! ## Own local memory by offset (10 R231, R232; 13 R302; 15 R318) -/

/-- The own local memory at an offset, by an instruction that names the offset itself; at F an offset that reaches beyond
local memory has no such byte. -/
def ownAt (k : Kind) (n : Nat) (off : Word) (s : State) : Acc :=
  if !s.ts.palHold.isEmpty || acqHeld .lm s then .wait s
  else if isF s = true ∧ 0x100000 < off.toNat + n then accFault s k 0
  else ownLm off.toNat n k s

/-- `n` bytes of the own local memory, aligned to `al` (10 R231; 15 R318). -/
def ownLoad (al n : Nat) (off : Word) (s : State) : Load :=
  if off.toNat % al ≠ 0 then .fault { code := 0x20, detail := 0, val := off }
  else
    match ownAt .load n off s with
    | .mem t key _ _ _ =>
      if mustWait key n t then .wait t
      else
        (match readError key n t with
         | some e => .merr e.1 e.2
         | none => .val (leValue (readOwn key n (correct key n t))) (readOwnTick key n (correct key n t)))
    | .fault _ code detail => .fault { code := code, detail := detail, val := off }
    | .wait t => .wait t
    | .merr code loc => .merr code loc
    | .const _ | .event _ _ | .fw _ _ => .fault { code := 0x21, detail := 0, val := off }

/-- A store of bytes into the own local memory, aligned to `al` (10 R232, 13 R302). -/
def ownStore (al : Nat) (bs : List Byte) (off : Word) (s : State) (f : State → Eff) : Eff :=
  if off.toNat % al ≠ 0 then .trap 0x20 1 off
  else
    match ownAt .store bs.length off s with
    | .mem t key cls _ pa =>
      if (mineAt key bs.length t).isEmpty then f (retireStore key pa cls off bs none t) else .hold t .stalled
    | .fault _ code detail => .trap code detail off
    | .wait t => .hold t .stalled
    | .merr code loc => .final (machineError code loc s)
    | .const _ | .event _ _ | .fw _ _ => .trap 0x21 1 off

/-! ## Inboxes (08 R195) -/

/-- The inbox of thread set `t` of a core. -/
def Core.inboxOf (k : Core) (t : Nat) : List InboxEntry := vecGet k.inbox t

/-- The inbox of thread set `t` of a core set. -/
def Core.setInbox (k : Core) (t : Nat) (l : List InboxEntry) : Core := { k with inbox := vecSet k.inbox t l }

/-- The messages in flight to thread set `t` of core `c` from its own launch. -/
def inFlight (pid lid c t : Nat) (s : State) : Nat :=
  (s.msgs.filter fun m => m.pid == pid && m.lid == lid && m.dst == c && m.dts == t).length

/-- The entries of an inbox that messages hold. -/
def msgHeld (l : List InboxEntry) : Nat := (l.filter fun e => e.kind != 3).length

/-- The spill queue of a launch's pre-empted core. -/
def heldOf (pid lid c : Nat) (s : State) : Option Held :=
  match launchOf pid lid s with
  | some l => l.held.find? fun h => h.core == c
  | none => none

/-- A pre-empted core of a launch changed by `f`. -/
def modHeld (pid lid c : Nat) (f : Held → Held) (s : State) : State :=
  modLaunch pid lid (fun l => { l with held := modWhere (fun h => h.core == c) f l.held }) s

/-! ## Spill queues (19 R381, R383, R386) -/

/-- The key of entry `n` of a frame's spill queue (19 R381). -/
def spillKey (p : PartRec) (i n : Nat) : Nat := frameKey p i (0x108000 + 64 * n)

/-- The 64 bytes of a spill entry: a message, or a completion followed by zeros (19 R381; log entry 41). -/
def spillBytes (e : InboxEntry) : List Byte := e.data ++ genList (64 - e.data.length) fun _ => 0

/-- Entry `n` of a frame's spill queue written. -/
def spillWrite (pid frame n : Nat) (e : InboxEntry) (s : State) : State :=
  match partOf pid s with
  | some p => { s with mem := memWrite (spillKey p.rcd frame n) (spillBytes e) s.mem }
  | none => s

/-- A spill queue takes one entry (19 R386). -/
def spillPut (t : Nat) (e : InboxEntry) (h : Held) : Held := { h with spill := h.spill ++ [(t, e)] }

/-- A pre-empted core's spill queue takes an entry where it is not full (19 R386). -/
def spillHeld (pid lid : Nat) (h : Held) (t : Nat) (e : InboxEntry) (s : State) : Option State :=
  if h.spill.length < 1024 then some (modHeld pid lid h.core (spillPut t e) (spillWrite pid h.frame h.spill.length e s)) else none

/-- The frame that a core under pre-emption has been given (19 R381). -/
def PreSt.frame : PreSt → Nat
  | .none => 0
  | .asked f => f

/-- The spill queue of a core that a pre-emption message has reached takes an entry where it is not full (19 R383). -/
def spillAsked (pid c t : Nat) (e : InboxEntry) (s : State) : Option State :=
  let k := getCore c s
  if k.spill.length < 1024 then
    some (modCore c (fun k => { k with spill := k.spill ++ [(t, e)] }) (spillWrite pid k.pre.frame k.spill.length e s))
  else none

/-- Entries of a core's spill queue that are still to pass to the inbox of thread set `t` (19 R386). -/
def Core.spilled (k : Core) (t : Nat) : Bool := k.spill.any fun e => e.1 == t

/-- A user-level interrupt becomes pending for a thread set that is READY, STALLED or WAITING (15 R319). -/
def raiseUx (c t : Nat) (x : Completion) (s : State) : State :=
  modTs c t (fun r =>
    match r.run with
    | .ready | .stalled | .waiting => { r with ux := r.ux ++ [x] }
    | .idle | .ended | .halted => r) s

/-- The 32 bytes of a completion entry (15 R320). -/
def Completion.bytes (c : Completion) : List Byte :=
  leBytes 2 c.tag ++ leBytes 1 c.status ++ leBytes 1 c.cls ++ leBytes 4 c.units ++ leBytes 8 c.faddr.toNat ++
    leBytes 1 c.fcode ++ leBytes 1 c.fdetail ++ leBytes 2 c.pcount ++ leBytes 2 c.pmask ++ leBytes 2 0 ++
    leBytes 8 c.tdone.toNat

/-- The inbox entries of a spilled message or completion. -/
def spillEntries (e : InboxEntry) : List InboxEntry :=
  if e.kind = 3 then [{ e with ux := none }]
  else [{ kind := 1, data := e.data.take 32, ux := none }, { kind := 2, data := e.data.drop 32, ux := none }]

/-- An inbox has room for a message (08 R195). -/
def msgFits (l : List InboxEntry) : Bool := decide (msgHeld l + 2 ≤ 12) && decide (l.length + 2 ≤ 16)

/-- An inbox has room for a spilled entry: what is in flight to it lands behind the spilled ones (08 R195, 19 R386). -/
def spillFits (l : List InboxEntry) (e : InboxEntry) : Bool := if e.kind = 3 then decide (l.length < 16) else msgFits l

/-- One spill entry passes to its inbox, unless there is no room or an earlier one for the same inbox still waits
(19 R386). -/
def spillStep (c : Nat) (s : State) (x : Nat × InboxEntry) : State :=
  let k := getCore c s
  if k.spilled x.1 || !spillFits (k.inboxOf x.1) x.2 then
    modCore c (fun k => { k with spill := k.spill ++ [x] }) s
  else
    let s1 := modCore c (fun k => k.setInbox x.1 (k.inboxOf x.1 ++ spillEntries x.2)) s
    match x.2.ux with
    | some u => raiseUx c x.1 u s1
    | none => s1

/-- The spill entries of a resumed core pass to the inboxes in spill order, as far as there is room (19 R386). -/
def drainSpill (c : Nat) (s : State) : State :=
  let l := (getCore c s).spill
  l.foldl (spillStep c) (modCore c (fun k => { k with spill := [] }) s)

/-- The thread set belongs to the launch, or to firmware or a reserve bank, whose inbox is in the core. -/
def inboxHere (pid lid c t : Nat) (s : State) : Bool :=
  if t < 4 then (getCore c s).owner == some (pid, lid)
  else if t = 6 then true
  else
    let r := getTs c t s
    bitsOf r.partid.toNat 0 4 == pid && bitsOf r.launchid.toNat 0 32 == lid && r.wsize != 0

/-- A completion entry is written to the inbox of its thread set, or to the spill queue of a pre-empted core; `none` while
there is no room for it. A launch that has gone discards it (15 R319; 19 R386, R387). -/
def putCompletion (pid lid c t : Nat) (x : Completion) (notify : Bool) (s : State) : Option State :=
  let e : InboxEntry := { kind := 3, data := x.bytes, ux := if notify then some x else none }
  if inboxHere pid lid c t s then
    let l := (getCore c s).inboxOf t
    if t < 4 ∧ (getCore c s).pre ≠ .none then spillAsked pid c t e s
    else if (getCore c s).spilled t = false ∧ l.length + 2 * inFlight pid lid c t s < 16 then
      let s1 := modCore c (fun k => k.setInbox t (l ++ [{ kind := 3, data := x.bytes, ux := none }])) s
      some (if notify then raiseUx c t x s1 else s1)
    else none
  else
    match heldOf pid lid c s with
    | some h => spillHeld pid lid h t e s
    | none => some s

/-! ## IBXPOP, IBXPEEK, IBXWAIT (10 R232 to R234) -/

/-- The inbox of the focused thread set. -/
def myInbox (s : State) : List InboxEntry := s.core.inboxOf s.tid

/-- The inbox instructions are ILLEGAL in slice context 6 (10 R221). -/
def inSlice (s : State) : Bool := s.tid == 6

/-- The oldest entry copied to local memory; `pop` removes it (10 R232). -/
def inboxTake (pop : Bool) (d : Reg) (off : Word) (s : State) : Eff :=
  match myInbox s with
  | [] =>
    -- the offset is checked although nothing is written (10 R232)
    ownStore 32 (genList 32 fun _ => 0) off s fun _ => .ok (setS d 0 s)
  | e :: rest =>
    ownStore 32 e.data off s fun t =>
      let t1 := setS d (w64 (leValue (e.data.take 8))) t
      .ok (if pop then drainSpill t1.here { t1 with core := t1.core.setInbox t1.tid rest } else t1)

/-- IBXPOP (10 R232). -/
def execIbxpop (d a : Reg) (s : State) : Host.Outcome State Fault Refusal :=
  .next (if inSlice s then finish useNone s (illegal 2 (.a 1 0 a.toNat d.toNat 0x3A))
    else execUse (useAD d a) s fun t => inboxTake true d (getS a t) t)

/-- IBXPEEK (10 R232). -/
def execIbxpeek (d a : Reg) (s : State) : Host.Outcome State Fault Refusal :=
  .next (if inSlice s then finish useNone s (illegal 2 (.a 2 0 a.toNat d.toNat 0x3A))
    else execUse (useAD d a) s fun t => inboxTake false d (getS a t) t)

/-- The status word of IBXWAIT (10 R233). -/
def inboxStatus (e : InboxEntry) (n : Nat) : Word := w64 (e.kind % 4 * 256 + n % 32)

/-- IBXWAIT (10 R232, R233). -/
def execIbxwait (d : Reg) (s : State) : Host.Outcome State Fault Refusal :=
  .next (if inSlice s then finish useNone s (illegal 2 (.a 3 0 0 d.toNat 0x3A))
    else execUse (useD d) s fun t =>
      match myInbox t with
      | [] => .hold t .waiting
      | e :: rest => .ok (setS d (inboxStatus e (rest.length + 1)) t))

end Sys2Proof.Machine
end

