-- ==== Sys2Proof/Machine/Queues.lean ====
section
/-! DEFINITION. Queues and packets (09 R198 to R210): descriptors, states, the fetch unit, the processing point, and the packets
that are not launches. -/
namespace Sys2Proof.Machine

/-! ## Descriptors (09 R198) -/

/-- The queue `q` of a partition. -/
def queueOf (pid q : Nat) (s : State) : Option Queue := s.queues.find? fun x => x.pid == pid && x.q == q

/-- The queue `q` of a partition changed by `f`. -/
def modQ (pid q : Nat) (f : Queue → Queue) (s : State) : State :=
  { s with queues := modWhere (fun x => x.pid == pid && x.q == q) f s.queues }

/-- The device address of the descriptor of queue `q`. -/
def descAddr (p : PartRec) (q : Nat) : Nat := p.qtable + 64 * q

/-- The `n`-byte field at `off` of the descriptor of queue `q`. -/
def descField (p : PartRec) (q off n : Nat) (s : State) : Nat := memValue s.mem n (physKey p (descAddr p q) + off)

/-- The device writes a field of the descriptor of queue `q`. -/
def putDesc (p : PartRec) (q off n x : Nat) (s : State) : State :=
  { s with mem := memWrite (physKey p (descAddr p q) + off) (leBytes n x) s.mem }

/-- LGSIZE as the ring entry count. -/
def ringSize (p : PartRec) (q : Nat) (s : State) : Nat := 2 ^ descField p q 8 1 s

/-- The tenant virtual address of ring entry `i` (09 R198). -/
def entryVa (p : PartRec) (q i : Nat) (s : State) : Nat := descField p q 0 8 s + 64 * (i % ringSize p q s)

/-- The value of STATE for a queue state (09 R198). -/
def QueueSt.code : QueueSt → Nat
  | .disabled => 0 | .running => 1 | .stopped => 2 | .halted => 3

/-- The state of a queue set, and shown in its descriptor. -/
def setQueueSt (p : PartRec) (q : Nat) (st : QueueSt) (s : State) : State :=
  putDesc p q 9 1 st.code (modQ p.pid q (fun x => { x with st := st }) s)

/-- A queue goes to HALTED, where ERROR is 0 (09 R198, R200). -/
def haltQueue (p : PartRec) (q : Nat) (s : State) : State := putDesc p q 10 1 0 (setQueueSt p q .halted s)

/-- Packets are fetched and processed while a queue is RUNNING, and while it is HALTED, when launch packets are refused
(09 R200). -/
def Queue.active (x : Queue) : Bool := x.st == .running || x.st == .halted

/-- A queue error stops a RUNNING queue (09 R200); the interrupt is VECBASE + VECTOR also for a VECTOR above 63 (log entry 37). -/
def stopQueue (p : PartRec) (q err addr : Nat) (s : State) : State :=
  match queueOf p.pid q s with
  | none => s
  | some x =>
    if x.st ≠ .running then s
    else
      let s1 := putDesc p q 24 8 addr (putDesc p q 16 4 x.point.ring (putDesc p q 10 1 err (setQueueSt p q .stopped s)))
      raiseIrq p.pid (descField p q 11 1 s)
        (modQ p.pid q (fun y => { y with copies := [], gateRead := false, ticket := none })
          { s1 with tickets := s1.tickets.filter fun t => t.party != .queue p.pid q })

/-! ## Processing order (09 R204, R208) -/

/-- A buffer moved on by `n` packets; `none` where its last pass ends. -/
def Buf.next (b : Buf) (n : Nat) : Option Buf :=
  if b.i + n < b.count then some { b with i := b.i + n }
  else if b.pass + 1 < b.passes then some { b with i := 0, pass := b.pass + 1 }
  else none

/-- Beyond a position at level 1 or 0 by `n` packets. -/
def Cursor.outer (c : Cursor) (n : Nat) : Cursor :=
  match c.l1 with
  | some b =>
    (match b.next n with
     | some b2 => { c with l1 := some b2, l2 := none }
     | none => { ring := (c.ring + 1) % 2 ^ 32, l1 := none, l2 := none })
  | none => { ring := (c.ring + n) % 2 ^ 32, l1 := none, l2 := none }

/-- Beyond a position by `n` packets of its own level (09 R205, R208). -/
def Cursor.advance (c : Cursor) (n : Nat) : Cursor :=
  match c.l2 with
  | some b =>
    (match b.next n with
     | some b2 => { c with l2 := some b2 }
     | none => Cursor.outer c 1)
  | none => c.outer n

/-- The level of a position (09 R204). -/
def Cursor.level (c : Cursor) : Nat := if c.l2.isSome then 2 else if c.l1.isSome then 1 else 0

/-- The first packet of a buffer that the packet at a position names. -/
def Cursor.enter (c : Cursor) (b : Buf) : Cursor :=
  if c.l1.isSome then { c with l2 := some b } else { c with l1 := some b }

/-- The increase of the COMPL and TIMESTAMP addresses met at a position (09 R204). -/
def Cursor.shift (c : Cursor) : Nat :=
  (match c.l1 with
   | some b => b.pass * b.stride
   | none => 0) +
  (match c.l2 with
   | some b => b.pass * b.stride
   | none => 0)

/-- The tenant virtual address of the packet at a position. -/
def packetVa (p : PartRec) (q : Nat) (c : Cursor) (s : State) : Nat :=
  match c.l2 with
  | some b => b.addr + 64 * b.i
  | none =>
    match c.l1 with
    | some b => b.addr + 64 * b.i
    | none => entryVa p q c.ring s

/-! ## Packets as 64-byte little-endian values (09 R201, R204) -/

/-- A field of a packet: `n` bytes from byte `lo`. -/
def pf (x lo n : Nat) : Nat := bitsOf x (8 * lo) (8 * n)

/-- TYPE. -/
def pType (x : Nat) : Nat := pf x 0 1
/-- FLAGS.BARRIER. -/
def pBarrier (x : Nat) : Bool := bitOf x 8
/-- FLAGS.NOTIFY. -/
def pNotify (x : Nat) : Bool := bitOf x 9
/-- FLAGS has a reserved bit set. -/
def pFlagsBad (x : Nat) : Bool := bitsOf x 10 6 != 0

/-- The buffer of an INDIRECT or LOOP packet (09 R204). -/
def pBuf (x : Nat) : Buf :=
  { addr := pf x 8 8, count := pf x 2 2, passes := if pType x = 4 then pf x 4 2 else 1, stride := pf x 16 4, i := 0, pass := 0 }

/-- An INDIRECT or LOOP packet breaks a limit of R204. -/
def pBufBad (x : Nat) : Bool :=
  pf x 2 2 == 0 || decide (4096 < pf x 2 2) || pf x 6 2 != 0 || pf x 8 8 % 64 != 0 || pf x 20 44 != 0 ||
    (if pType x = 4 then pf x 16 4 % 32 != 0 || decide (2 ^ 20 < pf x 16 4) else pf x 4 2 != 0 || pf x 16 4 != 0)

/-- The position that follows a packet in processing order (09 R204, R208). -/
def nextPos (c : Cursor) (x : Nat) : Cursor :=
  if (pType x = 2 ∨ pType x = 4) ∧ pBufBad x = false ∧ c.level < 2 ∧ (pBuf x).passes ≠ 0 then c.enter (pBuf x) else c.advance 1

/-! ## Accesses of the front end (09 R199 to R207; 19 R388) -/

/-- What an access of the front end comes to. -/
inductive Fe where
  | ok (s : State) (x key : Nat)
  | fault (s : State) (code detail : Nat)
  | wait (s : State)

/-- A fault at or below an HB entry, met at the processing point of queue `q` (19 R388). -/
def feHost (p : PartRec) (q va lvl : Nat) (k : Kind) (s : State) : Fe :=
  match queueOf p.pid q s with
  | none => .wait s
  | some x =>
    match x.ticket.bind fun n => s.tickets.find? fun t => t.num == n with
    | some t =>
      (match t.denied with
       | some true =>
         .fault (modQ p.pid q (fun y => { y with ticket := none }) { s with tickets := s.tickets.filter fun u => u.num != t.num })
           0x26 (t.lvl * 4 + k.bits)
       | _ => .wait s)
    | none =>
      .wait (modQ p.pid q (fun y => { y with ticket := some s.nextTicket })
        (newTicket { num := 0, pid := p.pid, lid := 0, va := va, kind := k.bits, lvl := lvl, party := .queue p.pid q,
                     denied := none } s))

/-- A read of `n` bytes by the front end. -/
def feRead (p : PartRec) (q n va : Nat) (s : State) : Fe :=
  if 2 ^ 53 ≤ va then .fault s 0x21 0
  else
    match placeVa p.pid va .load .either s with
    | .ok t key _ _ => if (readError key n t).isSome then .fault t 0x83 0 else .ok (correct key n t) (memValue t.mem n key) key
    | .fault t code detail => .fault t code detail
    | .host t lvl => feHost p q va lvl .load t
    | .merr code _ => .fault s code 0

/-- A write of bytes at a place of a partition performed: no L1 keeps an old copy (11 R254). -/
def placeWrite (p : PartRec) (key e pa : Nat) (bs : List Byte) (s : State) : State :=
  land key bs 0 (if pteC e then homeUse p pa none true s else s)

/-! ## The processing point (09 R208) -/

/-- RDIDX shown, and the ring entries that a PREDICATE skips left behind as they are published (09 R205, R208). -/
def settlePoint (p : PartRec) (q : Nat) (s : State) : State :=
  match queueOf p.pid q s with
  | none => s
  | some x =>
    match x.door with
    | none => s
    | some d =>
      let n := Nat.min x.skip ((d + 2 ^ 32 - x.point.ring) % 2 ^ 32)
      let r := (x.point.ring + n) % 2 ^ 32
      putDesc p q 16 4 r (modQ p.pid q (fun y => { y with skip := y.skip - n, point := { y.point with ring := r } }) s)

/-- Copies from the processing point on. -/
def copiesFrom (c : Cursor) : List PktCopy → List PktCopy
  | [] => []
  | k :: ks => if k.pos = c then k :: ks else copiesFrom c ks

/-- The processing point moved to a position (09 R208). -/
def movePoint (p : PartRec) (q : Nat) (c : Cursor) (skip : Nat) (s : State) : State :=
  let s1 := settlePoint p q (modQ p.pid q (fun x => { x with point := c, skip := x.skip + skip, gateRead := false, ticket := none }) s)
  modQ p.pid q (fun x => { x with copies := copiesFrom x.point x.copies }) s1

/-- The doorbell value is within the ring (09 R199). -/
def doorOk (p : PartRec) (x : Queue) (s : State) : Bool :=
  match x.door with
  | none => true
  | some d => decide ((d + 2 ^ 32 - x.point.ring) % 2 ^ 32 ≤ ringSize p x.q s)

/-- A queue that is RUNNING stops with BAD_INDEX where its doorbell value is beyond the ring (09 R199). -/
def checkDoor (p : PartRec) (q : Nat) (s : State) : State :=
  match queueOf p.pid q s with
  | none => s
  | some x => if doorOk p x s then s else stopQueue p q 5 (entryVa p q x.point.ring s) s

/-- DOORBELL (09 R199). -/
def execDoorbell (pid q : Nat) (x : W32) (s : State) : Host.Outcome State Fault Refusal :=
  .next (match partOf pid s with
    | none => s
    | some p =>
      -- doorbells travel on the link (22 R419)
      if s.gwerid = .down then s else settlePoint p.rcd q (checkDoor p.rcd q (modQ pid q (fun y => { y with door := some x.toNat }) s)))

/-- The descriptor meets its limits (09 R198, R200). -/
def descOk (p : PartRec) (q : Nat) (s : State) : Bool :=
  descField p q 0 8 s % 64 == 0 && decide (4 ≤ descField p q 8 1 s) && decide (descField p q 8 1 s ≤ 20) &&
    decide (descField p q 11 1 s ≤ 63) && descField p q 12 4 s == 0 && descField p q 32 32 s == 0

/-- A queue enters RUNNING, at level 0 of ring entry RDIDX (09 R200). -/
def startQueue (p : PartRec) (q : Nat) (s : State) : State :=
  let r := descField p q 16 4 s
  let s1 := setQueueSt p q .running (modQ p.pid q (fun x => { x with point := { ring := r, l1 := none, l2 := none }, copies := [],
                                                                     gateRead := false, ticket := none }) s)
  if descOk p q s1 then settlePoint p q (checkDoor p q s1) else stopQueue p q 2 (descAddr p q) s1

/-- QUEUE_STATE_WRITE (09 R200): software writes STATE; the device writes the actual state back. -/
def execQueueStateWrite (pid q : Nat) (x : Byte) (s : State) : Host.Outcome State Fault Refusal :=
  .next (match partOf pid s, queueOf pid q s with
    | some p, some y =>
      (match y.st with
       | .disabled => if x = 1 then startQueue p.rcd q s else putDesc p.rcd q 9 1 0 s
       | .stopped =>
         if x = 1 then startQueue p.rcd q (putDesc p.rcd q 10 1 0 s)
         else if x = 0 then setQueueSt p.rcd q .disabled s
         else putDesc p.rcd q 9 1 2 s
       | .running =>
         if x = 0 then
           setQueueSt p.rcd q .disabled (modQ pid q (fun z => { z with copies := [], gateRead := false, ticket := none })
             { s with tickets := s.tickets.filter fun t => t.party != .queue pid q })
         else putDesc p.rcd q 9 1 1 s
       | .halted => putDesc p.rcd q 9 1 3 s)
    | _, _ => s)

/-! ## Fetch (09 R209) -/

/-- The position of the packet that the fetch unit reads next (09 R209). -/
def Queue.fetchPos (x : Queue) : Cursor :=
  match x.copies.getLast? with
  | none => x.point
  | some k => nextPos k.pos (leValue k.data)

/-- The packet at a position has been published: its ring entry lies before the doorbell value, which may be less than an earlier one
(09 R199). -/
def published (p : PartRec) (c : Cursor) (x : Queue) (s : State) : Bool :=
  c.l1.isSome || (match x.door with
    | none => false
    | some d =>
      let n := (d + 2 ^ 32 - c.ring) % 2 ^ 32
      decide (1 ≤ n) && decide (n ≤ ringSize p x.q s))

/-- The copies of packets that follow the processing point (09 R209). -/
def Queue.ahead (x : Queue) : Nat := (x.copies.filter fun k => k.pos != x.point).length

/-- PACKET_FETCH (09 R209): one packet is copied; a fault stops the queue where it strikes the packet at the processing point
(09 R200; 19 R388). -/
def execPacketFetch (pid q : Nat) (s : State) : Host.Outcome State Fault Refusal :=
  .next (match partOf pid s, queueOf pid q s with
    | some p, some x =>
      let c := x.fetchPos
      if x.active = false ∨ published p.rcd c x s = false ∨ (c ≠ x.point ∧ 8 ≤ x.ahead) then s
      else
        let va := packetVa p.rcd q c s
        match feRead p.rcd q 64 va s with
        | .ok t v _ => modQ pid q (fun y => { y with copies := y.copies ++ [{ pos := c, data := leBytes 64 v }] }) t
        | .fault t _ _ => if c = x.point then stopQueue p.rcd q 4 va t else s
        | .wait t => if c = x.point then t else s
    | _, _ => s)

/-! ## Processing (09 R201, R204 to R208) -/

/-- Launches of the queue whose completion records have not been written (09 R201, R208). -/
def openLaunches (pid q : Nat) (s : State) : Bool := s.launches.any fun l => l.pid == pid && l.q == q

/-- The copy of the packet at the processing point. -/
def Queue.pointCopy (x : Queue) : Option Nat :=
  match x.copies with
  | [] => none
  | k :: _ => if k.pos = x.point then some (leValue k.data) else none

/-- What the packet at the processing point of queue `q` does, if it is of a type and nothing holds it (09 R208). -/
def process (ty pid q : Nat) (s : State) (f : PartRec → Queue → Nat → State) : State :=
  match partOf pid s, queueOf pid q s with
  | some p, some x =>
    (match x.pointCopy with
     | none => s
     | some v =>
       if x.active = false ∨ pType v ≠ ty ∨ (pBarrier v = true ∧ openLaunches pid q s = true) then s else f p.rcd x v)
  | _, _ => s

/-- The packet at the processing point has been processed: its NOTIFY interrupt is raised, and the point moves on
(09 R201, R208). -/
def packetDone (p : PartRec) (q v : Nat) (c : Cursor) (skip : Nat) (s : State) : State :=
  movePoint p q c skip (if pNotify v then raiseIrq p.pid (descField p q 11 1 s) s else s)

/-- A packet that breaks a limit stops its queue (09 R200). -/
def packetBad (p : PartRec) (x : Queue) (err : Nat) (s : State) : State := stopQueue p x.q err (packetVa p x.q x.point s) s

/-- An INDIRECT or LOOP packet (09 R204). -/
def bufferPacket (p : PartRec) (x : Queue) (v : Nat) (s : State) : State :=
  if x.point.level = 2 then packetBad p x 3 s
  else if pFlagsBad v || pBufBad v then packetBad p x 2 s
  else packetDone p x.q v (nextPos x.point v) 0 s

/-- INDIRECT (09 R204). -/
def execIndirect (pid q : Nat) (s : State) : Host.Outcome State Fault Refusal :=
  .next (process 2 pid q s fun p x v => bufferPacket p x v s)

/-- LOOP (09 R204). -/
def execLoop (pid q : Nat) (s : State) : Host.Outcome State Fault Refusal :=
  .next (process 4 pid q s fun p x v => bufferPacket p x v s)

/-- A PREDICATE packet breaks a limit of R205. -/
def predicateBad (v : Nat) : Bool :=
  pFlagsBad v || decide (3 < pf v 2 1) || pf v 3 1 == 0 || pf v 4 4 != 0 || pf v 8 8 % 8 != 0 || pf v 32 32 != 0

/-- The relation of a PREDICATE packet (09 R205). -/
def predicateHolds (v word : Nat) : Bool :=
  let a := word &&& pf v 24 8
  let b := pf v 16 8
  match pf v 2 1 with
  | 0 => a == b
  | 1 => a != b
  | 2 => decide (b ≤ a)
  | _ => decide (a < b)

/-- PREDICATE (09 R205). -/
def execPredicate (pid q : Nat) (s : State) : Host.Outcome State Fault Refusal :=
  .next (process 3 pid q s fun p x v =>
    if predicateBad v then packetBad p x 2 s
    else
      match feRead p q 8 (pf v 8 8) s with
      | .wait t => t
      | .fault t _ _ => packetBad p x 4 t
      | .ok t w _ =>
        if predicateHolds v w then packetDone p q v (x.point.advance 1) 0 t
        else if x.point.level = 0 then packetDone p q v (x.point.advance 1) (pf v 3 1) t
        else packetDone p q v (x.point.advance (1 + pf v 3 1)) 0 t)

/-- A FETCH_FENCE packet breaks a limit of R206. -/
def fenceBad (v : Nat) : Bool := pFlagsBad v || pf v 2 6 != 0 || pf v 8 8 % 8 != 0 || pf v 24 40 != 0

/-- A fence passes: every copy after it is discarded (09 R206). -/
def fencePass (p : PartRec) (x : Queue) (v : Nat) (s : State) : State :=
  packetDone p x.q v (x.point.advance 1) 0 (modQ p.pid x.q (fun y => { y with copies := [] }) s)

/-- The gate word of a fence is read (09 R206). -/
def gateRead (p : PartRec) (x : Queue) (v : Nat) (s : State) : State :=
  match feRead p x.q 8 (pf v 8 8) s with
  | .wait t => t
  | .fault t _ _ => packetBad p x 4 t
  | .ok t w _ =>
    if w = pf v 16 8 then fencePass p x v t else modQ p.pid x.q (fun y => { y with gateRead := true }) t

/-- FETCH_FENCE (09 R206). -/
def execFetchFence (pid q : Nat) (s : State) : Host.Outcome State Fault Refusal :=
  .next (process 5 pid q s fun p x v =>
    if x.gateRead then s
    else if fenceBad v then packetBad p x 2 s
    else if pf v 8 8 = 0 then fencePass p x v s
    else gateRead p x v s)

/-- GATE_POLL (09 R206): the gate word of the fence that holds the processing point is read again. -/
def execGatePoll (pid q : Nat) (s : State) : Host.Outcome State Fault Refusal :=
  .next (process 5 pid q s fun p x v => if x.gateRead then gateRead p x v s else s)

/-- TIMESTAMP (09 R207). -/
def execTimestamp (pid q : Nat) (s : State) : Host.Outcome State Fault Refusal :=
  .next (process 6 pid q s fun p x v =>
    if pFlagsBad v || pf v 2 6 != 0 || pf v 8 8 % 8 != 0 || pf v 16 48 != 0 then packetBad p x 2 s
    else
      let va := (pf v 8 8 + x.point.shift) % 2 ^ 64
      if 2 ^ 53 ≤ va then packetBad p x 6 s
      else
        match placeVa pid va .store .forbid s with
        | .ok t key e pa =>
          if storeLost key 8 t then packetBad p x 6 t
          else packetDone p q v (x.point.advance 1) 0 (placeWrite p key e pa (leBytes 8 t.time) t)
        | .fault t _ _ => packetBad p x 6 t
        | .merr _ _ => packetBad p x 6 s
        | .host t lvl =>
          match feHost p q va lvl .store t with
          | .fault u _ _ => packetBad p x 6 u
          | .wait u => u
          | .ok u _ _ => u)

/-- NOP_PACKET (09 R207). -/
def execNopPacket (pid q : Nat) (s : State) : Host.Outcome State Fault Refusal :=
  .next (process 7 pid q s fun p x v =>
    if pFlagsBad v || pf v 2 62 != 0 then packetBad p x 2 s else packetDone p q v (x.point.advance 1) 0 s)

/-- BAD_TYPE_PACKET (09 R200): it stops its queue when it reaches the processing point. -/
def execBadTypePacket (pid q : Nat) (s : State) : Host.Outcome State Fault Refusal :=
  .next (match partOf pid s, queueOf pid q s with
    | some p, some x =>
      (match x.pointCopy with
       | none => s
       | some v => if pType v = 0 ∨ 8 ≤ pType v then packetBad p.rcd x 1 s else s)
    | _, _ => s)

end Sys2Proof.Machine
end

