-- ==== Sys2Proof/Machine/Admission.lean ====
section
/-! DEFINITION. Completion records (09 R215), admission and demotion (09 R211 to R214, R218, R220), and the launch packet. -/
namespace Sys2Proof.Machine

/-! ## Completion records (09 R215) -/

/-- The value of DEADLINE that means none (09 R202). -/
def noDeadline : Nat := 2 ^ 64 - 1

/-- The launch id that records show: a refused launch has the key of the model's own, from 2^32 on, and shows 0. -/
def Launch.shownId (l : Launch) : Nat := if 2 ^ 32 ≤ l.lid then 0 else l.lid

/-- FLAGS of a completion record (09 R215). -/
def Launch.flags (l : Launch) : Nat :=
  (if l.demoted then 1 else 0) + (if l.missed then 2 else 0) + (if l.graceUsed then 4 else 0) + (if l.degraded then 8 else 0) +
    (if l.ovTrap then 16 else 0)

/-- The 32 bytes of a completion record (09 R215). -/
def Launch.recordBytes (l : Launch) (tend : Nat) : List Byte :=
  leBytes 1 l.code ++ leBytes 1 l.outcome ++ leBytes 1 l.flags ++ leBytes 1 (l.overC.getD 0xFF) ++ leBytes 4 l.shownId ++
    leBytes 8 l.tadmit ++ leBytes 8 l.tstart ++ leBytes 8 tend

/-- A launch leaves the machine: its record has been written or dropped, and the NOTIFY interrupt follows (09 R201, R215). -/
def closeLaunch (l : Launch) (s : State) : State :=
  let s1 := { s with
    launches := s.launches.filter fun x => !(x.pid == l.pid && x.lid == l.lid)
    tickets := s.tickets.filter fun t => t.party != .launch l.pid l.lid }
  match partOf l.pid s1 with
  | some p => if l.notify then raiseIrq l.pid (descField p.rcd l.q 11 1 s1) s1 else s1
  | none => s1

/-- The write of a completion record is dropped with a record of kind 5 (09 R215). -/
def dropRecord (l : Launch) (code detail : Nat) (s : State) : State :=
  closeLaunch l (writeFault l.pid { kind := 5, code := code, detail := detail, tsid := 0, lid := l.shownId, addr := w64 l.compl,
                                    coord := 0, pc := 0 } s)

/-- The ticket on which a completion record waits. -/
def recordTicket (l : Launch) (s : State) : Option Ticket := s.tickets.find? fun t => t.party == .launch l.pid l.lid

/-- The completion record of a launch that has ended is written, dropped, or waits for the host (09 R215, 19 R388). -/
def writeRecord (l : Launch) (s : State) : State :=
  match recordTicket l s with
  | some t =>
    (match t.denied with
     | some true => dropRecord l 0x26 (t.lvl * 4 + t.kind) s
     | _ => s)
  | none =>
    if l.compl % 32 ≠ 0 then dropRecord l 0x20 1 s
    else if 2 ^ 53 ≤ l.compl then dropRecord l 0x21 1 s
    else
      match placeVa l.pid l.compl .store .forbid s, partOf l.pid s with
      | .ok t key e pa, some p =>
        if storeLost key 32 t then dropRecord l 0x84 0 t
        else closeLaunch l (placeWrite p.rcd key e pa (l.recordBytes t.time) t)
      | .ok t _ _ _, none => t
      | .fault t code detail, _ => dropRecord l code detail t
      | .merr code _, _ => dropRecord l code 0 s
      | .host t lvl, _ =>
        if t.gwerid = .down then dropRecord l 0x26 (lvl * 4 + 1) t
        else
          newTicket { num := 0, pid := l.pid, lid := l.shownId, va := l.compl, kind := 1, lvl := lvl,
                      party := .launch l.pid l.lid, denied := none } t

/-! ## The admission test (09 R214, R220) -/

/-- The launch is counted in the sums (09 R212 to R214; 20 R394). -/
def Launch.inSums (pid : Nat) (l : Launch) : Bool :=
  l.pid == pid && decide (l.lid < 2 ^ 32) && l.st != .completed && !l.pen && !l.demoted && l.deadline != noDeadline

/-- The cores of a partition whose flows use the escape class, each one half of a core (22 R418). -/
def escapeCores (p : PartRec) (s : State) : Nat :=
  (p.cores.filter fun c => s.flows.any fun f => f.escape && !f.back && (f.flow.src == routerOf c s || f.flow.dst == routerOf c s)).length

/-- cap_k as a fraction, in units per ns; `eta2` is 2η (09 R214). -/
def capacity (p : PartRec) (k eta2 : Nat) (s : State) : Nat × Nat :=
  let f := clockTenths s.fw.profile
  match k with
  | 0 => (eta2 * (2 * p.cores.length - escapeCores p s) * f * 63, 4 * 640)
  | 1 => (2048 * f * p.shareM * 63, 640 * 64)
  | 2 => (256 * f * p.shareX * 63, 640 * 64)
  | _ => (512 * p.shareO * 63, 64 * 64)

/-- Σ of rem[k] over the launches due by `d` (09 R214). -/
def dueLoad (set : List Launch) (k d : Nat) : Nat :=
  sumList ((set.filter fun j => decide (j.deadline ≤ d)).map fun j => j.remaining k)

/-- One comparison of AdmitTest: the load, smax and 20,000 ns fit before `d` (09 R214); `sbound` counts in 1/240 ns. -/
def fits (cap : Nat × Nat) (load smax d now : Nat) : Bool :=
  if cap.1 = 0 then load == 0 && decide (smax + 4800000 ≤ (d - now) * 240)
  else decide (load * cap.2 * 240 + (smax + 4800000) * cap.1 ≤ (d - now) * 240 * cap.1)

/-- AdmitTest over a set, for the deadlines from `d0` on (09 R214). -/
def admitTest (p : PartRec) (set : List Launch) (d0 : Nat) (s : State) : Bool :=
  let same := match set with
    | [] => true
    | j :: js => js.all fun x => x.lgw == j.lgw && x.lgh == j.lgh
  let smax := set.foldl (fun m j => Nat.max m j.sbound) 0
  (List.range 4).all fun k =>
    (set.filter fun j => decide (d0 ≤ j.deadline)).all fun d =>
      fits (capacity p k (if same then 2 else 1) s) (dueLoad set k d.deadline) smax d.deadline s.time

/-- The admission start bound s, in 1/240 ns (09 R220). -/
def startBound (level m lg : Nat) (s : State) : Nat :=
  (1200 + 400 * level) * 240 + (1240 + ceilDiv m 512 + 6 * lg + 64) * (2400 / clockTenths s.fw.profile)

/-! ## Demotion (09 R212, R218) -/

/-- DEMOTE of R212. -/
def demote (l : Launch) : Launch := { l with demoted := true }

/-- The launch that R218 demotes first: the lowest priority, then the latest deadline. -/
def demoteFirst : List Launch → Option Launch
  | [] => none
  | l :: ls =>
    match demoteFirst ls with
    | none => some l
    | some m => if m.prio < l.prio ∨ (m.prio = l.prio ∧ l.deadline ≤ m.deadline) then some m else some l

/-- Launches are demoted one by one until the test passes over the admitted set (09 R218). -/
def demoteUntil (p : PartRec) : Nat → State → State
  | 0, s => s
  | n + 1, s =>
    let set := s.launches.filter (Launch.inSums p.pid)
    if admitTest p set 0 s then s
    else
      match demoteFirst set with
      | none => s
      | some l => demoteUntil p n (modLaunch l.pid l.lid (fun x => { demote x with degraded := true }) s)

/-- The rerun of R218 at an admission after the capacity of the partition has fallen. -/
def afterFall (p : Partition) (s : State) : State :=
  if p.capFell then modPart p.rcd.pid (fun q => { q with capFell := false }) (demoteUntil p.rcd s.launches.length s) else s

/-! ## The checks of R213 -/

/-- LGW of a launch packet. -/
def lpLgw (v : Nat) : Nat := bitsOf v 16 3
/-- LGH of a launch packet. -/
def lpLgh (v : Nat) : Nat := bitsOf v 19 3
/-- N of a launch packet. -/
def lpN (v : Nat) : Nat := 2 ^ (lpLgw v + lpLgh v)
/-- PRIO. -/
def lpPrio (v : Nat) : Nat := bitsOf v 24 6
/-- POLICY. -/
def lpPolicy (v : Nat) : Nat := bitsOf v 30 2
/-- DEADLINE. -/
def lpDeadline (v : Nat) : Nat := pf v 8 8
/-- The declared budget of a class. -/
def lpBudget (v k : Nat) : Nat := if k = 3 then pf v 40 4 else pf v (16 + 8 * k) 8
/-- The value of a budget field that means unlimited (09 R211). -/
def budgetOnes (k : Nat) : Nat := if k = 3 then 2 ^ 32 - 1 else 2 ^ 64 - 1

/-- Check 2 of R213: a field of R202 other than SHAPE, a budget or a reserved byte is outside its limits; a penumbra launch
has no deadline (20 R394). N of a reserved SHAPE is that of its raw fields (log entry 38). -/
def lpMalformed (v : Nat) (pen : Bool) : Bool :=
  pFlagsBad v || decide (47 < lpPrio v) || lpPolicy v == 3 || pf v 6 2 != 0 || pf v 44 4 % 4 != 0 ||
    decide (0xFC000 ≤ pf v 44 4) || pf v 48 8 % 64 != 0 || pf v 56 8 % 32 != 0 ||
    (lpDeadline v != noDeadline &&
      (pen || ((List.range 3).any fun k => decide (2 ^ 48 ≤ lpBudget v k)) || lpBudget v 3 == 2 ^ 32 - 1 ||
        decide (lpBudget v 0 < lpN v)))

/-- The cores on which a launch of a partition may be placed (09 R213, 20 R394). -/
def usableCores (pid : Nat) (pen : Bool) (s : State) : List Nat :=
  ((s.parts.filter fun p => if pen then bitOf p.rcd.penhost pid else p.rcd.pid == pid).map fun p => p.rcd.cores).flatten

/-- The cores on which a dispatcher may place a launch of a partition (09 R216, 20 R395, 25 R473). -/
def dispatchCores (pid : Nat) (pen : Bool) (s : State) : List Nat := (usableCores pid pen s).filter (clocked s)

/-- The aligned positions of a shape, lowest row first, then lowest column (08 R176, 09 R216). -/
def alignedAt (lgh lgw : Nat) : List (Nat × Nat) :=
  (genList (32 / 2 ^ lgh) fun r => genList (64 / 2 ^ lgw) fun c => (r * 2 ^ lgh, c * 2 ^ lgw)).flatten

/-- The aligned positions of a shape whose cores are all among some. -/
def positionsIn (cores : List Nat) (lgh lgw : Nat) : List (Nat × Nat) :=
  (alignedAt lgh lgw).filter fun x => (rectCores x.1 x.2 lgh lgw).all fun c => cores.contains c

/-- The shape of a packet is reserved or has no position in the partition's cores (09 R213). -/
def shapeBad (pid v : Nat) (pen : Bool) (s : State) : Bool :=
  bitsOf v 22 2 != 0 || lpLgw v == 7 || decide (5 < lpLgh v) || (positionsIn (usableCores pid pen s) (lpLgh v) (lpLgw v)).isEmpty

/-- The reserved bits of a TVEC or UXVEC value (01 R20). -/
def vecReserved (x : Nat) : Bool := bitsOf x 20 12 != 0 || bitOf x 1

/-- The staging header, as a 64-byte value, meets R203, with R394 for a penumbra launch of window size `w`. -/
def headerOk (h : Nat) (w : Option Nat) : Bool :=
  pf h 0 4 % 4 == 0 && pf h 56 4 % 4 == 0 && decide (pf h 56 4 + pf h 0 4 ≤ 0xFC000) && decide (pf h 4 2 ≤ 1024) &&
    decide (pf h 6 1 ≤ 8) && pf h 7 1 == 0 && pf h 60 4 == 0 && !vecReserved (pf h 8 4) && !vecReserved (pf h 12 4) &&
    ((List.range 8).all fun i => decide (i < pf h 6 1) || pf h (16 + 4 * i) 4 == 0) &&
    (match w with
     | none => true
     | some x => pf h 6 1 == 0 && decide (pf h 56 4 + pf h 0 4 + 4096 ≤ x))

/-- The partition's queue is a penumbra queue (20 R389). -/
def isPenQueue (p : PartRec) (q : Nat) : Bool := bitOf p.penq q

/-- W of a penumbra queue (20 R389). -/
def windowOf (p : PartRec) (q : Nat) : Option Nat :=
  if isPenQueue p q then (p.pwin.find? fun x => x.1 == q).map fun x => 2 ^ x.2 else none

/-- The admitted launches of a partition that have not completed (09 R213). -/
def uncompleted (pid : Nat) (s : State) : List Launch := s.launches.filter fun l => l.pid == pid && decide (l.lid < 2 ^ 32)

/-- Check 6 of R213. -/
def quotaBad (p : PartRec) (v : Nat) (s : State) : Bool :=
  decide (256 ≤ (uncompleted p.pid s).length) || (lpBudget v 1 != 0 && p.shareM == 0) || (lpBudget v 2 != 0 && p.shareX == 0) ||
    (lpBudget v 3 != 0 && p.shareO == 0)

/-- The launches with a declared edge to the next launch packet (09 R208). -/
def Queue.preds (x : Queue) : List Nat := (x.edges.filter fun e => e.left == 0).map fun e => e.src

/-- The edges after a launch packet: those to it are used, the others come one packet nearer, and its own are added (09 R208). -/
def Queue.nextEdges (x : Queue) (v src : Nat) : List Edge :=
  ((x.edges.filter fun e => e.left != 0).map fun e => { e with left := e.left - 1 }) ++
    ((List.range 16).filter fun i => bitOf (pf v 4 2) i).map fun i => { src := src, left := i }

/-- The lowest slot that no uncompleted launch of the partition holds (11 R237). -/
def freeSlot (pid : Nat) (s : State) : Nat :=
  ((List.range 256).find? fun n => !((uncompleted pid s).any fun l => l.slot == n)).getD 0

/-- A launch of a packet and its staging header, with its key, decided at the present device time. -/
def launchFrom (p : PartRec) (x : Queue) (v h lid : Nat) (s : State) : Launch :=
  let dl := lpDeadline v
  { pid := p.pid, lid := lid, slot := freeSlot p.pid s, q := x.q, pen := isPenQueue p x.q, lgw := lpLgw v, lgh := lpLgh v,
    row0 := 0, col0 := 0, prio := lpPrio v, policy := lpPolicy v, deadline := dl,
    declared := vecGen 4 (lpBudget v), charged := vecGen 4 fun _ => 0, grace := vecGen 4 fun _ => none, graceFrom := vecGen 4 fun _ => none,
    unlimited := vecGen 4 fun k => dl == noDeadline && lpBudget v k == budgetOnes k, trapped := vecGen 4 fun _ => false,
    overC := none, demoted := false, missed := false, graceUsed := false, degraded := false, ovTrap := false,
    entry := pf v 44 4, image := pf v 48 8, compl := (pf v 56 8 + x.point.shift) % 2 ^ 64, notify := pNotify v,
    sbound := startBound x.point.level (pf h 0 4 + 4 * pf h 4 2) (lpLgw v + lpLgh v) s,
    imgBytes := pf h 0 4, kwords := pf h 4 2, stages := genList (pf h 6 1) fun i => pf h (16 + 4 * i) 4, tvec := pf h 8 4,
    uxvec := pf h 12 4, seed := pf h 48 8, lmbase := pf h 56 4, st := .admitted, preds := x.preds, tadmit := s.time, tstart := 0,
    outcome := 0, code := 0, kill := none, palGen := vecGen 11 fun _ => 0, palReqs := [], ctxs := [], held := [] }

/-- Check 7 of R213 for a candidate with a deadline; a demoted launch keeps its declared one for the edges (log entry 38). -/
def infeasible (p : PartRec) (c : Launch) (s : State) : Bool :=
  ((uncompleted p.pid s).any fun l => c.preds.contains l.lid && (l.deadline == noDeadline || decide (c.deadline < l.deadline))) ||
    !admitTest p (c :: s.launches.filter (Launch.inSums p.pid)) c.deadline s

/-- The processing point passes a launch packet whose launch has a key (09 R208). -/
def passLaunch (p : PartRec) (x : Queue) (v key : Nat) (s : State) : State :=
  movePoint p x.q (x.point.advance 1) 0 (modQ p.pid x.q (fun y => { y with edges := y.nextEdges v key }) s)

/-- A launch packet is refused: its record is written at once with OUTCOME NOT_RUN (09 R213). -/
def refuseLaunch (p : PartRec) (x : Queue) (v code : Nat) (s : State) : State :=
  let key := 2 ^ 32 + s.seq
  let l := { launchFrom p x v 0 key s with code := code, outcome := 1, st := .completed }
  let s1 := passLaunch p x v key { s with seq := s.seq + 1, launches := s.launches ++ [l] }
  writeRecord l s1

/-- A launch packet is admitted (09 R213, R215); a penumbra launch gets its contexts, all QUEUED (20 R402). -/
def admitLaunch (p : Partition) (x : Queue) (v h : Nat) (s : State) : State :=
  let lid := (p.lastLid + 1) % 2 ^ 32
  let l := launchFrom p.rcd x v h lid s
  let l1 := if l.pen then
      { l with ctxs := genList (2 ^ (l.lgw + l.lgh)) fun r =>
                 { rank := r, st := .queued, core := 0, bank := 0, frame := 0, why := 0, cancelled := 0, saved := none, cmds := [] } }
    else l
  passLaunch p.rcd x v lid
    (modPart p.rcd.pid (fun y => { y with lastLid := lid }) { s with launches := s.launches ++ [l1] })

/-- Checks 3 to 7 of R213 for a packet whose staging header is `h`, if it can be read. -/
def launchChecks (p : Partition) (x : Queue) (v : Nat) (h : Option Nat) (s : State) : State :=
  let stagesBad := match h with
    | some y => decide (lpN v < pf y 6 1)
    | none => false
  if stagesBad then refuseLaunch p.rcd x v 4 s
  else
    match h with
    | none => refuseLaunch p.rcd x v 6 s
    | some y =>
      if headerOk y (windowOf p.rcd x.q) = false then refuseLaunch p.rcd x v 6 s
      else if lpDeadline v ≠ noDeadline ∧ lpDeadline v ≤ s.time then refuseLaunch p.rcd x v 3 s
      else if quotaBad p.rcd v s then refuseLaunch p.rcd x v 5 s
      else if lpDeadline v ≠ noDeadline ∧ infeasible p.rcd (launchFrom p.rcd x v y 0 s) s = true then refuseLaunch p.rcd x v 1 s
      else admitLaunch p x v y s

/-- LAUNCH (09 R213): the launch packet at the processing point is admitted or refused. -/
def execLaunch (pid q : Nat) (s : State) : Host.Outcome State Fault Refusal :=
  .next (process 1 pid q s fun p x v =>
    match partOf pid s with
    | none => s
    | some k =>
      let t := afterFall k s
      if x.st = .halted then refuseLaunch p x v 7 t
      else if lpMalformed v (isPenQueue p q) then refuseLaunch p x v 2 t
      else if shapeBad pid v (isPenQueue p q) t then refuseLaunch p x v 4 t
      else
        match feRead p q 64 (pf v 48 8) t with
        | .wait u => u
        | .fault u _ _ => launchChecks k x v none u
        | .ok u h _ => launchChecks k x v (some h) u)

end Sys2Proof.Machine
end

