-- ==== Sys2Proof/Machine/Atomics.lean ====
section
/-! DEFINITION. Atomic memory operations, and the performance of what has retired (13 R283, R291 to R295; 11 R255; 19 R374 to
R377). -/
namespace Sys2Proof.Machine

/-! ## The operation (13 R292, R296) -/

/-- The floating-point format of an element of w bytes. -/
def amoFmt (w : Nat) : FFmt := if w = 4 then .f32 else .f64

/-- What an atomic operation writes over the old value, if it writes (13 R292, R296). -/
def amoNew (op : AmoOp) (w old x c : Nat) : Option Nat :=
  match op with
  | .add => some ((old + x) % 2 ^ (8 * w))
  | .and => some (old &&& x)
  | .or => some (old ||| x)
  | .xor => some (old ^^^ x)
  | .min => some (if signedOf (8 * w) old ≤ signedOf (8 * w) x then old else x)
  | .max => some (if signedOf (8 * w) x ≤ signedOf (8 * w) old then old else x)
  | .minu => some (if old ≤ x then old else x)
  | .maxu => some (if x ≤ old then old else x)
  | .swap => some x
  | .cas => if old = c then some x else none
  | .fadd => some (faddV (amoFmt w) .rne (fdecode (amoFmt w) old) (fdecode (amoFmt w) x) 0).1
  | .fmin => some (fminmax (amoFmt w) false old x)
  | .fmax => some (fminmax (amoFmt w) true old x)

/-! ## Placement (11 R255) -/

/-- The placement hints (02 R52). -/
inductive AmoPlace where
  | auto | loc | home
  deriving DecidableEq, Repr

/-- The contention counter of a core and line (11 R255). -/
def predOf (pa : Nat) (s : State) : Nat := lookupD 0 s.core.pred (predIndex pa)

/-- A shared-memory line that no L1 caches (11 R255). -/
def sharedUncached (pa : Nat) (s : State) : Bool := isSharedPa pa && (dirOf (dirLine (myPid s) pa) s).isNone

/-- An atomic on memory of class `cls` is performed at the home slice (11 R255). -/
def atHome (pl : AmoPlace) (cls : Cls) (pa : Nat) (s : State) : Bool :=
  match cls with
  | .lm => false
  | .hs => true
  | .l1 =>
    if sharedUncached pa s then true
    else
      match pl with
      | .auto => decide (2 ≤ predOf pa s)
      | .loc => false
      | .home => true

/-- The class in which an atomic is performed (12 R260). -/
def amoCls (pl : AmoPlace) (cls : Cls) (pa : Nat) (s : State) : Cls :=
  match cls with
  | .lm => .lm
  | .l1 => if atHome pl .l1 pa s then .hs else .l1
  | .hs => .hs

/-- The atomic moves the contention counter of its core: it is an .auto one on a cacheable line (11 R255). -/
def movesPred (pl : AmoPlace) (cls : Cls) : Bool :=
  match pl, cls with
  | .auto, .l1 => true
  | .auto, .lm | .auto, .hs | .loc, _ | .home, _ => false

/-- The contention counter of core `c` as an atomic that moves it is performed in a class: up where its ownership request finds the
line owned by another L1, down where it finds the line already owned (11 R255). -/
def notePred (auto : Bool) (pid c pa : Nat) (cls : Cls) (s : State) : State :=
  if auto then
    match dirOf (dirLine pid pa) s with
    | some (.owned o) => if o = c then bumpPred pa c false s else if cls = .l1 then bumpPred pa c true s else s
    | some (.sharers _) | some (.overflow _) | some .broadcast | none => s
  else s

/-- The line of an atomic owned by the L1 that performs it, or, where it is cacheable, held by its home slice (11 R252, R253; 13 R295); a core remembers the
lines whose last atomic of its own may yet move its counter (11 R255). -/
def placeLine (auto cached : Bool) (pid c pa : Nat) (cls : Cls) (s : State) : State :=
  match partOf pid s with
  | none => s
  | some p =>
    let line := dirLine pid pa
    match cls with
    | .lm => s
    | .l1 =>
      modCore c (fun k =>
        let rest := k.amoLines.filter fun x => x != line
        { k with amoLines := if auto then line :: rest else rest }) (l1Own p.rcd pa c s)
    | .hs => if cached then homeUse p.rcd pa (some c) true s else s

/-- The place of an atomic made ready, with the contention counter moved (11 R253, R255; 13 R295). -/
def placeAmo (auto cached : Bool) (pid c pa : Nat) (cls : Cls) (s : State) : State :=
  placeLine auto cached pid c pa cls (notePred auto pid c pa cls s)

/-! ## The instruction (13 R292 to R294) -/

/-- The classes an acquire covers (12 R266). -/
def acqCover (o : Order) (p : Pal) (s : State) : Option (Bool × Bool) :=
  match o with
  | .acq | .acqrel => some (covers p.toNat s)
  | .rlx | .rel => none

/-- The read-modify-write of an atomic: memory takes the new value. -/
def amoApply (op : AmoOp) (w x c key old step : Nat) (s : State) : State :=
  match amoNew op w old x c with
  | some n => land key (leBytes w n) step s
  | none => s

/-- A returning atomic waits for the mesh, to the core of a local memory or to the line's home (22 R414, R415, R417). -/
def amoWait (key : Nat) (cls : Cls) (pa : Nat) (s : State) : Bool :=
  if isLmKey key then meshWait s.here (lmCore key) s else homeWait cls pa s

/-- A returning atomic that has been checked (13 R294). -/
def amoReturning (op : AmoOp) (w x c : Nat) (pl : AmoPlace) (o : Order) (p : Pal) (d : Reg) (key : Nat) (cls : Cls) (pa : Nat)
    (s : State) : Eff :=
  if !(mineAt key w s).isEmpty || windowHeld s.here key w s || !releaseReady o p s || amoWait key (amoCls pl cls pa s) pa s then
    .hold s .stalled
  else
    bankEff key w s fun s =>
      let old := memValue s.mem w key
      let s1 := placeAmo (movesPred pl cls) (cls == .l1) (myPid s) s.here pa (amoCls pl cls pa s) s
      .ok (setS d (w64 old) (amoApply op w x c key old 4 s1))

/-- A non-returning atomic that has been checked: it retires, and is performed later (13 R294). -/
def amoPosted (op : AmoOp) (w x c : Nat) (pl : AmoPlace) (o : Order) (p : Pal) (ga : Word) (key : Nat) (cls : Cls) (pa : Nat)
    (s : State) : Eff :=
  let k := amoCls pl cls pa s
  .ok (addPend { pendOf key pa k ga (.amo op w x c (movesPred pl cls)) s with
                 cached := cls == .l1, pal := some (p.toNat, palGen p.toNat s), rel := relCover o p s, acq := acqCover o p s } s)

/-- An atomic on `w` bytes at a generic address (13 R292 to R294). -/
def amoBody (op : AmoOp) (w : Nat) (pl : AmoPlace) (o : Order) (ret : Bool) (p : Pal) (d a c : Reg) (s : State) : Eff :=
  let ga := getS a s
  let x := (getS c s).toNat % 2 ^ (8 * w)
  let cmp := (getS d s).toNat
  keepPal p.toNat (match reachAs (fun cls pa => amoCls pl cls pa s) .atomic w ga .forbid (some p.toNat) s with
  | .mem t key cls _ pa =>
    if ret then amoReturning op w x cmp pl o p d key cls pa t else amoPosted op w x cmp pl o p ga key cls pa t
  | .const _ => .trap 0x21 (3 * 4 + 2) ga
  | .event _ _ | .fw _ _ => evFault .atomic ga
  | .fault _ code detail => .trap code detail ga
  | .wait t => .hold t .stalled
  | .merr code loc => .final (machineError code loc s))

/-- The registers of an AMO: AMOCAS reads d, and a returning form writes it (02 R52). -/
def useAmo (cas ret : Bool) (d a c : Reg) : Use :=
  { len := 4, a := some (.s a), b := some (.s c), more := if cas then [.s d] else [], w := if ret then some (.s d) else none }

/-- The bytes an AMO acts on (02 R52). -/
def amo (op : AmoOp) (w : Nat) (pl : AmoPlace) (o : Order) (ret : Bool) (p : Pal) (d a c : Reg) (s : State) : State :=
  execUse (useAmo (op == .cas) ret d a c) s (amoBody op w pl o ret p d a c)

/-- AMOADD.auto (13 R292, 11 R255). -/
def execAmoaddAuto (o : Order) (ret : Bool) (p : Pal) (d a c : Reg) (s : State) : Host.Outcome State Fault Refusal :=
  .next (amo .add 8 .auto o ret p d a c s)

/-- AMOMIN.auto (13 R292, 11 R255). -/
def execAmominAuto (o : Order) (ret : Bool) (p : Pal) (d a c : Reg) (s : State) : Host.Outcome State Fault Refusal :=
  .next (amo .min 8 .auto o ret p d a c s)

/-- AMOMAX.auto (13 R292, 11 R255). -/
def execAmomaxAuto (o : Order) (ret : Bool) (p : Pal) (d a c : Reg) (s : State) : Host.Outcome State Fault Refusal :=
  .next (amo .max 8 .auto o ret p d a c s)

/-- AMOMINU.auto (13 R292, 11 R255). -/
def execAmominuAuto (o : Order) (ret : Bool) (p : Pal) (d a c : Reg) (s : State) : Host.Outcome State Fault Refusal :=
  .next (amo .minu 8 .auto o ret p d a c s)

/-- AMOMAXU.auto (13 R292, 11 R255). -/
def execAmomaxuAuto (o : Order) (ret : Bool) (p : Pal) (d a c : Reg) (s : State) : Host.Outcome State Fault Refusal :=
  .next (amo .maxu 8 .auto o ret p d a c s)

/-- AMOFADDS.auto (13 R292, 11 R255). -/
def execAmofaddSAuto (o : Order) (ret : Bool) (p : Pal) (d a c : Reg) (s : State) : Host.Outcome State Fault Refusal :=
  .next (amo .fadd 4 .auto o ret p d a c s)

/-- AMOFADDD.auto (13 R292, 11 R255). -/
def execAmofaddDAuto (o : Order) (ret : Bool) (p : Pal) (d a c : Reg) (s : State) : Host.Outcome State Fault Refusal :=
  .next (amo .fadd 8 .auto o ret p d a c s)

/-- AMOAND.auto (13 R292, 11 R255). -/
def execAmoandAuto (o : Order) (ret : Bool) (p : Pal) (d a c : Reg) (s : State) : Host.Outcome State Fault Refusal :=
  .next (amo .and 8 .auto o ret p d a c s)

/-- AMOOR.auto (13 R292, 11 R255). -/
def execAmoorAuto (o : Order) (ret : Bool) (p : Pal) (d a c : Reg) (s : State) : Host.Outcome State Fault Refusal :=
  .next (amo .or 8 .auto o ret p d a c s)

/-- AMOXOR.auto (13 R292, 11 R255). -/
def execAmoxorAuto (o : Order) (ret : Bool) (p : Pal) (d a c : Reg) (s : State) : Host.Outcome State Fault Refusal :=
  .next (amo .xor 8 .auto o ret p d a c s)

/-- AMOSWAP.auto (13 R292, 11 R255). -/
def execAmoswapAuto (o : Order) (ret : Bool) (p : Pal) (d a c : Reg) (s : State) : Host.Outcome State Fault Refusal :=
  .next (amo .swap 8 .auto o ret p d a c s)

/-- AMOCAS.auto (13 R292, 11 R255). -/
def execAmocasAuto (o : Order) (ret : Bool) (p : Pal) (d a c : Reg) (s : State) : Host.Outcome State Fault Refusal :=
  .next (amo .cas 8 .auto o ret p d a c s)

/-- AMOADD.loc (13 R292, 11 R255). -/
def execAmoaddLoc (o : Order) (ret : Bool) (p : Pal) (d a c : Reg) (s : State) : Host.Outcome State Fault Refusal :=
  .next (amo .add 8 .loc o ret p d a c s)

/-- AMOMIN.loc (13 R292, 11 R255). -/
def execAmominLoc (o : Order) (ret : Bool) (p : Pal) (d a c : Reg) (s : State) : Host.Outcome State Fault Refusal :=
  .next (amo .min 8 .loc o ret p d a c s)

/-- AMOMAX.loc (13 R292, 11 R255). -/
def execAmomaxLoc (o : Order) (ret : Bool) (p : Pal) (d a c : Reg) (s : State) : Host.Outcome State Fault Refusal :=
  .next (amo .max 8 .loc o ret p d a c s)

/-- AMOMINU.loc (13 R292, 11 R255). -/
def execAmominuLoc (o : Order) (ret : Bool) (p : Pal) (d a c : Reg) (s : State) : Host.Outcome State Fault Refusal :=
  .next (amo .minu 8 .loc o ret p d a c s)

/-- AMOMAXU.loc (13 R292, 11 R255). -/
def execAmomaxuLoc (o : Order) (ret : Bool) (p : Pal) (d a c : Reg) (s : State) : Host.Outcome State Fault Refusal :=
  .next (amo .maxu 8 .loc o ret p d a c s)

/-- AMOFADDS.loc (13 R292, 11 R255). -/
def execAmofaddSLoc (o : Order) (ret : Bool) (p : Pal) (d a c : Reg) (s : State) : Host.Outcome State Fault Refusal :=
  .next (amo .fadd 4 .loc o ret p d a c s)

/-- AMOFADDD.loc (13 R292, 11 R255). -/
def execAmofaddDLoc (o : Order) (ret : Bool) (p : Pal) (d a c : Reg) (s : State) : Host.Outcome State Fault Refusal :=
  .next (amo .fadd 8 .loc o ret p d a c s)

/-- AMOAND.loc (13 R292, 11 R255). -/
def execAmoandLoc (o : Order) (ret : Bool) (p : Pal) (d a c : Reg) (s : State) : Host.Outcome State Fault Refusal :=
  .next (amo .and 8 .loc o ret p d a c s)

/-- AMOOR.loc (13 R292, 11 R255). -/
def execAmoorLoc (o : Order) (ret : Bool) (p : Pal) (d a c : Reg) (s : State) : Host.Outcome State Fault Refusal :=
  .next (amo .or 8 .loc o ret p d a c s)

/-- AMOXOR.loc (13 R292, 11 R255). -/
def execAmoxorLoc (o : Order) (ret : Bool) (p : Pal) (d a c : Reg) (s : State) : Host.Outcome State Fault Refusal :=
  .next (amo .xor 8 .loc o ret p d a c s)

/-- AMOSWAP.loc (13 R292, 11 R255). -/
def execAmoswapLoc (o : Order) (ret : Bool) (p : Pal) (d a c : Reg) (s : State) : Host.Outcome State Fault Refusal :=
  .next (amo .swap 8 .loc o ret p d a c s)

/-- AMOCAS.loc (13 R292, 11 R255). -/
def execAmocasLoc (o : Order) (ret : Bool) (p : Pal) (d a c : Reg) (s : State) : Host.Outcome State Fault Refusal :=
  .next (amo .cas 8 .loc o ret p d a c s)

/-- AMOADD.home (13 R292, 11 R255). -/
def execAmoaddHome (o : Order) (ret : Bool) (p : Pal) (d a c : Reg) (s : State) : Host.Outcome State Fault Refusal :=
  .next (amo .add 8 .home o ret p d a c s)

/-- AMOMIN.home (13 R292, 11 R255). -/
def execAmominHome (o : Order) (ret : Bool) (p : Pal) (d a c : Reg) (s : State) : Host.Outcome State Fault Refusal :=
  .next (amo .min 8 .home o ret p d a c s)

/-- AMOMAX.home (13 R292, 11 R255). -/
def execAmomaxHome (o : Order) (ret : Bool) (p : Pal) (d a c : Reg) (s : State) : Host.Outcome State Fault Refusal :=
  .next (amo .max 8 .home o ret p d a c s)

/-- AMOMINU.home (13 R292, 11 R255). -/
def execAmominuHome (o : Order) (ret : Bool) (p : Pal) (d a c : Reg) (s : State) : Host.Outcome State Fault Refusal :=
  .next (amo .minu 8 .home o ret p d a c s)

/-- AMOMAXU.home (13 R292, 11 R255). -/
def execAmomaxuHome (o : Order) (ret : Bool) (p : Pal) (d a c : Reg) (s : State) : Host.Outcome State Fault Refusal :=
  .next (amo .maxu 8 .home o ret p d a c s)

/-- AMOFADDS.home (13 R292, 11 R255). -/
def execAmofaddSHome (o : Order) (ret : Bool) (p : Pal) (d a c : Reg) (s : State) : Host.Outcome State Fault Refusal :=
  .next (amo .fadd 4 .home o ret p d a c s)

/-- AMOFADDD.home (13 R292, 11 R255). -/
def execAmofaddDHome (o : Order) (ret : Bool) (p : Pal) (d a c : Reg) (s : State) : Host.Outcome State Fault Refusal :=
  .next (amo .fadd 8 .home o ret p d a c s)

/-- AMOAND.home (13 R292, 11 R255). -/
def execAmoandHome (o : Order) (ret : Bool) (p : Pal) (d a c : Reg) (s : State) : Host.Outcome State Fault Refusal :=
  .next (amo .and 8 .home o ret p d a c s)

/-- AMOOR.home (13 R292, 11 R255). -/
def execAmoorHome (o : Order) (ret : Bool) (p : Pal) (d a c : Reg) (s : State) : Host.Outcome State Fault Refusal :=
  .next (amo .or 8 .home o ret p d a c s)

/-- AMOXOR.home (13 R292, 11 R255). -/
def execAmoxorHome (o : Order) (ret : Bool) (p : Pal) (d a c : Reg) (s : State) : Host.Outcome State Fault Refusal :=
  .next (amo .xor 8 .home o ret p d a c s)

/-- AMOSWAP.home (13 R292, 11 R255). -/
def execAmoswapHome (o : Order) (ret : Bool) (p : Pal) (d a c : Reg) (s : State) : Host.Outcome State Fault Refusal :=
  .next (amo .swap 8 .home o ret p d a c s)

/-- AMOCAS.home (13 R292, 11 R255). -/
def execAmocasHome (o : Order) (ret : Bool) (p : Pal) (d a c : Reg) (s : State) : Host.Outcome State Fault Refusal :=
  .next (amo .cas 8 .home o ret p d a c s)

/-! ## Performing what has retired (13 R283, R291, R294; 19 R374 to R377) -/

/-- A fault record about a retired operation of a thread set. -/
def pendRec (kind code : Nat) (p : Pend) (s : State) : FaultRec :=
  { kind := kind, code := code, detail := 0, tsid := p.tid, lid := p.lid, addr := p.ga, coord := coordOf p.core,
    pc := if kind = 3 then (getTs p.core p.tid s).pc.toNat else 0 }

/-- A retired non-returning operation fails: it is dropped, and recorded as an orphan (19 R376). -/
def orphan (code : Nat) (p : Pend) (s : State) : State :=
  bumpFaultHeader p.pid 12 (writeFault p.pid (pendRec 1 code p s) s)

/-- The code of the error that a store meets where it is lost, as an orphan reports it (19 R376, R377; log entry 20). -/
def lostCode (p : Pend) (s : State) : Nat :=
  match readError p.key p.len s with
  | some e => e.1
  | none => 0x84

/-- A retired store that is lost: STORE_LOST evicts the launch of a U thread set, stops a thread set at F, and, where the
launch has ended, is an orphan (13 R283; 19 R374, R377; 25 R467). -/
def storeFails (p : Pend) (s : State) : State :=
  if (getTs p.core p.tid s).status.getLsbD 0 then
    modTs p.core p.tid (fun t => { t with run := .halted })
      (modCore p.core (fun k => { k with meloc := p.ga }) { s with fw := { s.fw with erred := p.core :: s.fw.erred } })
  else
    match launchOf p.pid p.lid s with
    | none => orphan (lostCode p s) p s
    | some l =>
      if l.st = .completed then orphan (lostCode p s) p s
      else killLaunch p.pid p.lid 3 (writeFault p.pid (pendRec 3 0x84 p s) (modCore p.core (fun k => { k with meloc := p.ga }) s))

/-- A retired store is performed (13 R283). -/
def performStore (p : Pend) (bs : List Byte) (s : State) : State :=
  if storeLost p.key bs.length s then storeFails p s
  else landOwn (if isLmKey p.key && lmCore p.key == p.core then some p.tid else none) p.key bs 0 (ownFor p s)

/-- STORE_PERFORM: retired operation `n`, a store, is performed where nothing holds it (13 R283). -/
def execStorePerform (n : Nat) (s : State) : Host.Outcome State Fault Refusal :=
  .next (match nth? s.pend n with
    | none => s
    | some p =>
      match p.op with
      | .store bs =>
        if performable (s.pend.take n) p s then performStore (p.placed s) bs { s with pend := dropNth s.pend n } else s
      | .amo _ _ _ _ _ => s
      | .recl _ => s)

/-- A retired atomic is performed at the place its placement chose (13 R294, R295). -/
def performAmo (p : Pend) (op : AmoOp) (w x c : Nat) (auto : Bool) (s : State) : State :=
  match readError p.key w s with
  | some e => orphan e.1 p s
  | none =>
    let s1 := correct p.key w s
    amoApply op w x c p.key (memValue s1.mem w p.key) 0 (placeAmo auto p.cached p.pid p.core p.pa p.cls s1)

/-- A retired RECL is applied at the home slice (13 R291); a word of which no version was ever stored has only version 0. -/
def performRecl (p : Pend) (b : Nat) (s : State) : State :=
  match readError p.key 8 s with
  | some e => orphan e.1 p s
  | none =>
    match s.versions.find? fun v => v.pa == p.pa with
    | some v => setVer (VerWord.recl b v) s
    | none => s

/-- AMO_PERFORM: retired operation `n`, an atomic, a VAMO element or a RECL, is performed where nothing holds it (13 R291,
R294, R297). -/
def execAmoPerform (n : Nat) (s : State) : Host.Outcome State Fault Refusal :=
  .next (match nth? s.pend n with
    | none => s
    | some p =>
      let t := { s with pend := dropNth s.pend n }
      match p.op with
      | .store _ => s
      | .amo op w x c auto => if performable (s.pend.take n) p s then performAmo (p.placed s) op w x c auto t else s
      | .recl b => if performable (s.pend.take n) p s then performRecl p b t else s)

end Sys2Proof.Machine
end

