-- ==== Sys2Proof/Machine/Sync.lean ====
section
/-! DEFINITION. Fences, palette instructions and palette messages, and waiting on addresses (12 R262 to R273; 13 R298 to
R304). -/
namespace Sys2Proof.Machine

/-! ## FENCE (13 R298, R299) -/

/-- FENCE (13 R299): a releasing fence waits until the thread set's earlier covered accesses have been performed, an acquiring one
until its earlier covered reads have: loads have returned their values by the time they retire, retired atomics may not (12 R266). -/
def fenceEff (o : Order) (p : Pal) (s : State) : Eff :=
  if palOk p.toNat s then (if releaseReady o p s && acquireReady o p s then .ok s else .hold s .stalled)
  else .trap 0x24 0 0

/-- FENCE (13 R298, R299). -/
def execFence (o : Order) (p : Pal) (s : State) : Host.Outcome State Fault Refusal :=
  .next (finish useNone s (keepPal p.toNat (fenceEff o p s)))

/-! ## Membership records (12 R263, R265) -/

/-- The bitmap of a list of cores, bit row × 64 + col for a core (12 R263). -/
def coreBits (l : List Nat) : Nat := l.foldl (fun b c => b ||| 2 ^ (rowOf c * 64 + colOf c)) 0

/-- The cores of the launch rectangle of the focused thread set. -/
def myRectCores (s : State) : List Nat :=
  rectCores (rectRow0 s.ts.rect) (rectCol0 s.ts.rect) (rectLgh s.ts.rect) (rectLgw s.ts.rect)

/-- A membership record as the 264-byte little-endian value that a load of it gives (12 R263). -/
def PalMem.value (m : PalMem) : Nat :=
  m.flags % 2 ^ 16 + m.kind % 2 ^ 8 * 2 ^ 16 + m.shape % 2 ^ 8 * 2 ^ 24 + m.cores % 2 ^ 2048 * 2 ^ 64

/-- The record of a value (12 R263). -/
def palMemOf (x : Nat) : PalMem :=
  { flags := bitsOf x 0 16, kind := bitsOf x 16 8, shape := bitsOf x 24 8, cores := bitsOf x 64 2048 }

/-- A membership record meets the limits of R263 for the focused launch. -/
def recordOk (x : Nat) (s : State) : Bool :=
  let m := palMemOf x
  decide (m.flags < 8) && bitsOf x 32 32 == 0 &&
    (match m.kind with
     | 0 => m.shape == 0 && m.cores != 0 && (m.cores &&& coreBits (myRectCores s)) == m.cores
     | 1 =>
       decide (m.shape < 64) && decide (bitsOf m.shape 0 3 ≤ rectLgw s.ts.rect) &&
         decide (bitsOf m.shape 3 3 ≤ rectLgh s.ts.rect) && m.cores == 0
     | _ => false)

/-- The cores that a fixed entry names as seen from the issuing core (12 R262, R263; 20 R396). -/
def fixedCores (e : Nat) (s : State) : List Nat :=
  if isBank s then
    (if e = 3 ∨ e = 15 then
      (match myLaunch s with
       | some l => (l.ctxs.filter fun k => k.st == .issuing).map fun k => k.core
       | none => [s.here])
     else [s.here])
  else if e < 2 then [s.here]
  else if e = 2 then ((List.range 4).map (quadCore s.here)).filter fun c => inMyRect c s
  else myRectCores s

/-- The copy of a programmable entry that the focused context reads; a penumbra context's never changes (20 R396, R397). -/
def palCopy (e : Nat) (s : State) : PalCopy :=
  if isBank s then palRelease (rectLgw s.ts.rect) (rectLgh s.ts.rect) (e - 4) else vecGet s.core.pal (e - 4)

/-- Operations carrying a generation of an entry are in flight from a core of a launch (12 R273). -/
def palBusy (pid lid c e g : Nat) (s : State) : Bool :=
  let k := ownedCore pid lid c s
  (s.pend.any fun p => p.core == c && p.pid == pid && p.lid == lid && p.pal == some (e, g)) ||
    (k.queues.toList.flatten.any fun x => bitsOf x.tcw.toNat 240 4 == e && x.gen == g && x.pid == pid && x.lid == lid) ||
    ((if c = s.here ∧ k.owner = some (pid, lid) then (syncCore s).tsets else k.tsets).toList.any fun t => t.palTaken == some (e, g))

/-- The status word of PALGET (12 R265). -/
def palStatus (e : Nat) (s : State) : Word :=
  if e < 4 ∨ e = 15 then 0
  else
    let k := palCopy e s
    let old := match k.old with
      | some o => palBusy (myPid s) (myLid s) s.here e o.1 s
      | none => false
    w64 (k.gen % 2 ^ 16 + (if k.inv then 2 ^ 16 else 0) + (if old then 2 ^ 17 else 0))

/-- The record that PALGET writes (12 R263, R265). -/
def palRecord (e : Nat) (s : State) : PalMem :=
  if e < 4 ∨ e = 15 then { flags := 7, kind := 2, shape := e, cores := coreBits (fixedCores e s) } else (palCopy e s).mem

/-! ## Palette updates (12 R271, R272) -/

/-- The cores of a launch. -/
def Launch.cores (l : Launch) : List Nat := rectCores l.row0 l.col0 l.lgh l.lgw

/-- A request's step 1 may start: no earlier request on its entry is unfinished, and its issuer's earlier accesses have been
performed (12 R271, R272). -/
def palStartable (before : List PalReq) (r : PalReq) (s : State) : Bool :=
  !r.started && r.done.isNone && (before.all fun q => q.entry != r.entry || q.done.isSome) &&
    performedAll r.after r.core s

/-- The old slot of an entry of a core's copy has drained (12 R271, R273). -/
def oldFree (pid lid c e : Nat) (s : State) : Bool :=
  match (vecGet (ownedCore pid lid c s).pal (e - 4)).old with
  | some o => !palBusy pid lid c e o.1 s
  | none => true

/-- A launch of one core, which runs every step of an update at once (13 R300): that core. -/
def Launch.oneCore (l : Launch) : Option Nat := if l.lgw = 0 ∧ l.lgh = 0 then l.cores.head? else none

/-- The steps of an update that run at once wait for the old slot to drain (12 R271, 13 R300). -/
def palReady (l : Launch) (r : PalReq) (s : State) : Bool :=
  match l.oneCore with
  | some c => oldFree l.pid l.lid c r.entry s
  | none => true

/-- The first request that may start, with its place. -/
def palNext (l : Launch) (s : State) : List PalReq → List PalReq → Nat → Option Nat
  | _, [], _ => none
  | before, r :: rs, n => if palStartable before r s && palReady l r s then some n else palNext l s (before ++ [r]) rs (n + 1)

/-- A copy on INVALIDATE (12 R271). -/
def PalCopy.invalidate (g : Nat) (mem : Option PalMem) (k : PalCopy) : PalCopy :=
  { gen := g, mem := mem.getD k.mem, inv := true, old := some (k.gen, k.mem) }

/-- A copy on INSTALL (12 R271). -/
def PalCopy.install (g : Nat) (mem : Option PalMem) (k : PalCopy) : PalCopy := { k with gen := g, mem := mem.getD k.mem, inv := false }

/-- A thread set of a core changed by `f`, wherever the launch's state of the core is (19 R384). -/
def modOwnedTs (pid lid c t : Nat) (f : ThreadSet → ThreadSet) (s : State) : State :=
  if (getCore c s).owner = some (pid, lid) then modTs c t f s
  else modHeld pid lid c (fun h => { h with saved := { h.saved with tsets := vecSet h.saved.tsets t (f (vecGet h.saved.tsets t)) } }) s

/-- The thread sets of a core that an acq-rel update held back go on (12 R272, 13 R301). -/
def palRelent (m : PalMsg) (s : State) : State :=
  (List.range 7).foldl (fun t i => modOwnedTs m.pid m.lid m.core i (fun x =>
    { x with palHold := x.palHold.filter fun h => h != (m.entry, m.gen) }) t) s

/-- The copy of an entry of one core changed by `f`. -/
def modPal (m : PalMsg) (f : PalCopy → PalCopy) (s : State) : State :=
  modOwned m.pid m.lid m.core (fun k => { k with pal := vecSet k.pal (m.entry - 4) (f (vecGet k.pal (m.entry - 4))) }) s

/-- Messages of one step to every core of a launch. -/
def palSend (l : Launch) (r : PalReq) (g : Nat) (step : PalStep) (s : State) : State :=
  { s with
    seq := s.seq + 1
    palMsgs := s.palMsgs ++ l.cores.map fun c =>
      { pid := l.pid, lid := l.lid, core := c, num := s.seq, entry := r.entry, gen := g, step := step, mem := r.mem } }

/-- A request at its palette home changed by `f`, its entry given a generation. -/
def palGive (l : Launch) (n : Nat) (r : PalReq) (g : Nat) (f : PalReq → PalReq) (s : State) : State :=
  modLaunch l.pid l.lid (fun k => { k with palGen := vecSet k.palGen (r.entry - 4) g, palReqs := modNth f k.palReqs n }) s

/-- Every step of an update in a launch of one core (13 R300). -/
def palAtOnce (l : Launch) (c n : Nat) (r : PalReq) (g : Nat) (s : State) : State :=
  let m : PalMsg := { pid := l.pid, lid := l.lid, core := c, num := s.seq, entry := r.entry, gen := g, step := .install, mem := r.mem }
  let f (k : PalCopy) : PalCopy := if r.mem.isSome then (k.invalidate g r.mem).install g r.mem else k.invalidate g r.mem
  palRelent m (modPal m f (palGive l n r g (fun q => { q with started := true, installing := r.mem.isSome, done := some g }) s))

/-- Step 1 starts: the home gives the entry its next generation and sends INVALIDATE; a launch of one core runs every step
(12 R271, 13 R300). -/
def palStart (l : Launch) (n : Nat) (r : PalReq) (s : State) : State :=
  let g := (vecGet l.palGen (r.entry - 4) + 1) % 65536
  match l.oneCore with
  | some c => palAtOnce l c n r g s
  | none => palSend l r g .invalidate (palGive l n r g (fun q => { q with started := true, waiting := l.cores }) s)

/-- The completion of a palette update (12 R271, 15 R320). -/
def palCompletion (r : PalReq) (g : Nat) (s : State) : Completion :=
  { tag := r.entry, status := 0, cls := 15, units := g, faddr := 0, fcode := 0, fdetail := 0, pcount := 0, pmask := 0,
    tdone := w64 s.time, uxh := 0 }

/-- The completions that wait in a palette home are written where their inboxes have room (12 R271, 13 R300). -/
def palFlush (pid lid : Nat) : List PalReq → State → State
  | [], s => s
  | r :: rs, s =>
    match r.done with
    | none => palFlush pid lid rs s
    | some g =>
      match putCompletion pid lid r.core r.tid (palCompletion r g s) false s with
      | some t => palFlush pid lid rs (modLaunch pid lid (fun l => { l with palReqs := l.palReqs.erase r }) t)
      | none => palFlush pid lid rs s

/-- The completions that wait in a launch's palette home, as far as there is room (12 R271). -/
def palFlushAll (pid lid : Nat) (s : State) : State :=
  match launchOf pid lid s with
  | none => s
  | some l => palFlush pid lid l.palReqs s

/-- The first request of a launch that may start is started. -/
def palStartNext (pid lid : Nat) (s : State) : State :=
  match launchOf pid lid s with
  | none => s
  | some k =>
    match palNext k s [] k.palReqs 0 with
    | none => s
    | some n =>
      match nth? k.palReqs n with
      | some r => palStart k n r s
      | none => s

/-- The work of one launch's palette home: waiting completions, the requests that may start, and the completions of those that
end at once. -/
def palService (pid lid : Nat) (s : State) : State :=
  match launchOf pid lid s with
  | none => s
  | some l => palFlushAll pid lid ((List.range l.palReqs.length).foldl (fun u _ => palStartNext pid lid u) (palFlushAll pid lid s))

/-- The work of every palette home. -/
def palServiceAll (s : State) : State := (s.launches.map fun l => (l.pid, l.lid)).foldl (fun t x => palService x.1 x.2 t) s

/-- A core's acknowledgement takes a message's place. -/
def palAckMsg (m : PalMsg) (n : Nat) (s : State) : State :=
  { s with palMsgs := setNth s.palMsgs n { m with step := .ack, num := s.seq }, seq := s.seq + 1 }

/-- PALETTE_INVALIDATE: message `n` reaches its core, which waits for its old generation to drain (12 R271). -/
def execPaletteInvalidate (n : Nat) (s0 : State) : Host.Outcome State Fault Refusal :=
  .next (
    let s := palServiceAll s0
    match nth? s.palMsgs n with
    | none => s
    | some m =>
      match m.step with
      | .invalidate =>
        if oldFree m.pid m.lid m.core m.entry s && !m.stuck s then
          let t := palAckMsg m n (modPal m (PalCopy.invalidate m.gen m.mem) s)
          if m.mem.isNone then palRelent m t else t
        else s
      | .install | .ack => s)

/-- PALETTE_INSTALL: message `n` reaches its core, whose copy becomes VALID (12 R271). -/
def execPaletteInstall (n : Nat) (s0 : State) : Host.Outcome State Fault Refusal :=
  .next (
    let s := palServiceAll s0
    match nth? s.palMsgs n with
    | none => s
    | some m =>
      match m.step with
      | .install =>
        if m.stuck s then s else palRelent m (palAckMsg m n (modPal m (PalCopy.install m.gen m.mem) s))
      | .invalidate | .ack => s)

/-- The home's part of an acknowledgement: the next step, or the end of the request (12 R271). -/
def palAcked (m : PalMsg) (s : State) : State :=
  match launchOf m.pid m.lid s with
  | none => s
  | some l =>
    match l.palReqs.findIdx? fun r => r.entry == m.entry && r.started && r.done.isNone with
    | none => s
    | some n =>
      match nth? l.palReqs n with
      | none => s
      | some r =>
        let left := r.waiting.filter fun c => c != m.core
        let upd (f : PalReq → PalReq) : State := modLaunch m.pid m.lid (fun k => { k with palReqs := modNth f k.palReqs n }) s
        if left.isEmpty then
          (if r.mem.isSome && !r.installing then
            palSend l r m.gen .install (upd fun q => { q with installing := true, waiting := l.cores })
           else upd fun q => { q with done := some m.gen })
        else upd fun q => { q with waiting := left }

/-- PALETTE_ACK: message `n`, an acknowledgement, reaches the palette home (12 R271). -/
def execPaletteAck (n : Nat) (s0 : State) : Host.Outcome State Fault Refusal :=
  .next (
    let s := palServiceAll s0
    match nth? s.palMsgs n with
    | none => s
    | some m =>
      match m.step with
      | .ack => if m.stuck s then s else palServiceAll (palAcked m { s with palMsgs := dropNth s.palMsgs n })
      | .invalidate | .install => s)

/-! ## PALSET, PALINV, PALGET (13 R300 to R302) -/

/-- The entry number in a register is outside its range (02 R53). -/
def palEntryBad (x : Word) : Bool := decide (x.toNat < 4) || decide (14 < x.toNat)

/-- The generation that the palette home will give a request accepted now. -/
def palTarget (l : Launch) (e : Nat) : Nat :=
  (vecGet l.palGen (e - 4) + (l.palReqs.filter fun r => r.entry == e && !r.started).length + 1) % 65536

/-- A request at the palette home (12 R271, R272). -/
def palRequest (e : Nat) (mem : Option PalMem) (acqrel : Bool) (s : State) : State :=
  match myLaunch s with
  | none => s
  | some l =>
    let after := openAccesses s
    let r : PalReq := { entry := e, core := s.here, tid := s.tid, mem := mem, after := after, started := false,
                        installing := false, waiting := [], done := none }
    let s1 := if acqrel then { s with ts := { s.ts with palHold := s.ts.palHold ++ [(e, palTarget l e)] } } else s
    palService l.pid l.lid (modLaunch l.pid l.lid (fun k => { k with palReqs := k.palReqs ++ [r] }) s1)

/-- PALSET past its checks of bank and entry (13 R300). -/
def palsetEff (o : Order) (d : Reg) (off : Word) (e : Nat) (s : State) : Eff :=
  if off.toNat % 8 ≠ 0 ∨ (if isF s then 0x100000 else 0xFC000) < off.toNat + 264 then .ok (setS d 1 s)
  else
    loadEff (ownLoad 8 264 off s) s fun x t =>
      if recordOk x t then .ok (setS d 0 (palRequest e (some (palMemOf x)) (o == .acqrel) t)) else .ok (setS d 1 t)

/-- PALSET (13 R300). -/
def execPalset (o : Order) (d a e : Reg) (s : State) : Host.Outcome State Fault Refusal :=
  .next (
    let w : Raw := .s o.code 1 1 0 e.toNat a.toNat d.toNat 0x37
    if isBank s then finish useNone s (illegal 2 w)
    else execUse (useABD d a (.reg e)) s fun t =>
      if palEntryBad (getS e t) then illegal 1 w else palsetEff o d (getS a t) (getS e t).toNat t)

/-- PALINV (13 R301). -/
def execPalinv (o : Order) (e : Reg) (s : State) : Host.Outcome State Fault Refusal :=
  .next (
    let w : Raw := .s o.code 0 3 0 e.toNat 0 0 0x37
    if isBank s then finish useNone s (illegal 2 w)
    else execUse { len := 4, a := none, b := some (.s e), more := [], w := none } s fun t =>
      if palEntryBad (getS e t) then illegal 1 w
      else .ok (palRequest (getS e t).toNat none (o == .acqrel) t))

/-- PALGET (13 R302). -/
def execPalget (o : Order) (d a e : Reg) (s : State) : Host.Outcome State Fault Refusal :=
  .next (execUse (useABD d a (.reg e)) s fun t =>
    let n := (getS e t).toNat
    if 15 < n then illegal 1 (.s o.code 1 2 0 e.toNat a.toNat d.toNat 0x37)
    else ownStore 8 (leBytes 264 (palRecord n t).value) (getS a t) t fun u => .ok (setS d (palStatus n t) u))

/-! ## WAITA and WAKE (13 R303, R304) -/

/-- A word reached for WAITA or WAKE: local memory holds no wait queue, and the constant bank no word to wait on (13 R303). -/
def waitReach (k : Kind) (p : Pal) (ga : Word) (s : State) (f : State → Nat → Nat → Eff) : Eff :=
  let tag := ga.toNat / 2 ^ 53
  if ga.toNat % 8 ≠ 0 then .trap 0x20 k.bits ga
  else if tag = 0x400 ∨ tag = 0x401 ∨ (tag = 0x403 ∧ bitsOf ga.toNat 12 41 ≠ 0) then .trap 0x21 k.bits ga
  else if tag = 0x403 then .trap 0x21 (3 * 4 + k.bits) ga
  else
    match reachAs homeCls k 8 ga .forbid (some p.toNat) s with
    | .mem t key _ _ pa => if (mineAt key 8 t).isEmpty then f t key pa else .hold t .stalled
    | .const _ => .trap 0x21 (3 * 4 + k.bits) ga
    | .event _ _ | .fw _ _ => evFault k ga
    | .fault _ code detail => .trap code detail ga
    | .wait t => .hold t .stalled
    | .merr code loc => .final (machineError code loc s)

/-- The waiter records that the home slice of a word holds (13 R304). -/
def waitersAt (pa : Nat) (s : State) : Nat :=
  match partOf (myPid s) s with
  | some p => (s.waiters.filter fun w => w.got.isNone && w.pid == p.rcd.pid && homeCore p.rcd w.pa == homeCore p.rcd pa).length
  | none => 0

/-- The focused thread set's place in the queue of a word. -/
def myWaiter (pa : Nat) (s : State) : Option Waiter := s.waiters.find? fun w => w.core == s.here && w.tid == s.tid && w.pa == pa

/-- The focused thread set leaves every queue. -/
def unlink (s : State) : State := { s with waiters := s.waiters.filter fun w => !(w.core == s.here && w.tid == s.tid) }

/-- Waita (13 R303): released, still linked, or at the word for the first time. -/
def waitaEff (d : Reg) (x : Word) (key pa : Nat) (s : State) : Eff :=
  match myWaiter pa s with
  | some w =>
    (match w.got with
     | some v => .ok (setS d v (unlink s))
     | none => .hold s .waiting)
  | none =>
    bankEff key 8 s fun s =>
      let t := recallLine pa s
      let v := w64 (memValue t.mem 8 key)
      if v ≠ x then .ok (setS d v t)
      else if 512 ≤ waitersAt pa t then .hold t .stalled
      else .hold { t with waiters := t.waiters ++ [{ pid := myPid t, pa := pa, core := t.here, tid := t.tid, got := none }] } .waiting

/-- WAITA (13 R303, R304). -/
def execWaita (_o : Order) (p : Pal) (d a c : Reg) (s : State) : Host.Outcome State Fault Refusal :=
  .next (execUse (useABD d a (.reg c)) s fun t =>
    keepPal p.toNat (waitReach .load p (getS a t) t fun u key pa => waitaEff d (getS c t) key pa u))

/-- The first `n` linked waiters of a partition's word released with its value (13 R303). -/
def wakeList (pid pa : Nat) (v : Word) : Nat → List Waiter → List Waiter
  | _, [] => []
  | 0, ws => ws
  | n + 1, w :: ws =>
    if w.pid = pid ∧ w.pa = pa ∧ w.got = none then { w with got := some v } :: wakeList pid pa v n ws
    else w :: wakeList pid pa v (n + 1) ws

/-- Wake (13 R303). -/
def wakeEff (d : Reg) (n : Nat) (key pa : Nat) (s : State) : Eff :=
  bankEff key 8 s fun s =>
    let t := recallLine pa s
    let linked := (t.waiters.filter fun w => w.pid == myPid t && w.pa == pa && w.got.isNone).length
    let k := Nat.min n linked
    .ok (setS d (w64 k) { t with waiters := wakeList (myPid t) pa (w64 (memValue t.mem 8 key)) k t.waiters })

/-- WAKE (13 R303, R304). -/
def execWake (o : Order) (p : Pal) (d a c : Reg) (s : State) : Host.Outcome State Fault Refusal :=
  .next (execUse (useABD d a (.reg c)) s fun t =>
    keepPal p.toNat (waitReach .atomic p (getS a t) t fun u key pa =>
      if releaseReady o p u && !homeWait .hs pa u then wakeEff d (getS c t).toNat key pa u else .hold u .stalled))

end Sys2Proof.Machine
end

