-- ==== Sys2Proof/Machine/Parallel.lean ====
section
/-! DEFINITION. The launch barrier, stage and task control, and channel messages (08 R181 to R188, R195 to R197; 10 R226 to
R231; 20 R406). -/
namespace Sys2Proof.Machine

/-! ## BARL (10 R226, R227) -/

/-- The place of a shape in the barrier tables. -/
def barKey (a b : Nat) : Nat := a * 8 + b

/-- The cores of Sub(c, a, b) (08 R177). -/
def subCores (c a b : Nat) : List Nat := rectCores (rowOf c / 2 ^ b * 2 ^ b) (colOf c / 2 ^ a * 2 ^ a) b a

/-- The arrival record of a thread set for a shape. -/
def barlOf (a b : Nat) (t : ThreadSet) : BarlRec :=
  (t.barl.find? fun r => r.a == a && r.b == b).getD { a := a, b := b, pending := false, arrivedAt := none }

/-- The arrival record of a thread set for a shape, set. -/
def setBarl (r : BarlRec) (t : ThreadSet) : ThreadSet :=
  { t with barl := r :: t.barl.filter fun x => !(x.a == r.a && x.b == r.b) }

/-- A thread set that is IDLE or ENDED counts as arrived (10 R227). -/
def absent (t : ThreadSet) : Bool :=
  match t.run with
  | .idle | .ended => true
  | .ready | .stalled | .waiting | .halted => false

/-- Thread sets 0–3 of a core. -/
def owners (k : Core) : List ThreadSet := k.tsets.toList.take 4

/-- The focused core with its thread sets. -/
def liveCore (s : State) : Core := syncCore s

/-- The phase in which every present thread set of a core has arrived, for a shape (10 R227). -/
def arrivedPhase (a b : Nat) (k : Core) : Option Nat :=
  match (owners k).filter fun t => !absent t with
  | [] => none
  | t :: ts =>
    match (barlOf a b t).arrivedAt with
    | none => none
    | some ph => if ts.all fun u => (barlOf a b u).arrivedAt == some ph then some ph else none

/-- The shapes that thread sets of a core have arrived at. -/
def shapesOf (k : Core) : List (Nat × Nat) := ((owners k).map fun t => t.barl.map fun r => (r.a, r.b)).flatten

/-- The arrivals of the focused core that its thread sets have completed stand from now on (10 R227). -/
def barSettle (s : State) : State :=
  let k := liveCore s
  { s with core := (shapesOf k).foldl (fun c x =>
      match arrivedPhase x.1 x.2 k with
      | some ph => { c with arrived := insertKey (barKey x.1 x.2) (Nat.max (lookupD 0 c.arrived (barKey x.1 x.2)) (ph + 1)) c.arrived }
      | none => c) s.core }

/-- A core of the launch has arrived in a phase (10 R227). -/
def coreArrived (pid lid a b ph c : Nat) (s : State) : Bool :=
  let k := if c = s.here then liveCore s else ownedCore pid lid c s
  decide (ph < lookupD 0 k.arrived (barKey a b)) || (owners k).all absent

/-- Every core of Sub(c, a, b) has arrived in a phase (10 R227). -/
def barFired (pid lid a b ph c : Nat) (s : State) : Bool := (subCores c a b).all fun x => coreArrived pid lid a b ph x s

/-- The wait of BARL: it returns once the phase has fired (10 R227). -/
def barWait (a b : Nat) (s : State) : Eff :=
  let r := barlOf a b s.ts
  if barFired (myPid s) (myLid s) a b s.ts.waitphase s.here s then
    let k := barKey a b
    .ok { s with ts := setBarl { r with pending := false } s.ts,
                 core := { s.core with phase := insertKey k (Nat.max (lookupD 0 s.core.phase k) (s.ts.waitphase + 1)) s.core.phase } }
  else .hold s .waiting

/-- The arrival of BARL (10 R227). -/
def barArrive (a b : Nat) (s : State) : State :=
  let k := barKey a b
  let ph := lookupD 0 s.core.phase k
  let ph1 := if ph < lookupD 0 s.core.arrived k then ph + 1 else ph
  barSettle { s with ts := { setBarl { a := a, b := b, pending := true, arrivedAt := some ph1 } s.ts with waitphase := ph1 } }

/-- The rectangle of the focused launch has one core. -/
def singleCore (s : State) : Bool := rectLgw s.ts.rect == 0 && rectLgh s.ts.rect == 0

/-- BARL past its ILLEGAL cases (10 R227). -/
def barlEff (o : Order) (p : Pal) (a b : Nat) (s : State) : Eff :=
  if (barlOf a b s.ts).pending then barWait a b s
  else if palOk p.toNat s then
    (if releaseReady o p s then barWait a b (barArrive a b s) else .hold s .stalled)
  else .trap 0x24 0 0

/-- BARL (10 R226, R227; 20 R397). -/
def execBarl (o : Order) (p : Pal) (a : Reg) (s : State) : Host.Outcome State Fault Refusal :=
  .next (
    let w : Raw := .s o.code 0 6 p.toNat 0 a.toNat 0 0x37
    if notOwner s ∨ singleCore s = true then finish useNone s (illegal 2 w)
    else execUse (useA a) s fun t =>
      let x := (getS a t).toNat
      let la := bitsOf x 18 3
      let lb := bitsOf x 21 3
      if x ≠ la * 2 ^ 18 + lb * 2 ^ 21 ∨ rectLgw t.ts.rect < la ∨ rectLgh t.ts.rect < lb then illegal 1 w
      else keepPal p.toNat (barlEff o p la lb t))

/-! ## CPOST (08 R182, R183; 10 R228) -/

/-- A field of a continuation record, given as its 64-byte little-endian value (08 R182). -/
def recRange (x j : Nat) : Nat × Nat × Nat :=
  (bitsOf x (8 * (16 + 12 * j)) 64, bitsOf x (8 * (24 + 12 * j)) 16, bitsOf x (8 * (26 + 12 * j)) 16)

/-- NRANGE of a record. -/
def recCount (x : Nat) : Nat := bitsOf x 64 8

/-- Two byte ranges of local memory overlap. -/
def rangesMeet (a n b m : Nat) : Bool := decide (a < b + m) && decide (b < a + n)

/-- Range j of a record meets the limits of R182. -/
def rangeOk (x j : Nat) : Bool :=
  let r := recRange x j
  if recCount x ≤ j then r.1 == 0 && r.2.1 == 0 && r.2.2 == 0
  else
    r.1 % 64 == 0 && r.1 / 2 ^ 53 == 0 && decide (1 ≤ r.2.2) && decide (r.2.2 ≤ 4096) &&
      decide ((r.2.1 + r.2.2) * 64 ≤ 0xFC000)

/-- A record meets the limits of R182. -/
def recordValid (x : Nat) : Bool :=
  decide (recCount x ≤ 4) && bitsOf x 72 24 == 0 && (List.range 4).all (rangeOk x) &&
    (List.range 4).all fun i => (List.range i).all fun j =>
      decide (recCount x ≤ i) || !rangesMeet ((recRange x i).2.1 * 64) ((recRange x i).2.2 * 64)
        ((recRange x j).2.1 * 64) ((recRange x j).2.2 * 64)

/-- The home core of a tenant virtual address, with no wait and no fault (08 R183). -/
def keyHome (va : Nat) (s : State) : Nat :=
  match partOf (myPid s) s with
  | none => s.here
  | some p =>
    match walk p.rcd va s with
    | .ok pa _ _ => homeCore p.rcd pa
    | .tfault _ _ | .merr _ _ => s.here

/-- H of R183. -/
def recHome (key : Nat) (s : State) : Nat :=
  let tag := key / 2 ^ 53
  if tag = 0 then keyHome (bitsOf key 0 53) s
  else if tag = 0x402 then
    (if 2 ^ bitsOf s.ts.priv.toNat 58 6 ≤ bitsOf key 0 53 then s.here
     else keyHome ((bitsOf s.ts.priv.toNat 0 53 + bitsOf key 0 53) % 2 ^ 53) s)
  else if tag = 0x401 then bitsOf key 26 5 * 64 + bitsOf key 20 6
  else s.here

/-- The distance |Δrow| + |Δcol| in logical coordinates. -/
def coreDist (a b : Nat) : Nat :=
  ((rowOf a : Int) - rowOf b).natAbs + ((colOf a : Int) - colOf b).natAbs

/-- The core of a list that is nearest to H, the first where several are (08 R183). -/
def nearest (h : Nat) : List Nat → Option Nat
  | [] => none
  | c :: cs =>
    match nearest h cs with
    | none => some c
    | some d => if coreDist h c ≤ coreDist h d then some c else some d

/-- The cores of a launch assigned to a stage, in rank order (08 R181, R188). -/
def stageCores (l : Launch) (stage : Nat) (s : State) : List Nat :=
  l.cores.filter fun c => (ownedCore l.pid l.lid c s).stage == some stage

/-- The target core of a record (08 R183). -/
def recTarget (l : Launch) (stage h : Nat) (s : State) : Option Nat :=
  let cs := stageCores l stage s
  if cs.contains h then some h else nearest h cs

/-- A record joins a stage ring of a core (08 R183). -/
def ringPut (l : Launch) (stage c : Nat) (r : StageRec) (s : State) : State :=
  modOwned l.pid l.lid c (fun k => { k with rings := vecSet k.rings stage (vecGet k.rings stage ++ [r]) }) s

/-- A full ring that a CPOST met is counted (08 R187). -/
def ringFullCount (l : Launch) (stage c : Nat) (s : State) : State :=
  modOwned l.pid l.lid c (fun k => { k with ringFull := vecSet k.ringFull stage (vecGet k.ringFull stage + 1) }) s

/-- CPOST of a record that has been read (10 R228). -/
def cpostRecord (l : Launch) (d : Reg) (stage x : Nat) (s : State) : Eff :=
  if recordValid x = false then .ok (setS d 2 s)
  else
    let h := recHome (bitsOf x 0 64) s
    match recTarget l stage h s with
    | none => .ok (setS d 1 s)
    | some c =>
      if 32 ≤ (vecGet (ownedCore l.pid l.lid c s).rings stage).length then .ok (setS d 1 (ringFullCount l stage c s))
      else if drained (true, true) s && !meshWait s.here c s then .ok (setS d 0 (ringPut l stage c { data := leBytes 64 x, home := h } s))
      else .hold s .stalled

/-- CPOST past its ILLEGAL cases (10 R228); a stage number out of range is reported before the record is read. -/
def cpostEff (l : Launch) (d : Reg) (off : Word) (stage : Nat) (s : State) : Eff :=
  if l.stages.length ≤ stage then .ok (setS d 3 s)
  else if off.toNat % 64 ≠ 0 ∨ (if isF s then 0x100000 else 0xFC000) < off.toNat + 64 then .ok (setS d 2 s)
  else loadEff (ownLoad 64 64 off s) s fun x t => cpostRecord l d stage x t

/-- CPOST (10 R228). -/
def execCpost (d a : Reg) (stage : BitVec 3) (s : State) : Host.Outcome State Fault Refusal :=
  .next (
    let w : Raw := .i stage.toNat a.toNat d.toNat 0x39
    match myLaunch s with
    | none => finish useNone s (illegal 2 w)
    | some l =>
      if notOwner s ∨ l.stages = [] then finish useNone s (illegal 2 w)
      else execUse (useAD d a) s fun t => cpostEff l d (getS a t) stage.toNat t)

/-! ## TASKEND and YIELD (10 R229, R230; 20 R406) -/

/-- The queue of class k of a reserve bank (20 R397). -/
def bankQueue (bank k : Nat) : Nat := 4 + 2 * (bank - 4) + k

/-- A reserve bank has no command left in its queues. -/
def bankIdle (c bank : Nat) (s : State) : Bool :=
  (vecGet (getCore c s).queues (bankQueue bank 0)).isEmpty && (vecGet (getCore c s).queues (bankQueue bank 1)).isEmpty

/-- FWCTL with the field of a reserve bank cleared (20 R390). -/
def fwctlFree (bank : Nat) (w : Word) : Word := setField w (if bank = 4 then 5 else 10) 5 0

/-- FWCTL with a reserve bank held by a partition (20 R390). -/
def fwctlBank (bank pid : Nat) (w : Word) : Word := setField w (if bank = 4 then 5 else 10) 5 (16 + pid % 16)

/-- A reserve bank, its inbox, counters and queues zeroed, and its window no longer lent (20 R393, R406). -/
def clearBank (c bank : Nat) (s : State) : State :=
  let w := (getCore c s).lent.find? fun x => x.bank == bank
  let s1 := match w with
    | some x => zeroBytes (lmKey c x.base) x.size s
    | none => s
  modTs c bank (fun _ => ThreadSet.reset bank)
    (modCore c (fun k => { k with
      lastCmd := k.lastCmd.filter fun x => x.1 % 8 != bank
      lent := k.lent.filter fun x => x.bank != bank
      inbox := vecSet k.inbox bank []
      bankTrg := vecSet k.bankTrg (bank - 4) (vecGen 8 fun _ => 0)
      queues := vecSet (vecSet k.queues (bankQueue bank 0) []) (bankQueue bank 1) []
      fwctl := fwctlFree bank k.fwctl }) s1)

/-- A frame returned to its partition's pool (19 R381, 20 R406). -/
def freeFrame (pid frame : Nat) (s : State) : State := modPart pid (fun p => { p with freeFrames := p.freeFrames ++ [frame] }) s

/-- The penumbra contexts of a launch changed where they are placed in a bank. -/
def modCtx (pid lid c bank : Nat) (f : PenCtx → PenCtx) (s : State) : State :=
  modLaunch pid lid (fun l => { l with ctxs := modWhere (fun x => x.st == .issuing && x.core == c && x.bank == bank) f l.ctxs }) s

/-- A context that has executed TASKEND retires once its commands have completed (20 R406). -/
def ctxFinish (pid lid c bank : Nat) (s : State) : State :=
  if bankIdle c bank s then
    match launchOf pid lid s with
    | none => clearBank c bank s
    | some l =>
      match l.ctxs.find? fun x => x.st == .issuing && x.core == c && x.bank == bank with
      | none => s
      | some x => freeFrame pid x.frame (clearBank c bank (modCtx pid lid c bank (fun y => { y with st := .retired }) s))
  else s

/-- The launch of the focused thread set has stages. -/
def staged (s : State) : Bool :=
  match myLaunch s with
  | some l => !l.stages.isEmpty
  | none => false

/-- TASKEND's effect (10 R229): the thread set's writes have been performed, and it becomes ENDED, or IDLE with its ranges
unpinned in a launch with stages. -/
def taskendEff (s : State) : Eff :=
  if s.pend.any (Pend.isMine s) then .hold s .stalled
  else if staged s && !isBank s then .stop { s with ts := { s.ts with pins := [] } } .idle
  else .stop s .ended

/-- TASKEND (10 R229, R221; 20 R397, R406). -/
def execTaskend (s : State) : Host.Outcome State Fault Refusal :=
  .next (if inSlice s then finish useNone s (illegal 2 (.i 0x1000 0 0 0x39))
    else
      let t := finish useNone s (taskendEff s)
      if t.ts.run = .ended ∧ isBank t = true then ctxFinish (myPid t) (myLid t) t.here t.tid t else barSettle t)

/-- YIELD (10 R230). -/
def execYield (s : State) : Host.Outcome State Fault Refusal :=
  .next (if inSlice s then finish useNone s (illegal 2 (.i 0x2000 0 0 0x39))
    else finish useNone s (.ok { s with core := { s.core with yielded := some s.tid, count := 0 } }))

/-! ## SEND and delivery (08 R195 to R197; 10 R231) -/

/-- The reserved bits of a SEND destination (10 R231). -/
def sendBad (x : Word) : Bool := bitsOf x.toNat 18 46 != 0 || bitsOf x.toNat 13 3 != 0 || bitsOf x.toNat 6 2 != 0

/-- A message finds its two entries, or a place in a spill queue; one that will be dropped never stalls its sender (08 R195;
10 R231; 19 R383, R386). -/
def sendRoom (c t : Nat) (s : State) : Bool :=
  let k := getCore c s
  let fl := inFlight (myPid s) (myLid s) c t s
  let all := sumList ((List.range 4).map fun i => inFlight (myPid s) (myLid s) c i s)
  if k.owner = some (myPid s, myLid s) then
    if k.pre = .none then
      let l := k.inboxOf t
      !k.spilled t && decide (msgHeld l + 2 * fl + 2 ≤ 12) && decide (l.length + 2 * fl + 2 ≤ 16)
    else decide (k.spill.length + all < 1024)
  else
    match heldOf (myPid s) (myLid s) c s with
    | some h => decide (h.spill.length + all < 1024)
    | none => true

/-- The message that the SEND at the pc has read and could not send yet (10 R223, R231; log entry 68). -/
def heldSend (s : State) : Option HeldSend := s.ts.sends.find? fun h => h.pc == s.ts.pc

/-- The focused thread set's held messages without that of the SEND at its pc. -/
def otherSends (s : State) : List HeldSend := s.ts.sends.filter fun h => h.pc != s.ts.pc

/-- A message is sent with its partition and launch, behind its sender's earlier accesses, or is held with its SEND stalled
(08 R195, R196; 10 R223, R231). -/
def sendMsg (h : HeldSend) (s : State) : Eff :=
  let c := bitsOf h.dst 8 5 * 64 + bitsOf h.dst 0 6
  let i := bitsOf h.dst 16 2
  if sendRoom c i s && !flowStopped (msgFlow s.here c s) s.seq s then
    .ok { s with
      ts := { s.ts with sends := otherSends s }
      msgs := s.msgs ++ [{ pid := myPid s, lid := myLid s, core := s.here, tid := s.tid, dst := c, dts := i, data := h.data,
                           after := openAccesses s, num := s.seq }]
      seq := s.seq + 1 }
  else .hold { s with ts := { s.ts with sends := h :: otherSends s } } .stalled

/-- SEND past its checks (10 R231): the 64 bytes are read when it issues. -/
def sendEff (dst : Word) (off : Word) (s : State) : Eff :=
  loadEff (ownLoad 32 64 off s) s fun x t => sendMsg { pc := s.ts.pc, dst := dst.toNat, data := leBytes 64 x } t

/-- SEND (10 R231, R221; 20 R397). -/
def execSend (a b : Reg) (s : State) : Host.Outcome State Fault Refusal :=
  .next (
    let w : Raw := .a 0 b.toNat a.toNat 0 0x3A
    if notOwner s then finish useNone s (illegal 2 w)
    else execUse (useAB a b) s fun t =>
      match heldSend t with
      | some h => sendMsg h t
      | none => if sendBad (getS a t) then illegal 1 w else sendEff (getS a t) (getS b t) t)

/-- The two entries of a message (08 R195). -/
def msgEntries (data : List Byte) : List InboxEntry :=
  [{ kind := 1, data := data.take 32, ux := none }, { kind := 2, data := data.drop 32, ux := none }]

/-- A drop under R197: DROPS rises, and a kind-4 record, which names the sender (log entry 29), is written when it passes a
multiple of 256 (19 R375). -/
def dropMsg (m : Msg) (s : State) : State :=
  let s1 := bumpFaultHeader m.pid 16 s
  match partOf m.pid s1 with
  | none => s1
  | some p =>
    if memValue s1.mem 4 (p.rcd.faultq + 16) % 256 = 0 then
      writeFault m.pid { kind := 4, code := 0, detail := 0, tsid := m.tid, lid := m.lid, addr := 0, coord := coordOf m.core,
                         pc := 0 } s1
    else s1

/-- A message lands, is spilled or is dropped; `none` while it cannot land. One that was sent to a pre-empted core and finds it resumed
joins the spill entries where its inbox has no room (08 R195 to R197; 19 R386). -/
def msgLand (m : Msg) (s : State) : Option State :=
  let e : InboxEntry := { kind := 1, data := m.data, ux := none }
  if (getCore m.dst s).owner = some (m.pid, m.lid) then
    if (getCore m.dst s).pre = .none then
      some (modCore m.dst (fun k =>
        if k.spilled m.dts || !msgFits (k.inboxOf m.dts) then { k with spill := k.spill ++ [(m.dts, e)] }
        else k.setInbox m.dts (k.inboxOf m.dts ++ msgEntries m.data)) s)
    else spillAsked m.pid m.dst m.dts e s
  else
    match heldOf m.pid m.lid m.dst s with
    | some h => spillHeld m.pid m.lid h m.dts e s
    | none => some (if firewallOk m.dst m.pid s then dropMsg m s else countFwDrop m.pid s)

/-- MESSAGE_DELIVERY: message `n` lands, after what its SEND releases, every message that goes before it and all that its flow
carries before it, unless a failed link holds it (08 R196, 22 R415). -/
def execMessageDelivery (n : Nat) (s : State) : Host.Outcome State Fault Refusal :=
  .next (match nth? s.msgs n with
    | none => s
    | some m =>
      if ((s.msgs.take n).any fun x => x.before m) || !m.injected s || flowWaits (msgFlow m.core m.dst s) m.num s then s
      else (msgLand m { s with msgs := dropNth s.msgs n }).getD s)

end Sys2Proof.Machine
end

