-- ==== Sys2Proof/Machine/StreamOps.lean ====
section
/-! DEFINITION. Stream-slot control and the fetch-ahead of read slots (06 R155, R156, R159 to R163). -/
namespace Sys2Proof.Machine

/-- DescriptorValid of R156 on the 64 bytes of a descriptor as a number (06 R155). -/
def descriptorValid (p : Nat) (vec write : Bool) : Bool :=
  let counts := (List.range 4).map fun k => bitsOf p (64 + 32 * k) 32
  let esize := bitsOf p 448 8
  let sext := bitOf p 456
  counts.all (fun c => c != 0) && decide (counts.foldl (fun a b => a * b) 1 < 2 ^ 48) &&
    (if vec then esize == 4 else decide (esize ≤ 3)) && bitsOf p 457 55 == 0 &&
    (!sext || (!vec && !write && decide (esize ≤ 2)))

/-- The slot that a descriptor gives (06 R156). -/
def slotFrom (p : Nat) (vec write : Bool) (reg : Nat) : Slot :=
  { st := .active, write := write, vec := vec, reg := reg, base := w64 (bitsOf p 0 64),
    counts := (List.range 4).map fun k => bitsOf p (64 + 32 * k) 32,
    strides := (List.range 4).map fun k => w64 (bitsOf p (192 + 64 * k) 64),
    esize := bitsOf p 448 8, sext := bitOf p 456, pos := 0, buf := [], held := none }

/-- The generic address of a local-memory offset (11 R236). -/
def lmGa (off : Nat) : Word := w64 (0x400 * 2 ^ 53 + off)

/-- The register that SBIND names (06 R156). -/
def bindReg (vec : Bool) (d : Reg) : RegRef := if vec then .v d else .s d

/-- The register cannot be bound (06 R156, R157). -/
def unbindable (vec : Bool) (d : Reg) (s : State) : Bool :=
  (!vec && (d == 0 || decide (24 ≤ d.toNat))) || (boundSlot (bindReg vec d) s).isSome

/-- STREAM_STATE on a slot (06 R157). -/
def streamTrap (slot detail : Nat) : Eff := .trap 7 detail (w64 slot)

/-- The checks of Sbind that need no operand value (06 R156). -/
def sbindFirst (vec : Bool) (slot : Nat) (d : Reg) (s : State) : Option Cause :=
  if (slotOf slot s).st ≠ .free then some (streamFault slot 1)
  else if unbindable vec d s then some (streamFault slot 2) else none

/-- The rest of Sbind (06 R156). -/
def sbindEff (write vec : Bool) (slot : Nat) (d : Reg) (off : Nat) (s : State) : Eff :=
  if off % 64 ≠ 0 ∨ (if isF s then 0x100000 else 0xFC000) < off + 64 then streamTrap slot 3
  else
    loadEff (loadAt 64 (lmGa off) s) s fun p t =>
      if descriptorValid p vec write then .ok (setSlot slot (slotFrom p vec write d.toNat) t) else streamTrap slot 3

/-- SBIND (06 R156). -/
def execSbind (w : Bool) (v : Bool) (slot : BitVec 3) (d a : Reg) (s : State) : Host.Outcome State Fault Refusal :=
  .next (execFirst (useA a) s (sbindFirst v slot.toNat d s) fun t => sbindEff w v slot.toNat d (getS a t).toNat t)

/-- An element appended through a slot of the focused thread set is still to be performed (06 R163). -/
def undrained (slot : Nat) (s : State) : Bool :=
  s.pend.any fun p => p.isMine s && p.slot == some slot

/-- SFREE (06 R161). -/
def execSfree (slot : BitVec 3) (s : State) : Host.Outcome State Fault Refusal :=
  .next (execUse useNone s fun t =>
    if (slotOf slot.toNat t).write && undrained slot.toNat t then .hold t .stalled else .ok (setSlot slot.toNat Slot.empty t))

/-- The code of a slot state (06 R154). -/
def slotCode (k : SlotSt) : Nat :=
  match k with
  | .free => 0
  | .active => 1
  | .done => 2
  | .faulted => 3

/-- The status word of SSTAT (06 R162). -/
def Slot.word (k : Slot) : Word :=
  if k.st = .free then 0
  else w64 ((k.total - k.pos) * 2 ^ 16 + k.reg * 2 ^ 8 + k.vec.toNat * 2 ^ 7 + k.write.toNat * 2 ^ 6 + slotCode k.st)

/-- SSTAT (06 R161, R162). -/
def execSstat (slot : BitVec 3) (d : Reg) (s : State) : Host.Outcome State Fault Refusal :=
  .next (execUse (useD d) s fun t => .ok (setS d (slotOf slot.toNat t).word t))

/-- SSKIP (06 R161). -/
def execSskip (slot : BitVec 3) (a : Reg) (s : State) : Host.Outcome State Fault Refusal :=
  .next (execFirst (useA a) s (if (slotOf slot.toNat s).st = .free then some (streamFault slot.toNat 4) else none) fun t =>
    let k := slotOf slot.toNat t
    .ok (setSlot slot.toNat (k.moveTo (Nat.min (k.pos + (getS a t).toNat) k.total)) t))

/-- The state of a bound slot that holds no fault (06 R154). -/
def Slot.settled (k : Slot) : SlotSt := if k.pos = k.total then .done else .active

/-- SDRAIN (06 R161): a read slot's held fault goes with its buffer, since its element is fetched again. -/
def execSdrain (slot : BitVec 3) (s : State) : Host.Outcome State Fault Refusal :=
  .next (execUse useNone s fun t =>
    let k := slotOf slot.toNat t
    if k.st = .free then streamTrap slot.toNat 4
    else if k.write then (if undrained slot.toNat t then .hold t .stalled else .ok t)
    else .ok (setSlot slot.toNat { k with buf := [], held := none, st := k.settled } t))

/-- The next element of a read slot is fetched, or the fault that its load would take is held (06 R159, R160). -/
def fetchAhead (slot : Nat) (s : State) : State :=
  let k := slotOf slot s
  let m := k.pos + k.buf.length
  if k.st ≠ .active ∨ k.write ∨ k.total ≤ m ∨ 512 < (k.buf.length + 1) * k.bytes then s
  else
    match loadAt k.bytes (k.addr m) s with
    | .val x t => setSlot slot { k with buf := k.buf ++ [(m, BitVec.ofNat 512 x)] } t
    | .fault c => setSlot slot { k with st := .faulted, held := some (m, c) } s
    | .wait _ => s
    | .merr _ _ => s

/-- The thread set has a task whose instructions may issue (08 R171). -/
def Run.live (r : Run) : Bool :=
  match r with
  | .ready | .stalled | .waiting => true
  | .idle | .ended | .halted => false

/-- STREAM_FETCH_AHEAD (06 R159, R160). -/
def execStreamFetchAhead (core tid : Nat) (slot : BitVec 3) (s : State) : Host.Outcome State Fault Refusal :=
  .next (if (getTs core tid s).run.live then focusOn s.here s.tid (fetchAhead slot.toNat (focusOn core tid s)) else s)

end Sys2Proof.Machine
end

