-- ==== Sys2Proof/Machine/Engines.lean ====
section
/-! DEFINITION. The common interface of the engines (15 R313 to R328): command queues, readiness, start checks, accesses of
commands, their ends and completions, and trigger counters. -/
namespace Sys2Proof.Machine

/-! ## The header (15 R315, R316) -/

/-- OPC. -/
def Cmd.opc (c : Cmd) : Nat := bitsOf c.tcw.toNat 248 8
/-- CLASS. -/
def Cmd.cls (c : Cmd) : Nat := bitsOf c.tcw.toNat 244 4
/-- PAL. -/
def Cmd.pal (c : Cmd) : Nat := bitsOf c.tcw.toNat 240 4
/-- TAG. -/
def Cmd.tag (c : Cmd) : Nat := bitsOf c.tcw.toNat 224 16
/-- NOTIFY. -/
def Cmd.notify (c : Cmd) : Bool := bitOf c.tcw.toNat 223
/-- CHAIN. -/
def Cmd.chain (c : Cmd) : Bool := bitOf c.tcw.toNat 222
/-- TRG. -/
def Cmd.trg (c : Cmd) : Nat := bitsOf c.tcw.toNat 216 6
/-- THR. -/
def Cmd.thr (c : Cmd) : Nat := bitsOf c.tcw.toNat 184 32
/-- BOV. -/
def Cmd.bov (c : Cmd) : Nat := bitsOf c.tcw.toNat 176 8
/-- CEN. -/
def Cmd.cen (c : Cmd) : Bool := bitOf c.tcw.toNat 175
/-- CCTR. -/
def Cmd.cctr (c : Cmd) : Nat := bitsOf c.tcw.toNat 168 6
/-- UXH. -/
def Cmd.uxh (c : Cmd) : Nat := bitsOf c.tcw.toNat 150 18
/-- An operand field in bits 149:0. -/
def Cmd.field (c : Cmd) (lo n : Nat) : Nat := bitsOf c.tcw.toNat lo n

/-- The command was enqueued by a reserve bank. -/
def Cmd.ofBank (c : Cmd) : Bool := c.tid == 4 || c.tid == 5

/-- The assigned opcodes (15 R316). -/
def opcAssigned (x : Nat) : Bool :=
  [0x01, 0x02, 0x03, 0x10, 0x11, 0x12, 0x13, 0x14, 0x15, 0x20, 0x21, 0x22, 0x23, 0x30, 0x40].contains x

/-- A reserve bank's command that names a counter the bank does not have: it is not armed, and advances none (20 R397). -/
def Cmd.unarmed (c : Cmd) : Bool := c.ofBank && (decide (8 ≤ c.trg) || (c.cen && decide (8 ≤ c.cctr)))

/-- The checks of R317 steps 1 to 3, with those of R397 for a reserve bank: the failing status. -/
def Cmd.headerCheck (c : Cmd) : Option Nat :=
  if 5 ≤ c.cls ∨ (c.cls = 4 ∧ c.f = false) ∨ c.cls ≠ c.opc / 16 ∨ (c.ofBank = true ∧ 2 ≤ c.cls) then some 0x11
  else if opcAssigned c.opc = false then some 0x10
  else if (c.trg = 0 ∧ c.thr ≠ 0) ∨ (c.bov ≠ 0 ∧ c.bov ≠ 0xF0) ∨ (c.bov = 0xF0 ∧ c.f = false) ∨ bitOf c.tcw.toNat 174 = true ∨
      (c.cen = false ∧ c.cctr ≠ 0) ∨ (c.notify = false ∧ c.uxh ≠ 0) ∨
      c.unarmed = true then some 0x12
  else none

/-! ## The operands and the parameter block of a transfer command (17 R352, R353, R358) -/

/-- The offset of the parameter block. -/
def Cmd.pblk (m : Cmd) : Nat := m.field 136 14 * 64
/-- The element size in bytes, from ESZ. -/
def Cmd.eb (m : Cmd) : Nat := 2 ^ m.field 132 4
/-- NDIM. -/
def Cmd.ndim (m : Cmd) : Nat := m.field 130 2
/-- VT. -/
def Cmd.vt (m : Cmd) : Nat := m.field 128 2
/-- R = NROWS + 1. -/
def Cmd.nrows (m : Cmd) : Nat := m.field 122 6 + 1
/-- ISRC. -/
def Cmd.isrc (m : Cmd) : Bool := bitOf m.tcw.toNat 121
/-- DTH. -/
def Cmd.dth (m : Cmd) : Nat := m.field 113 8

/-- A field of a parameter block held as a little-endian number. -/
def blkAt (x byte n : Nat) : Nat := bitsOf x (8 * byte) (8 * n)

/-- The four counts of a block. -/
def blkCounts (x : Nat) : List Nat := genList 4 fun k => blkAt x (16 + 4 * k) 4
/-- The four strides of a block from a byte on. -/
def blkStrides (x byte : Nat) : List Word := genList 4 fun k => w64 (blkAt x (byte + 8 * k) 8)
/-- The elements that a pattern names. -/
def blkTotal (x : Nat) : Nat := (blkCounts x).foldl (fun a b => a * b) 1

/-- The record size of a value type (17 R355, R361). -/
def recBytes (vt : Nat) : Nat := if vt = 2 then 16 else 8
/-- The value width of a value type. -/
def valBytes (vt : Nat) : Nat := if vt = 2 then 8 else 4

/-- MERGE writes the dense form (17 R361). -/
def mergeDense (m : Cmd) (x : Nat) : Bool := decide (m.dth * blkAt x 36 4 < (blkAt x 16 4 + blkAt x 20 4) * 256)

/-- A byte range from a generic base address, as offsets from it. -/
structure Span where
  base : Word
  lo : Int
  hi : Int
  deriving DecidableEq, Repr

/-- The span of `n` elements of `b` bytes along a list of counts and signed strides (17 R358). -/
def patternSpan (base : Word) (cs : List Nat) (ss : List Word) (b : Nat) : Span :=
  (cs.zip ss).foldl (fun r p =>
    let d := ((p.1 : Int) - 1) * p.2.toInt
    if d < 0 then { r with lo := r.lo + d } else { r with hi := r.hi + d }) { base := base, lo := 0, hi := b }

/-- The span of a plain range of bytes. -/
def plainSpan (base : Word) (n : Nat) : Span := { base := base, lo := 0, hi := n }

/-- The ranges that a transfer command reads, by its block (17 R358). -/
def readSpans (m : Cmd) (x : Nat) : List Span :=
  let src := w64 (blkAt x 0 8)
  match m.opc with
  | 0x10 => [patternSpan src (blkCounts x) (blkStrides x 32) m.eb]
  | 0x11 => []
  | 0x12 => if m.isrc then [plainSpan (w64 (blkAt x 40 8)) (4 * m.nrows)] else []
  | 0x13 => patternSpan src [m.nrows] [w64 (blkAt x 32 8)] (blkAt x 16 4) ::
      (if m.isrc then [plainSpan (w64 (blkAt x 40 8)) (4 * m.nrows)] else [])
  | 0x14 => [plainSpan src (blkAt x 16 4 * recBytes m.vt), plainSpan (w64 (blkAt x 8 8)) (blkAt x 20 4 * recBytes m.vt)]
  | _ => [plainSpan src (blkAt x 16 4 * valBytes m.vt)]

/-- The range that a transfer command writes, by its block (17 R358). -/
def writeSpans (m : Cmd) (x : Nat) : List Span :=
  match m.opc with
  | 0x10 | 0x11 => [patternSpan (w64 (blkAt x 8 8)) (blkCounts x) (blkStrides x 64) m.eb]
  | 0x12 => [patternSpan (w64 (blkAt x 8 8)) [m.nrows] [w64 (blkAt x 32 8)] (blkAt x 16 4)]
  | 0x13 => []
  | 0x14 =>
    [plainSpan (w64 (blkAt x 24 8)) (if mergeDense m x then blkAt x 36 4 * valBytes m.vt else blkAt x 32 4 * recBytes m.vt)]
  | _ => [plainSpan (w64 (blkAt x 8 8)) (blkAt x 24 4 * recBytes m.vt)]

/-! ## Queues (15 R313; 20 R397) -/

/-- The queue that a thread set's command of a class goes to (15 R318, 20 R397). -/
def queueFor (tid cls : Nat) : Nat :=
  if tid = 4 ∨ tid = 5 then bankQueue tid (if cls = 0 then 0 else 1) else if cls ≤ 3 then cls else 1

/-- The entries of a queue (15 R313, 20 R397). -/
def queueCap (cq : Nat) : Nat :=
  match cq with
  | 0 => 16 | 1 => 32 | 2 => 8 | 3 => 8 | 4 => 4 | 6 => 4 | _ => 8

/-- The class that a queue serves. -/
def queueClass (cq : Nat) : Nat := if cq < 4 then cq else cq % 2

/-- Queue `cq` of core `c`, and those that pre-empted launches hold for that core (19 R383). -/
def cmdLists (c cq : Nat) (s : State) : List (List Cmd) :=
  vecGet (getCore c s).queues cq ::
    (s.launches.map fun l => (l.held.filter fun h => h.core == c).map fun h => vecGet h.saved.queues cq).flatten

/-- Entry `n` of a list of queues, with the commands before it in its own queue. -/
def findIn : List (List Cmd) → Nat → Option (List Cmd × Cmd)
  | [], _ => none
  | q :: qs, n =>
    match nth? q n with
    | some c => some (q.take n, c)
    | none => findIn qs (n - q.length)

/-- Command `n` of queue `cq` of core `c`. -/
def cmdAt (c cq n : Nat) (s : State) : Option (List Cmd × Cmd) := findIn (cmdLists c cq s) n

/-- Queue `cq` of a core changed by `f`. -/
def Core.modQueue (cq : Nat) (f : List Cmd → List Cmd) (k : Core) : Core :=
  { k with queues := vecSet k.queues cq (f (vecGet k.queues cq)) }

/-- Queue `cq` of core `c`, wherever it is, changed by `f`. -/
def modQueues (c cq : Nat) (f : List Cmd → List Cmd) (s : State) : State :=
  let t := modCore c (Core.modQueue cq f) s
  { t with launches := t.launches.map fun l =>
      { l with held := modWhere (fun h => h.core == c) (fun h => { h with saved := h.saved.modQueue cq f }) l.held } }

/-- The command numbered `q` of queue `cq` of core `c` changed by `f`. -/
def modCmd (c cq q : Nat) (f : Cmd → Cmd) (s : State) : State := modQueues c cq (modWhere (fun x => x.seq == q) f) s

/-- The command numbered `q` of queue `cq` of core `c` removed. -/
def dropCmd (c cq q : Nat) (s : State) : State := modQueues c cq (fun l => l.filter fun x => x.seq != q) s

/-- The core state that a command belongs to: the core, or the frame of its launch. -/
def cmdCore (c : Nat) (m : Cmd) (s : State) : Core := if m.tid < 4 then ownedCore m.pid m.lid c s else getCore c s

/-- The thread set that issued a command. -/
def cmdTs (c : Nat) (m : Cmd) (s : State) : ThreadSet :=
  if m.tid < 4 ∧ (getCore c s).owner ≠ some (m.pid, m.lid) then vecGet (cmdCore c m s).tsets m.tid else getTs c m.tid s

/-- The issuing thread set's core is held by another launch, or by none (19 R383). -/
def away (c : Nat) (m : Cmd) (s : State) : Bool := decide (m.tid < 4) && (getCore c s).owner != some (m.pid, m.lid)

/-! ## Trigger counters (15 R324, R325) -/

/-- Fired (15 R324). -/
def trgFired (c h : Nat) : Bool := decide ((c + 2 ^ 32 - h % 2 ^ 32) % 2 ^ 32 < 2 ^ 31)

/-- Counter `n` of a core for thread set `t` (15 R324, 20 R397). -/
def Core.counter (k : Core) (t n : Nat) : Nat :=
  if t = 4 ∨ t = 5 then (vecGet (vecGet k.bankTrg (t - 4)) n).toNat else (vecGet k.trg n).toNat

/-- The queues whose commands can be armed on the counters of thread set `t`. -/
def trgQueues (t : Nat) : List Nat := if t = 4 ∨ t = 5 then [bankQueue t 0, bankQueue t 1] else [0, 1, 2, 3]

/-- A command armed on counter `n` fires where its condition holds, and stays fired (15 R324). -/
def Cmd.evaluate (n v : Nat) (m : Cmd) : Cmd := if m.trg = n ∧ m.fired = false ∧ trgFired v m.thr then { m with fired := true } else m

/-- A thread set in TRGWAIT notes that its condition has held (15 R325). -/
def noteTrg (n v : Nat) (t : ThreadSet) : ThreadSet :=
  match t.trgWait with
  | some (k, h, ok) => if k = n then { t with trgWait := some (k, h, ok || trgFired v h) } else t
  | none => t

/-- The thread sets that share the counters of thread set `t`. -/
def trgSharers (t : Nat) : List Nat := if t = 4 ∨ t = 5 then [t] else [0, 1, 2, 3, 6]

/-- Counter `n` for thread set `t` set to `v`: armed commands and waiting thread sets are evaluated (15 R324, R325). -/
def Core.setCounter (t n v : Nat) (k : Core) : Core :=
  let k1 :=
    if t = 4 ∨ t = 5 then
      { k with bankTrg := vecSet k.bankTrg (t - 4) (vecSet (vecGet k.bankTrg (t - 4)) n (BitVec.ofNat 32 v)) }
    else { k with trg := vecSet k.trg n (BitVec.ofNat 32 v) }
  let k2 := (trgQueues t).foldl (fun x q => x.modQueue q (fun l => l.map (Cmd.evaluate n (v % 2 ^ 32)))) k1
  { k2 with tsets := (trgSharers t).foldl (fun ts i => vecSet ts i (noteTrg n (v % 2 ^ 32) (vecGet ts i))) k2.tsets }

/-- Counter `n` set, for thread set `t` of core `c` of a launch. -/
def setCounter (pid lid c t n v : Nat) (s : State) : State :=
  if 4 ≤ t ∨ (getCore c s).owner = some (pid, lid) then
    let s1 := modCore c (Core.setCounter t n v) s
    if c = s.here ∧ (trgSharers t).contains s.tid then { s1 with ts := noteTrg n (v % 2 ^ 32) s1.ts } else s1
  else modOwned pid lid c (Core.setCounter t n v) s

/-! ## Readiness (15 R314) -/

/-- A command's trigger and chain conditions hold (15 R314). -/
def Cmd.ready (m : Cmd) : Bool := m.fired && (!m.chain || m.pred.isNone || m.predSt.isSome)

/-- Every core's state. -/
def allCores (s : State) : List (Nat × Core) := (s.here, syncCore s) :: s.cores.filter fun x => x.1 != s.here

/-- A command occupies an engine. -/
def Cmd.running (m : Cmd) : Bool := m.started && m.fin.isNone

/-- The core whose local memory a generic address of a command of core `c` names. -/
def lmNamed (c : Nat) (g : Word) : Option Nat :=
  let tag := g.toNat / 2 ^ 53
  if tag = 0x400 then some c
  else if tag = 0x401 then some (bitsOf g.toNat 26 5 * 64 + bitsOf g.toNat 20 6)
  else none

/-- A running transfer command pauses: a range of it lies in the local memory of a core of its launch that is pre-empted (19
R383). -/
def xferPaused (c : Nat) (m : Cmd) (s : State) : Bool :=
  let x := leValue m.blk
  decide (m.tid < 4) && !m.blk.isEmpty &&
    (readSpans m x ++ writeSpans m x).any fun r => decide (r.lo < r.hi) &&
      (match lmNamed c r.base with
       | some y => s.launches.any fun l => l.pid == m.pid && l.lid == m.lid && l.held.any fun h => h.core == y
       | none => false)

/-- The transfer commands of the cores of a die, those that pre-empted launches hold among them, each with its core (15 R313; 19
R383). -/
def dieTransfers (die : Nat) (s : State) : List (Nat × Cmd) :=
  let of_ (x : Nat × Core) : List (Nat × Cmd) :=
    (vecGet x.2.queues 1 ++ vecGet x.2.queues 5 ++ vecGet x.2.queues 7).map fun m => (x.1, m)
  let held := (s.launches.map fun l => l.held.map fun h => (h.core, h.saved)).flatten
  ((allCores s ++ held).filter fun x => dieOf x.1 s == die).flatMap of_

/-- The transfer commands of a die that occupy an engine: a paused one waits in the held-command store (15 R313; 19 R383). -/
def onEngines (die : Nat) (s : State) : List Cmd :=
  ((dieTransfers die s).filter fun x => x.2.running && !xferPaused x.1 x.2 s).map fun x => x.2

/-- A transfer engine of the die is free for a command: 32 engines, and a bank's command only where no host command of the
die waits (15 R313, 20 R398). -/
def engineFree (c : Nat) (m : Cmd) (s : State) : Bool :=
  decide ((onEngines (dieOf c s) s).length < 32) &&
    (!m.ofBank || !((dieTransfers (dieOf c s) s).any fun x => !x.2.ofBank && x.2.ready && !x.2.started && x.2.fin.isNone))

/-- A running transfer command has an engine: of those that would run, the 32 that were enqueued first do (15 R313; 19 R385; log
entry 63). -/
def hasEngine (c : Nat) (m : Cmd) (s : State) : Bool :=
  decide (((onEngines (dieOf c s) s).filter fun x => decide (x.seq < m.seq)).length < 32)

/-- The queues of class 0 of a core whose commands run one at a time with those of queue `cq`: the owner's own, or the reserve
banks' (15 R314, 20 R398; log entry 63). -/
def sliceQueues (cq : Nat) : List Nat := if cq < 4 then [0] else [bankQueue 4 0, bankQueue 5 0]

/-- A command may start (12 R277, 15 R314, 19 R383): it is ready, the earlier ready commands of its queue have started, what
it follows has been performed, and an engine is free. -/
def startable (c cq : Nat) (before : List Cmd) (m : Cmd) (s : State) : Bool :=
  m.ready && !m.started && m.fin.isNone && (before.all fun q => q.started || q.fin.isSome || !q.ready) &&
    performedAll m.after c s &&
    (match queueClass cq with
     | 0 => !away c m s && (sliceQueues cq).all fun q => (vecGet (getCore c s).queues q).all fun x => !x.running
     | 1 => engineFree c m s
     | _ => true)

/-- The owner of a core has a class 0 command with a chunk ready (16 R331): one that runs and waits for no answer, or one that may
start. -/
def ownerChunk (c : Nat) (s : State) : Bool :=
  let q := vecGet (getCore c s).queues 0
  (List.range q.length).any fun i => match nth? q i with
    | some m => (m.running && m.ticket.isNone) || startable c 0 (q.take i) m s
    | none => false

/-- The slice of a core runs a chunk of queue `cq` now (16 R331; 20 R398): while a pre-emption drains the accepted operations,
none; the owner's and the accepted operations alternate, an operation first; a reserve bank's where the owner has nothing
ready. -/
def sliceTakes (c cq : Nat) (s : State) : Bool :=
  let k := getCore c s
  if cq < 4 then k.pre == .none && (k.matq.isEmpty || k.sliceTurn)
  else k.matq.isEmpty && !(k.pre == .none && ownerChunk c s)

/-! ## The end of a command (15 R319 to R321, R326, R327) -/

/-- The lock bits that the commands of a thread set hold. -/
def lockBits (l : List Cmd) : BitVec 32 := l.foldl (fun b m => m.locks.foldl (fun b r => b ||| (1#32 <<< r)) b) 0

/-- The lock bits of the issuing thread set as its commands in every queue have them; a pre-empted thread set has none (15 R326). -/
def relock (c : Nat) (m : Cmd) (s : State) : State :=
  if away c m s then s
  else
    let l := (getCore c s).queues.toList.flatten.filter fun x => x.tid == m.tid
    modTs c m.tid (fun t => { t with locks := lockBits l }) s

/-- The completion of a command with a status (15 R320). -/
def Cmd.completion (m : Cmd) (st units : Nat) : Completion :=
  { tag := m.tag, status := st, cls := m.cls + 16 * (m.opc % 16), units := units, faddr := 0, fcode := 0, fdetail := 0,
    pcount := 0, pmask := 0, tdone := 0, uxh := m.uxh }

/-- A command ends with a completion: its windows and lock bits are released, and its ticket is dropped (15 R319, R327). -/
def endCmd (c cq : Nat) (m : Cmd) (x : Completion) (s : State) : State :=
  let s1 := match m.ticket with
    | some n => { s with tickets := s.tickets.filter fun t => t.num != n }
    | none => s
  relock c m (modCmd c cq m.seq (fun _ => { m with started := true, fin := some x, reads := [], writes := [], locks := [],
                                                      ticket := none }) s1)

/-- The status of the chain predecessor aborts the chain (15 R321). -/
def Cmd.aborted (m : Cmd) : Bool :=
  m.chain && (match m.predSt with
    | some x => decide (2 ≤ x) && x != 0x50
    | none => false)

/-- A command that is to start fails CHAIN_ABORT or the checks of its header (15 R317, R321). -/
def Cmd.startFails (m : Cmd) : Option Nat := if m.aborted then some 0x02 else m.headerCheck

/-- Step 2 of R319: the counter, the order of the completion, its time, and the chain successors. -/
def completeStep2 (c cq : Nat) (m : Cmd) (x : Completion) (s : State) : State :=
  let n := m.cctr
  let k := cmdCore c m s
  let s1 := if m.cen ∧ m.unarmed = false then setCounter m.pid m.lid c m.tid n (k.counter m.tid n + 1) s else s
  let s2 := modQueues c cq (modWhere (fun y => y.pred == some m.seq) fun y => { y with predSt := some x.status }) s1
  let key := cq * 8 + m.tid
  let note (k : Core) : Core :=
    match lookupD (0, none) k.lastCmd key with
    | (q, _) => if q = m.seq then { k with lastCmd := insertKey key (q, some x.status) k.lastCmd } else k
  let s3 := if m.tid < 4 then modOwned m.pid m.lid c note s2 else modCore c note s2
  modCmd c cq m.seq (fun y => { y with fin := some { x with tdone := w64 s3.time }, ord := some s3.seq })
    { s3 with seq := s3.seq + 1 }

/-- A completion of the same thread set whose step 2 occurred earlier still waits for the inbox (15 R319). -/
def earlierWaits (c : Nat) (m : Cmd) (o : Nat) (s : State) : Bool :=
  (List.range 8).any fun q => (cmdLists c q s).any fun l => l.any fun y =>
    y.tid == m.tid && y.pid == m.pid && y.lid == m.lid && (match y.ord with
      | some k => decide (k < o)
      | none => false)

/-- A bank whose context has executed TASKEND retires it once its last command has gone (20 R406). -/
def bankSettle (c : Nat) (m : Cmd) (s : State) : State :=
  if m.ofBank ∧ (getTs c m.tid s).run = .ended then ctxFinish m.pid m.lid c m.tid s else s

/-- Steps 3 and 4 of R319: the entry is written, and the queue entry is freed. -/
def completeStep3 (c cq : Nat) (m : Cmd) (x : Completion) (o : Nat) (s : State) : State :=
  if earlierWaits c m o s then s
  else
    match putCompletion m.pid m.lid c m.tid x m.notify s with
    | some t => bankSettle c m (dropCmd c cq m.seq t)
    | none => s

/-- A command after `f` has ended it is carried through as much of R319 as it can be. -/
def completeCmd (c cq : Nat) (m : Cmd) (x : Completion) (s : State) : State :=
  match m.ord with
  | some o => completeStep3 c cq m x o s
  | none => completeStep3 c cq m { x with tdone := w64 s.time } s.seq (completeStep2 c cq m x s)

/-- COMMAND_COMPLETION (15 R317, R319): command `n` of queue `cq` of core `c` goes through the steps of its completion; one
that would start and fails the checks of its header ends so. -/
def execCommandCompletion (core cq n : Nat) (s : State) : Host.Outcome State Fault Refusal :=
  .next (match cmdAt core cq n s with
    | none => s
    | some (before, m) =>
      match m.fin with
      | some x => completeCmd core cq m x s
      | none =>
        if startable core cq before m s then
          match m.startFails with
          | some st => endCmd core cq m (m.completion st 0) s
          | none => if m.cls = 4 then endCmd core cq m (m.completion 0x12 0) s else s
        else s)

/-! ## Accesses of a command (17 R355; 19 R388; 20 R396, R400) -/

/-- What an address comes to for an access of a command. -/
inductive CAcc where
  | ok (s : State) (key : Nat) (cls : Cls) (pa : Nat)
  | fault (s : State) (code detail : Nat) (addr : Word)
  | wait (s : State)
  | merr (code : Nat) (loc : Word)

/-- The device as the issuer of a command addresses it. -/
def cmdView (c : Nat) (m : Cmd) (s : State) : State :=
  { focusOn c m.tid s with ts := cmdTs c m s }

/-- What an address decode through the issuer's view leaves behind. -/
def fromView (s t : State) : State := { s with parts := t.parts, mem := t.mem }

/-- An address decode through the issuer's view, for a command. -/
def viewAcc (ga : Word) (s : State) (a : Acc) : CAcc :=
  match a with
  | .mem t key cls _ pa => .ok (fromView s t) key cls pa
  | .const key => .ok s key .lm 0
  | .event _ _ => .fault s 0x21 (4 * 4) ga
  | .fw _ _ => .fault s 0x21 (4 * 4) ga
  | .fault t code detail => .fault (fromView s t) code detail ga
  | .wait _ => .wait s
  | .merr _ _ => .wait s

/-- A TRANSLATION fault that a command met at or below an HB entry (19 R388). -/
def cmdHost (c cq : Nat) (m : Cmd) (va lvl : Nat) (k : Kind) (s : State) : CAcc :=
  match m.ticket.bind fun n => s.tickets.find? fun t => t.num == n with
  | some t =>
    (match t.denied with
     | some true => .fault { s with tickets := s.tickets.filter fun x => x.num != t.num } 0x26 (t.lvl * 4 + k.bits) (w64 t.va)
     | _ => .wait s)
  | none =>
    .wait (modCmd c cq m.seq (fun x => { x with ticket := some s.nextTicket })
      (newTicket { num := 0, pid := m.pid, lid := m.lid, va := va, kind := k.bits, lvl := lvl,
                   party := .command c cq m.seq, denied := none } s))

/-- An access of a command to tenant virtual memory (17 R355, R356). -/
def cmdVirtual (c cq : Nat) (m : Cmd) (va : Nat) (k : Kind) (ga : Word) (s : State) : CAcc :=
  match placeVaFor none m.pid va k (if k = .load then .either else .forbid) s with
  | .ok t key e pa => .ok t key (if pteC e then .l1 else .hs) pa
  | .fault t code detail => .fault t code detail ga
  | .host t lvl => cmdHost c cq m va lvl k t
  | .merr code loc => .merr code (match partOf m.pid s with
    | some p => if code = 0x81 then w64 (walkEnd p.rcd va s) else loc
    | none => loc)

/-- An access of a command to `n` bytes at a generic address (17 R355). -/
def cmdReach (c cq : Nat) (m : Cmd) (k : Kind) (n : Nat) (ga : Word) (s : State) : CAcc :=
  let g := ga.toNat
  let tag := g / 2 ^ 53
  let v := cmdView c m s
  if g % n ≠ 0 then .fault s 0x20 k.bits ga
  else if tag = 0 then cmdVirtual c cq m (bitsOf g 0 53) k ga s
  else if tag = 0x402 then
    let o := bitsOf g 0 53
    if 2 ^ bitsOf m.priv.toNat 58 6 ≤ o then .fault s 0x21 (2 * 4 + k.bits) ga
    else cmdVirtual c cq m ((bitsOf m.priv.toNat 0 53 + o) % 2 ^ 53) k ga s
  else if tag = 0x400 then
    if bitsOf g 20 33 ≠ 0 then .fault s 0x21 k.bits ga
    else if away c m s then .wait s else viewAcc ga s (ownLm (bitsOf g 0 20) n k v)
  else if tag = 0x401 then
    let x := bitsOf g 26 5 * 64 + bitsOf g 20 6
    if bitsOf g 31 22 ≠ 0 then .fault s 0x21 k.bits ga
    else if x = c ∧ away c m s then .wait s else viewAcc ga s (remoteLm x (bitsOf g 0 20) n k v)
  else if tag = 0x403 then
    if bitsOf g 12 41 ≠ 0 then .fault s 0x21 k.bits ga
    else if k = .store then .fault s 0x21 (3 * 4 + k.bits) ga
    else if away c m s then .wait s
    else if m.ofBank then .ok s (lmKey c (v.ts.wbase + (v.ts.wsize - 4096) + bitsOf g 0 12)) .lm 0
    else .ok s (constKey c (bitsOf g 0 12)) .lm 0
  else if tag = 0x404 then .fault s 0x21 (4 * 4 + k.bits) ga
  else if tag = 0x405 then .fault s 0x21 ((if m.f then 4 else 1) * 4 + k.bits) ga
  else .fault s 0x21 k.bits ga

/-- The location of a machine error that a command met: an offset of a local memory, else a physical address (19 R374). -/
def engineLoc (code pa : Nat) (loc : Word) : Word := if code = 0x81 then w64 (pa / 64 * 64 + loc.toNat % 64) else loc

/-- What one read of a command comes to. -/
inductive CRead where
  | val (x : List Byte) (s : State)
  | fault (s : State) (code detail : Nat) (addr : Word)
  | wait (s : State)
  | err (loc : Word)

/-- A read of `n` bytes by a command, aligned to `al` (17 R355). -/
def cmdRead (c cq : Nat) (m : Cmd) (al n : Nat) (ga : Word) (s : State) : CRead :=
  match cmdReach c cq m .load al ga s with
  | .ok t key _ pa =>
    (match readError key n t with
     | some e => .err (engineLoc e.1 pa e.2)
     | none => .val (memRead t.mem n key) (correct key n t))
  | .fault t code detail addr => .fault t code detail addr
  | .wait t => .wait t
  | .merr _ loc => .err loc

/-- A write of a command that has been checked: where, and in which line. -/
structure CWrite where
  key : Nat
  cls : Cls
  pa : Nat
  data : List Byte
  deriving DecidableEq, Repr

/-- What the check of one write of a command comes to. -/
inductive CChk where
  | ok (w : CWrite) (s : State)
  | fault (s : State) (code detail : Nat) (addr : Word)
  | wait (s : State)
  | err (loc : Word)

/-- A write of bytes by a command checked (17 R355, R356). -/
def cmdCheck (c cq : Nat) (m : Cmd) (ga : Word) (data : List Byte) (s : State) : CChk :=
  match cmdReach c cq m .store data.length ga s with
  | .ok t key cls pa =>
    if storeLost key data.length t then .err (match readError key data.length t with
      | some e => engineLoc e.1 pa e.2
      | none => w64 pa)
    else .ok { key := key, cls := cls, pa := pa, data := data } t
  | .fault t code detail addr => .fault t code detail addr
  | .wait t => .wait t
  | .merr _ loc => .err loc

/-- A write of a command performed: no L1 keeps an old copy of its line (11 R254). -/
def cmdWrite (pid : Nat) (w : CWrite) (s : State) : State :=
  let s1 := match w.cls, partOf pid s with
    | .l1, some p => homeUse p.rcd w.pa none true s
    | _, _ => s
  land w.key w.data 0 s1

/-- Checked writes performed in order (17 R356). -/
def cmdWrites (pid : Nat) (l : List CWrite) (s : State) : State := l.foldl (fun s w => cmdWrite pid w s) s

/-! ## Chunks (15 R328; 17 R356, R357) -/

/-- What one chunk of a command comes to. -/
inductive Chunk where
  /-- Performed; the command goes on from its new working fields. -/
  | go (s : State) (m : Cmd)
  /-- Performed; the command ends with a status. -/
  | ends (s : State) (m : Cmd) (st : Nat)
  /-- It ends with a status and an address. -/
  | at_ (s : State) (m : Cmd) (st : Nat) (addr : Word)
  /-- MEM_FAULT. -/
  | fault (s : State) (code detail : Nat) (addr : Word)
  /-- ENGINE_ERROR at a location. -/
  | err (loc : Word)
  /-- BAD_FIELD with nothing done. -/
  | bad
  /-- It waits. -/
  | wait (s : State)
  /-- It ends, and its completion carries more than a status. -/
  | with_ (s : State) (m : Cmd) (x : Completion)

/-- Units charged to the launch of a command, in a class (15 R328; 09 R211). -/
def chargeCmd (k n : Nat) (m : Cmd) (s : State) : State :=
  if m.f ∨ m.bov = 0xF0 then s else modLaunch m.pid m.lid (Launch.charge k n) s

/-- The machine error ENGINE_DATA of a command, which MELOC of its core locates (19 R374; 25 R466). -/
def engineData (c : Nat) (m : Cmd) (loc : Word) (s : State) : State :=
  writeFault m.pid { kind := 3, code := 0x86, detail := 0, tsid := m.tid, lid := m.lid, addr := loc, coord := coordOf c,
                     pc := (cmdTs c m s).pc.toNat } (modCore c (fun k => { k with meloc := loc }) s)

/-- A fault of a command that is the firewall's refusal is counted (20 R391). -/
def countCmdRefused (c : Nat) (m : Cmd) (code detail : Nat) (addr : Word) (s : State) : State :=
  if fwRefused code detail addr (cmdView c m s) then countFwDrop m.pid s else s

/-- The outcome of one chunk of a command applied. -/
def chunkDone (c cq : Nat) (m : Cmd) (s : State) (r : Chunk) : State :=
  match r with
  | .go t x => relock c m (modCmd c cq m.seq (fun _ => { x with started := true, ticket := none }) t)
  | .ends t x st => endCmd c cq x (x.completion st x.units) t
  | .at_ t x st addr => endCmd c cq x { x.completion st x.units with faddr := addr } t
  | .fault t code detail addr =>
    endCmd c cq m { m.completion 0x20 m.units with faddr := addr, fcode := code, fdetail := detail }
      (countCmdRefused c m code detail addr t)
  | .err loc => endCmd c cq m (m.completion 0x30 m.units) (engineData c m loc s)
  | .bad => endCmd c cq m (m.completion 0x12 0) s
  | .wait t => t
  | .with_ t x y => endCmd c cq x y t

/-- A command's engine does not take its next chunk now (15 R313; 16 R331; 19 R383; 20 R398). -/
def engineHolds (c cq : Nat) (m : Cmd) (s : State) : Bool :=
  match queueClass cq with
  | 0 => away c m s || !sliceTakes c cq s
  | 1 => m.started && (xferPaused c m s || !hasEngine c m s)
  | _ => false

/-- The slice of a core has given a chunk its turn: an accepted operation comes next (16 R331). -/
def sliceUsed (c cq : Nat) (s : State) : State := if cq = 0 then modCore c (fun k => { k with sliceTurn := false }) s else s

/-- A command of an opcode runs its next chunk (15 R314, R317; 17 R356): `start` makes the operand checks and sets the working
fields of one that starts, and `chunk` performs a chunk. -/
def runCmd (opc c cq n : Nat) (start chunk : Nat → Nat → Cmd → State → Chunk) (s : State) : State :=
  match cmdAt c cq n s with
  | none => s
  | some (before, m) =>
    if m.opc ≠ opc ∨ m.fin.isSome ∨ engineHolds c cq m s = true ∨ clocked s c = false then s
    else if m.started then sliceUsed c cq (chunkDone c cq m s (chunk c cq m s))
    else if startable c cq before m s then
      match m.startFails with
      | some st => endCmd c cq m (m.completion st 0) s
      | none => sliceUsed c cq (chunkDone c cq m s (start c cq m s))
    else s

end Sys2Proof.Machine
end

