-- ==== Sys2Proof/Machine/Frames.lean ====
section
/-! DEFINITION. Save frames (19 R381, R382; 20 R404): thread-set records, accumulators and local-memory images. -/
namespace Sys2Proof.Machine

/-- The state field of PCST (19 R382). -/
def runCode (r : Run) : Nat :=
  match r with
  | .ready => 0 | .stalled => 1 | .waiting => 2 | .idle => 3 | .ended => 4 | .halted => 4

/-- The state that a PCST field gives. -/
def runOf (n : Nat) : Run :=
  match n with
  | 0 => .ready | 1 => .stalled | 2 => .waiting | 3 => .idle | _ => .ended

/-- The eight control registers of the CTL item (19 R382). -/
def ctlItems (t : ThreadSet) : List Nat :=
  [t.status.toNat, t.epc.toNat, t.ecause.toNat, t.eval.toNat, t.uxepc.toNat, t.tvec.toNat, t.uxvec.toNat, t.srctr.toNat]

/-- 8-byte words, one after the other. -/
def words8 (l : List Nat) : List Byte := (l.map fun x => leBytes 8 x).flatten

/-- A register is written to its record: its LIVE bit is set, or every register is written (19 R382, 20 R404). -/
def recorded (all : Bool) (t : ThreadSet) (n : Nat) : Bool := all || t.live.getLsbD n

/-- The items of a thread-set record, as offsets with their bytes (19 R382); `all` writes every s and v register. -/
def recordItems (all : Bool) (t : ThreadSet) : List (Nat × List Byte) :=
  let pcst := (0, leBytes 8 (t.pc.toNat + runCode t.run * 2 ^ 61))
  if t.run = .ended ∧ all = false then [pcst]
  else
    [pcst, (8, words8 (ctlItems t)), (72, leBytes 8 t.live.toNat),
     (80, words8 (genList 8 fun k => (vecGet t.slots k).pos * 2 ^ 16 + (vecGet t.slots k).word.toNat % 2 ^ 13)),
     (144, genList 248 fun _ => 0), (392, words8 (genList 7 fun n => (vecGet t.q (n + 1)).toNat)),
     (696, words8 (genList 8 fun n => (vecGet t.shS n).toNat)), (760, leBytes 8 t.shQ7.toNat)] ++
    (((List.range 31).map fun n => n + 1).filter (recorded all t)).map (fun n => (448 + 8 * (n - 1), leBytes 8 (vecGet t.s n).toNat)) ++
    ((List.range 32).filter fun n => recorded all t (32 + n)).map fun n => (768 + 64 * n, leBytes 64 (vecGet t.v n).toNat)

/-- The bytes that a thread set's record writes (19 R382). -/
def savedBytes (t : ThreadSet) : Nat :=
  if t.run = .ended then 8
  else 520 + 8 * ((List.range 32).filter fun n => t.live.getLsbD n).length +
    64 * ((List.range 32).filter fun n => t.live.getLsbD (32 + n)).length

/-- C_save of a core (19 R382). -/
def saveBytes (k : Core) : Nat :=
  sumList ((k.tsets.toList.take 4).map savedBytes) + (if k.mctx.getLsbD 63 then 16384 else 0)

/-- Items written from a key on. -/
def writeItems (key : Nat) (l : List (Nat × List Byte)) (s : State) : State := l.foldl (fun s x => land (key + x.1) x.2 0 s) s

/-- A stream slot after its buffer is dropped: its state is kept, and elements are fetched again (06 R164, 19 R385). -/
def Slot.refetch (k : Slot) (pos : Nat) : Slot := if k.st = .free then k else { k with pos := pos, buf := [] }

/-- A thread set read back from its record, over what the frame keeps elsewhere (19 R382, R385). -/
def readRecord (all : Bool) (key : Nat) (m : List Host.Cell) (t : ThreadSet) : ThreadSet :=
  let w (off : Nat) : Nat := memValue m 8 (key + off)
  let run := runOf (bitsOf (w 0) 61 3)
  let pc : PcWord := BitVec.ofNat 20 (w 0 / 4 * 4)
  if run = .ended ∧ all = false then { t with pc := pc, run := .ended }
  else
    let live := w64 (w 72)
    { t with
      pc := pc, run := run, status := w64 (w 8), epc := w64 (w 16), ecause := w64 (w 24), eval := w64 (w 32),
      uxepc := w64 (w 40), tvec := w64 (w 48), uxvec := w64 (w 56), srctr := BitVec.ofNat 48 (w 64), live := live
      slots := vecGen 8 fun k => (vecGet t.slots k).refetch (w (80 + 8 * k) / 2 ^ 16)
      q := vecGen 8 fun n => if n = 0 then 0 else w64 (w (392 + 8 * (n - 1)))
      s := vecGen 32 fun n => if n ≠ 0 ∧ (all = true ∨ live.getLsbD n = true) then w64 (w (448 + 8 * (n - 1))) else 0
      shS := vecGen 8 fun n => w64 (w (696 + 8 * n))
      shQ7 := w64 (w 760)
      v := vecGen 32 fun n =>
        if all = true ∨ live.getLsbD (32 + n) = true then BitVec.ofNat 512 (memValue m 64 (key + 768 + 64 * n)) else 0
      fbuf := [] }

/-- The raw words of an accumulator (16 R337). -/
def accBytes (a : Vector W32 1024) : List Byte := (a.toList.map fun w => leBytes 4 w.toNat).flatten

/-- An accumulator read back. -/
def accRead (key : Nat) (m : List Host.Cell) : Vector W32 1024 := vecGen 1024 fun i => BitVec.ofNat 32 (memValue m 4 (key + 4 * i))

/-- A poisoned line lies among the `n` bytes at a key. -/
def frameBad (key n : Nat) (s : State) : Option Nat :=
  (s.poison.find? fun l => decide (l * 64 < key + n) && decide (key < l * 64 + 64)).map fun l => Nat.max (l * 64) key - key

/-- The `n` bytes at a key copied to another, with the marks of uncorrectable words carried over as poison (11 R258). -/
def copyImage (src dst n : Nat) (s : State) : State :=
  let bad := s.bad.filter fun w => decide (src ≤ w * 8) && decide (w * 8 < src + n)
  { s with
    mem := memCopy src dst n s.mem
    bad := s.bad.filter fun w => !(decide (dst ≤ w * 8) && decide (w * 8 + 8 ≤ dst + n))
    poison := (bad.map fun w => (dst + (w * 8 - src)) / 64) ++
      s.poison.filter fun l => !(decide (dst ≤ l * 64) && decide (l * 64 + 64 ≤ dst + n)) }

end Sys2Proof.Machine
end

