-- ==== Sys2Proof/Machine/Overlay.lean ====
section
/-! DEFINITION. The landing of a code overlay (13 R287). -/
namespace Sys2Proof.Machine

/-- What the reads of an overlay copy or of an image come to. -/
inductive SegRead where
  | bytes (x : List Byte) (s : State)
  | err (loc : Word) (s : State)
  | fault (code detail va : Nat)
  | host (lvl va : Nat)

/-- The `n` bytes of a partition's virtual memory from `va` on, read for code (13 R287), in pieces that end with the pages of 8 KiB,
or in shared memory with the lines, each of which lies in a home slice of its own (11 R251); `fuel` counts the pieces. -/
def readCode (pid : Nat) : Nat → Nat → Nat → List Byte → State → SegRead
  | 0, _, _, done, s => .bytes done s
  | fuel + 1, va, n, done, s =>
    if n = 0 then .bytes done s
    else
      match placeVa pid va .code .either s with
      | .ok t key _ pa =>
        let k := Nat.min n (if isSharedPa pa then 64 - va % 64 else 8192 - va % 8192)
        (match readError key k t with
         | some _ => .err (w64 pa) t
         | none => readCode pid fuel (va + k) (n - k) (done ++ memRead t.mem k key) (correct key k t))
      | .merr _ loc => .err loc s
      | .fault _ code detail => .fault code detail va
      | .host _ lvl => .host lvl va

/-- A landing of segment `seg` leaves the list of core `c`. -/
def dropLanding (c seg : Nat) (s : State) : State :=
  modCore c (fun k => { k with landing := k.landing.filter fun l => l.seg != seg }) s

/-- The segment's bytes land, the rest of its pages is written zero, and every page becomes RESIDENT, all in one step, so that no
mixture of old and new words is executed (13 R287; log entry 65). -/
def landSegment (c : Nat) (l : Landing) (x : List Byte) (s : State) : State :=
  let ps := overlayPages l.lmoff l.size
  let s1 := land (lmKey c l.lmoff) (x ++ genList (ps.length * 4096 - l.size) fun _ => 0) 0 s
  dropLanding c l.seg
    (modCore c (fun k => { k with tags := ps.foldl (fun ts p => insertKey p (.resident, l.seg) ts) k.tags }) s1)

/-- The machine error of an overlay copy: the pages stay LANDING (13 R287). -/
def landingError (c : Nat) (l : Landing) (loc : Word) (s : State) : State :=
  dropLanding c l.seg (writeFault l.pid { kind := 3, code := 0x86, detail := 0, tsid := 0, lid := l.lid, addr := loc,
                                          coord := coordOf c, pc := 0 } s)

/-- SEGMENT_LANDED (13 R287): the copy of segment `seg` into core `core` ends, while the core is held by the launch. -/
def execSegmentLanded (core seg : Nat) (s : State) : Host.Outcome State Fault Refusal :=
  .next (match (getCore core s).landing.find? fun l => l.seg == seg with
    | none => s
    | some l =>
      if (getCore core s).owner = some (l.pid, l.lid) ∧ clocked s core = true then
        (match readCode l.pid (l.size / 64 + 2) l.va l.size [] s with
         | .bytes x t => landSegment core l x t
         | .err loc t => landingError core l loc t
         | .fault _ _ _ | .host _ _ => s)
      else s)

end Sys2Proof.Machine
end

