-- ==== Sys2Proof/Machine/Penumbra.lean ====
section
/-! DEFINITION. Penumbra contexts (20 R394 to R406): placement, eviction to a frame, reclaim, re-placement, and the launch
values of thread sets and banks (01 R17, R35). -/
namespace Sys2Proof.Machine

/-! ## Launch values (01 R17 to R21, R35; 11 R237; 20 R395) -/

/-- PRIV of a thread set of a launch (11 R237). -/
def privOf (p : PartRec) (l : Launch) (rank tid : Nat) : Word :=
  w64 ((p.privwin + ((l.slot * 2048 + rank) * 8 + tid) * 2 ^ p.plg) % 2 ^ 53 + p.plg % 64 * 2 ^ 58)

/-- A thread set as the launch engine leaves it before release: every register zero but the launch values (01 R35). -/
def launchTs (p : PartRec) (l : Launch) (c rank tid : Nat) : ThreadSet :=
  { ThreadSet.reset tid with
    pc := BitVec.ofNat 20 (l.entry / 4 * 4), tvec := w64 l.tvec, uxvec := w64 l.uxvec
    budget := vecGen 4 fun k => w64 (l.remaining k)
    rankid := w64 rank, coord := w64 (coordOf c), launchid := w64 l.lid, rect := rectOf l.lgh l.lgw l.row0 l.col0,
    deadline := w64 l.deadline, srseed := w64 l.seed, partid := w64 l.pid, prio := w64 l.prio, priv := privOf p l rank tid }

/-! ## Banks and windows (20 R395) -/

/-- The launch that holds a core, released and not a penumbra launch. -/
def hostOf (c : Nat) (s : State) : Option Launch :=
  match (getCore c s).owner with
  | none => none
  | some o => (launchOf o.1 o.2 s).filter fun l => l.st == .running && !l.pen && l.kill.isNone

/-- The ranges of a core's local memory that a code segment is landing in, or that accepted matrix operations and arrivals at the gang
barrier of its quad are to read (13 R287; 16 R336, R345). -/
def claimedRanges (c : Nat) (s : State) : List (Nat × Nat) :=
  let wins (k : Core) : List Window := (k.matq.map fun o => o.wins).flatten ++ ((k.gang.map fun g => g.wins).getD [])
  ((getCore c s).landing.map fun l => (l.lmoff, ceilDiv l.size 4096 * 4096)) ++
    ((((List.range 4).map fun m => wins (getCore (quadCore c m) s)).flatten).filter fun w => w.core == c).map fun w => (w.lo, w.hi - w.lo)

/-- The `w` bytes at an offset of a core's local memory may be lent: no placed window, no pinned range, no landing segment and no
accepted matrix operand meets them, and no retired operation is still to be performed there (08 R185; 20 R393, R395, R400). -/
def rangeFree (c w : Nat) (s : State) (base : Nat) : Bool :=
  let k := getCore c s
  (k.lent.all fun x => !rangesMeet base w x.base x.size) &&
    ((k.tsets.toList.take 4).all fun t => t.pins.all fun p => !rangesMeet base w p.1 p.2) &&
    ((claimedRanges c s).all fun x => !rangesMeet base w x.1 x.2) && s.pend.all fun p => !p.overlaps (lmKey c base) w

/-- The highest range at or above a mark that `ok` takes; `fuel` counts the 4 KiB steps down (20 R395). -/
def freeRange (ok : Nat → Bool) (mark : Nat) : Nat → Nat → Option Nat
  | 0, _ => none
  | fuel + 1, base =>
    if base < mark then none
    else if ok base then some base
    else if base < 4096 then none else freeRange ok mark fuel (base - 4096)

/-- The bank and window base that a context of a partition gets on a core, if it meets conditions 1 to 3 of R395. -/
def bankFor (pid w c : Nat) (s : State) : Option (Nat × Nat) :=
  match hostOf c s with
  | none => none
  | some h =>
    let k := getCore c s
    let okHost := match partOf h.pid s with
      | some p => bitOf p.rcd.penhost pid
      | none => false
    let used (b : Nat) : Bool := k.lent.any fun x => x.bank == b
    let bank := if used 4 = false then some 4 else if used 5 = false then some 5 else none
    if okHost = false ∨ k.pre ≠ .none ∨ 0xFC000 < k.lmhwm.toNat + w + sumList (k.lent.map fun x => x.size) then none
    else
      match bank, freeRange (rangeFree c w s) k.lmhwm.toNat 256 (0xFC000 - w) with
      | some b, some base => some (b, base)
      | _, _ => none

/-- The window size of a penumbra launch (20 R389). -/
def penWindow (p : PartRec) (l : Launch) : Nat := (windowOf p l.q).getD 0

/-- A bank and window given to a context: every page of the window is written zero (20 R393, R395). -/
def seatBank (pid c b base w : Nat) (t : ThreadSet) (s : State) : State :=
  let s1 := zeroBytes (lmKey c base) w s
  modTs c b (fun _ => { t with wbase := base, wsize := w, plen := w64 w, run := .ready })
    (modCore c (fun k => { k with
      lastCmd := k.lastCmd.filter fun x => x.1 % 8 != b
      lent := k.lent ++ [{ bank := b, base := base, size := w, reclaim := false }]
      fwctl := fwctlBank b pid k.fwctl
      inbox := vecSet k.inbox b []
      bankTrg := vecSet k.bankTrg (b - 4) (vecGen 8 fun _ => 0)
      queues := vecSet (vecSet k.queues (bankQueue b 0) []) (bankQueue b 1) [] }) s1)

/-! ## Placement (20 R395) -/

/-- The bytes of a launch's image and constant bank, read for the multicast (08 R178, R179). -/
def readImage (l : Launch) (s : State) : SegRead :=
  readCode l.pid ((l.imgBytes + 4 * l.kwords) / 64 + 2) (l.image + 64) (l.imgBytes + 4 * l.kwords) [] s

/-- A launch's image and constants written into a window. -/
def windowImage (l : Launch) (c base w : Nat) (x : List Byte) (s : State) : State :=
  land (lmKey c (base + w - 4096)) (x.drop l.imgBytes) 0 (land (lmKey c (base + l.lmbase)) (x.take l.imgBytes) 0 s)

/-- A launch is startable: every launch with an edge to it has completed (09 R216). -/
def startableLaunch (l : Launch) (s : State) : Bool :=
  l.st == .admitted && l.kill.isNone && l.preds.all fun x => !(s.launches.any fun k => k.pid == l.pid && k.lid == x)

/-- The position of a penumbra launch on which every core meets R395, the lowest row first, then the lowest column. -/
def penPosition (l : Launch) (s : State) : Option (Nat × Nat) :=
  match partOf l.pid s with
  | none => none
  | some p =>
    if p.freeFrames.length < 2 ^ (l.lgw + l.lgh) then none
    else (positionsIn (dispatchCores l.pid true s) l.lgh l.lgw).find? fun x =>
      (rectCores x.1 x.2 l.lgh l.lgw).all fun c => (bankFor l.pid (penWindow p.rcd l) c s).isSome

/-- Penumbra launches in the order in which placement tries them: by priority, then by admission (20 R395). -/
def penBefore (ls : List Launch) (l : Launch) : List Launch :=
  let before := ls.takeWhile fun x => !(x.pid == l.pid && x.lid == l.lid)
  (ls.filter fun x => x.pen && decide (l.prio < x.prio)) ++ before.filter fun x => x.pen && x.prio == l.prio

/-- One context placed on a core with the image in its window (20 R395). -/
def placeCtx (p : PartRec) (l : Launch) (x : List Byte) (s : State) (rc : Nat × Nat) : State :=
  let w := penWindow p l
  match bankFor l.pid w rc.2 s, partOf l.pid s with
  | some bb, some q =>
    let f := q.freeFrames.headD 0
    let s1 := modTs rc.2 bb.1 (fun t => { t with fbuf := [] })
      (windowImage l rc.2 bb.2 w x (seatBank l.pid rc.2 bb.1 bb.2 w (launchTs p l rc.2 rc.1 bb.1) s))
    modPart l.pid (fun y => { y with freeFrames := y.freeFrames.drop 1 })
      (modLaunch l.pid l.lid (fun y => { y with
        ctxs := modWhere (fun z => z.rank == rc.1) (fun z => { z with st := .issuing, core := rc.2, bank := bb.1, frame := f }) y.ctxs })
        s1)
  | _, _ => s

/-- The end of a launch whose image multicast faults (09 R213). -/
def imageFault (l : Launch) (s : State) : State :=
  let m := { l with code := 6, outcome := 1, st := .completed, ctxs := [], held := [] }
  writeRecord m (modLaunch l.pid l.lid (fun _ => m)
    { s with tickets := s.tickets.filter fun t => t.party != .launch l.pid l.lid })

/-- A host-backed fault of an image multicast is forwarded (11 R247, 19 R372); on denial the launch ends (09 R213). -/
def imageHost (l : Launch) (va lvl : Nat) (s : State) : State :=
  match recordTicket l s with
  | some t =>
    (match t.denied with
     | some true => imageFault l s
     | _ => s)
  | none => newTicket { num := 0, pid := l.pid, lid := l.lid, va := va, kind := 3, lvl := lvl, party := .launch l.pid l.lid,
                        denied := none } s

/-- PENUMBRA_PLACEMENT (20 R395): the contexts of a launch are placed and released together. -/
def execPenumbraPlacement (pid lid : Nat) (s : State) : Host.Outcome State Fault Refusal :=
  .next (match launchOf pid lid s, partOf pid s with
    | some l, some p =>
      if l.pen = false ∨ startableLaunch l s = false ∨
          (penBefore s.launches l).any (fun x => startableLaunch x s && (penPosition x s).isSome) = true then s
      else
        match penPosition l s with
        | none => s
        | some pos =>
          match readImage l s with
          | .bytes x t =>
            let m := { l with row0 := pos.1, col0 := pos.2, st := .running, tstart := t.time }
            let cs := rectCores pos.1 pos.2 l.lgh l.lgw
            ((List.range cs.length).zip cs).foldl (placeCtx p.rcd m x) (modLaunch pid lid (fun _ => m) t)
          | .err _ t => imageFault l t
          | .fault _ _ _ => imageFault l s
          | .host lvl va => imageHost l va lvl s
    | _, _ => s)

/-! ## Eviction (20 R404) -/

/-- A retired operation is performed now. -/
def performOne (p : Pend) (s : State) : State :=
  let q := p.placed s
  match q.op with
  | .store bs => performStore q bs s
  | .amo op w x c auto => performAmo q op w x c auto s
  | .recl b => performRecl q b s

/-- The retired operations of a bank are performed, in program order, before its context leaves it (12 R261, R266, R277;
19 R380; 20 R403). -/
def flushBank (c b : Nat) (s : State) : State :=
  let mine (p : Pend) : Bool := p.core == c && p.tid == b
  (s.pend.filter mine).foldl (fun s p => performOne p s) { s with pend := s.pend.filter fun p => !mine p }

/-- A command of an evicted context stops with CANCELLED (15 R321, 20 R404). -/
def cancelCmd (c cq : Nat) (s : State) (m : Cmd) : State :=
  if m.fin.isSome then s else endCmd c cq m (m.completion 3 m.units) s

/-- The commands of a queue carried through as much of R319 as they can be. -/
def settleQueue (c cq : Nat) (s : State) : State :=
  (vecGet (getCore c s).queues cq).foldl (fun s m =>
    match (vecGet (getCore c s).queues cq).find? fun y => y.seq == m.seq with
    | some y =>
      (match y.fin with
       | some x => completeCmd c cq y x s
       | none => s)
    | none => s) s

/-- The commands of a bank cancelled and completed as far as its inbox has room. -/
def cancelBank (c b : Nat) (s : State) : State :=
  let q0 := bankQueue b 0
  let q1 := bankQueue b 1
  let s1 := (vecGet (getCore c s).queues q0).foldl (cancelCmd c q0) s
  let s2 := (vecGet (getCore c s1).queues q1).foldl (cancelCmd c q1) s1
  settleQueue c q1 (settleQueue c q0 (settleQueue c q1 (settleQueue c q0 s2)))

/-- The commands that a bank's queues still hold, with their class queue. -/
def bankCmds (c b : Nat) (s : State) : List (Nat × Cmd) :=
  let k := getCore c s
  (vecGet k.queues (bankQueue b 0)).map (fun m => (0, m)) ++ (vecGet k.queues (bankQueue b 1)).map fun m => (1, m)

/-- The context that a bank holds, with its launch. -/
def ctxAt (c b : Nat) (s : State) : Option (Launch × PenCtx) :=
  let t := getTs c b s
  match launchOf (bitsOf t.partid.toNat 0 4) (bitsOf t.launchid.toNat 0 32) s with
  | none => none
  | some l => (l.ctxs.find? fun x => x.st == .issuing && x.core == c && x.bank == b).map fun x => (l, x)

/-- The frame of an evicted context (20 R404). -/
def contextFrame (p : PartRec) (f c b : Nat) (w : Lent) (s : State) : State :=
  let k := getCore c s
  let t := getTs c b s
  let l := k.inboxOf b
  let s1 := writeItems (frameKey p f 0) (recordItems true t) s
  let s2 := writeItems (frameKey p f 0xB00)
    [(0, (l.map fun e => e.data).flatten ++ genList (512 - 32 * l.length) fun _ => 0),
     (0x200, ((vecGet k.bankTrg (b - 4)).toList.map fun x => leBytes 4 x.toNat).flatten),
     (0x220, leBytes 4 l.length ++ genList 0x2DC fun _ => 0)] s1
  copyImage (lmKey c w.base) (frameKey p f 0x1000) w.size s2

/-- A context is evicted and parked (20 R402, R404): `why` is 1 for LEND, 2 for a host that leaves. A reclaim that has been
triggered keeps its reason, since the first trigger starts the eviction. -/
def evictCtx (c b why : Nat) (s : State) : State :=
  match ctxAt c b s, (getCore c s).lent.find? fun x => x.bank == b with
  | some (l, x), some w =>
    (match partOf l.pid s with
     | none => s
     | some p =>
       let before := (bankCmds c b s).filter fun m => m.2.fin.isNone
       let s1 := flushBank c b (cancelBank c b (abandonAt c b s))
       let late := bankCmds c b s1
       let s2 := contextFrame p.rcd x.frame c b w s1
       let t := getTs c b s2
       modLaunch l.pid l.lid (fun y => { y with
           ctxs := modWhere (fun z => z.rank == x.rank) (fun z => { z with
             st := .parked, why := if w.reclaim then 1 else why, cancelled := before.length, saved := some { t with ux := [] }, cmds := late }) y.ctxs })
         (clearBank c b s2))
  | _, _ => s

/-- A context whose TASKEND has retired still has commands: it is to retire, and what would evict it waits (20 R404, R406). -/
def ctxRetiring (c b : Nat) (s : State) : Bool :=
  (getTs c b s).run == .ended && (getCore c s).lent.any fun x => x.bank == b

/-- The banks of a core hold a context that is to retire. -/
def coreRetiring (c : Nat) (s : State) : Bool := ctxRetiring c 4 s || ctxRetiring c 5 s

/-- Every context on a core is evicted, its host leaving (20 R402, R404). -/
def evictAll (c why : Nat) (s : State) : State :=
  (((getCore c s).lent.map fun w => w.bank)).foldl (fun s b => evictCtx c b why s) s

/-- RECLAIM_COMPLETE (20 R401): the contexts whose windows are being taken back are evicted with reason LEND; one that is to
retire first lets its commands complete. -/
def execReclaimComplete (core : Nat) (s : State) : Host.Outcome State Fault Refusal :=
  .next ((((getCore core s).lent.filter fun w => w.reclaim && !ctxRetiring core w.bank s).map fun w => w.bank).foldl
    (fun s b => evictCtx core b 1 s) s)

/-! ## Re-placement (20 R405) -/

/-- The inbox entries that a frame gives back: engine completions, as many as its count says. -/
def frameInbox (p : PartRec) (f : Nat) (s : State) : List InboxEntry :=
  genList (Nat.min (memValue s.mem 4 (frameKey p f 0xD20) % 32) 16) fun i =>
    { kind := 3, data := memRead s.mem 32 (frameKey p f (0xB00 + 32 * i)), ux := none }

/-- A parked context read back from its frame into a bank and window (20 R405). -/
def unpark (p : PartRec) (l : Launch) (x : PenCtx) (c b base w : Nat) (s : State) : State :=
  let f := x.frame
  let t0 := readRecord true (frameKey p f 0) s.mem (x.saved.getD (ThreadSet.reset b))
  let t := { t0 with coord := w64 (coordOf c),
                     sched := { code := 0x41, detail := x.why, val := w64 x.cancelled } ::
                       t0.sched.filter fun e => e.code != 0x41 }
  let s1 := seatBank l.pid c b base w t s
  let s2 := modCore c (fun k => { k with
    inbox := vecSet k.inbox b (frameInbox p f s)
    bankTrg := vecSet k.bankTrg (b - 4) (vecGen 8 fun i => BitVec.ofNat 32 (memValue s.mem 4 (frameKey p f (0xD00 + 4 * i))))
    queues := vecSet (vecSet k.queues (bankQueue b 0) ((x.cmds.filter fun y => y.1 == 0).map fun y => { y.2 with tid := b }))
      (bankQueue b 1) ((x.cmds.filter fun y => y.1 == 1).map fun y => { y.2 with tid := b }) }) s1
  modLaunch l.pid l.lid (fun y => { y with
    ctxs := modWhere (fun z => z.rank == x.rank) (fun z => { z with st := .issuing, core := c, bank := b, saved := none, cmds := [] })
      y.ctxs }) (copyImage (frameKey p f 0x1000) (lmKey c base) w s2)

/-- The machine error of a save frame (19 R374): a record of kind 3, eviction with KILLED_FATAL, and MELOC of the core (25 R466). -/
def saveLost (l : Launch) (c off : Nat) (s : State) : State :=
  killLaunch l.pid l.lid 3 (writeFault l.pid { kind := 3, code := 0x87, detail := 0, tsid := 0, lid := l.lid, addr := w64 off,
                                               coord := coordOf c, pc := 0 } (modCore c (fun k => { k with meloc := w64 off }) s))

/-- PENUMBRA_REPLACEMENT (20 R405): the parked context of a rank is placed again, on core `core`. -/
def execPenumbraReplacement (pid lid rank core : Nat) (s : State) : Host.Outcome State Fault Refusal :=
  .next (match launchOf pid lid s, partOf pid s with
    | some l, some p =>
      let w := penWindow p.rcd l
      (match l.ctxs.find? (fun x => x.rank == rank && x.st == .parked), bankFor pid w core s with
       | some x, some bb =>
         if l.kill.isSome ∨ core ≥ 2048 then s
         else
           match frameBad (frameKey p.rcd x.frame 0) (0x1000 + w) s with
           | some off => saveLost l core off s
           | none => unpark p.rcd l x core bb.1 bb.2 w s
       | _, _ => s)
    | _, _ => s)

end Sys2Proof.Machine
end

