-- ==== Sys2Proof/Machine/Launches.lean ====
section
/-! DEFINITION. Launches (08 R176 to R180; 09 R211, R212, R216): dispatch, start, release, overruns, completion and eviction
(19 R387). -/
namespace Sys2Proof.Machine

/-! ## Cores as launches take and leave them -/

/-- A core set, its thread sets included. -/
def setCore (c : Nat) (k : Core) (s : State) : State :=
  if c = s.here then { s with core := k, ts := vecGet k.tsets s.tid } else { s with cores := insertKey c k s.cores }

/-- The commands that slice context 6 has in a queue. -/
def sliceCmds (l : List Cmd) : List Cmd := l.filter fun m => m.tid == 6

/-- What a core keeps when a launch takes it: reserve banks, slice context 6, caches, the firewall register and counters; the rest
is cleared (01 R35; 08 R178, R192; 15 R313; 20 R393). -/
def clearedCore (k : Core) : Core :=
  { Core.reset with
    tsets := vecGen 7 fun t => if t < 4 then ThreadSet.reset t else vecGet k.tsets t
    bank := k.bank, bankTrg := k.bankTrg
    queues := vecGen 8 fun q => if q < 4 then sliceCmds (vecGet k.queues q) else vecGet k.queues q
    lastCmd := k.lastCmd.filter fun x => decide (4 ≤ x.1 % 8)
    inbox := vecGen 7 fun t => if t < 4 then [] else vecGet k.inbox t
    l1 := k.l1, lent := k.lent, fwctl := k.fwctl, meloc := k.meloc, role := k.role,
    corr := k.corr, entropyBad := k.entropyBad, tenant := k.tenant, selfTested := k.selfTested }

/-- A thread set whose launch has left the core: it ends with its registers as they are, and what it waits for, holds or was to take
is dropped (19 R387, 20 R393). -/
def ThreadSet.leave (t : ThreadSet) : ThreadSet :=
  { t with run := .ended, ux := [], sched := [], barl := [], sends := [], locks := 0, pins := [], ticket := none, palHold := [],
           palTaken := none, trgWait := none, enqWord := none }

/-- A core whose launch has left it: its registers, accumulators, contexts and palette stand until the next release clears them
(01 R35, 20 R393), and its queues and what waits in it are dropped (19 R387). -/
def leaveCore (k : Core) : Core :=
  { k with
    tsets := vecGen 7 fun t => if t < 4 then (vecGet k.tsets t).leave else vecGet k.tsets t
    queues := vecGen 8 fun q => if q < 4 then sliceCmds (vecGet k.queues q) else vecGet k.queues q
    inbox := vecGen 7 fun t => if t < 4 then [] else vecGet k.inbox t
    matq := [], gang := none, rings := vecGen 8 fun _ => [], stage := none, joining := none, landing := [], spill := [],
    yielded := none, pre := .none, resumed := false, sliceTurn := false, owner := none }

/-- FWCTL of a core that a launch of a partition holds, or none (20 R390). -/
def fwctlOwner (o : Option Nat) (w : Word) : Word :=
  match o with
  | some pid => setField w 0 5 (16 + pid % 16)
  | none => setField w 0 5 0

/-- A core given back by its launch. -/
def freeCore (c : Nat) (s : State) : State :=
  let k := leaveCore (getCore c s)
  setCore c { k with fwctl := fwctlOwner none k.fwctl } s

/-- The cores of a launch that it holds now. -/
def heldCores (l : Launch) (s : State) : List Nat := l.cores.filter fun c => (getCore c s).owner == some (l.pid, l.lid)

/-! ## The end of a launch (08 R180; 19 R387; 20 R402) -/

/-- Frames returned to the pool of a partition. -/
def freeFrames (pid : Nat) (fs : List Nat) (s : State) : State := modPart pid (fun p => { p with freeFrames := p.freeFrames ++ fs }) s

/-- The frames that pre-emption messages on the way have taken for a launch's cores. -/
def askedFrames (cs : List Nat) (s : State) : List Nat :=
  cs.filterMap fun c => match (getCore c s).pre with
    | .asked f => some f
    | .none => none

/-- A penumbra context ends with its launch: its bank and window are zeroed (20 R402, R406). -/
def dropCtx (s : State) (x : PenCtx) : State :=
  match x.st with
  | .issuing => clearBank x.core x.bank (flushBank x.core x.bank (abandonAt x.core x.bank s))
  | .queued | .parked | .retired => s

/-- The frames that the contexts of a launch hold. -/
def ctxFrames (l : Launch) : List Nat :=
  (l.ctxs.filter fun x => x.st == .issuing || x.st == .parked).map fun x => x.frame

/-- The tickets, waiters and messages of a launch cancelled (19 R387, R388). -/
def cancelTraffic (l : Launch) (s : State) : State :=
  { s with
    tickets := s.tickets.filter fun t => !(t.pid == l.pid && t.lid == l.lid)
    waiters := s.waiters.filter fun w => !(decide (w.tid < 4) && ownedBy l.pid l.lid w.core s)
    msgs := s.msgs.filter fun m => !(m.pid == l.pid && m.lid == l.lid)
    palMsgs := s.palMsgs.filter fun m => !(m.pid == l.pid && m.lid == l.lid) }

/-- A launch was still running at its deadline (09 R212, R215). -/
def Launch.late (l : Launch) (now : Nat) : Bool := l.tstart != 0 && l.deadline != noDeadline && decide (l.deadline < now)

/-- The retired operations of a launch on the local memories that its save frames hold are performed, before the frames are freed
(19 R377, R387). -/
def flushAway (l : Launch) (s : State) : State :=
  let mine (p : Pend) : Bool := p.pid == l.pid && p.lid == l.lid && (lmAway p s).isSome
  (s.pend.filter mine).foldl (fun s p => performOne p s) { s with pend := s.pend.filter fun p => !mine p }

/-- A launch ends with an OUTCOME: its cores, frames and contexts are given up, and its record is written (08 R180, 19 R387). -/
def endLaunch (l : Launch) (outcome : Nat) (s : State) : State :=
  let cs := heldCores l s
  let fs := askedFrames cs s ++ l.held.map (fun h => h.frame) ++ ctxFrames l
  let s1 := cs.foldl (fun s c => freeCore c (evictAll c 2 s)) (l.ctxs.foldl dropCtx (flushAway l (cancelTraffic l s)))
  let m := { l with st := .completed, outcome := outcome, missed := l.missed || l.late s.time, held := [], ctxs := [] }
  writeRecord m (modLaunch l.pid l.lid (fun _ => m) (freeFrames l.pid fs s1))

/-- A context on a core of the launch, or one of its own, is to retire first (20 R404, R406). -/
def endWaits (l : Launch) (s : State) : Bool :=
  ((heldCores l s).any fun c => coreRetiring c s) || l.ctxs.any fun x => x.st == .issuing && ctxRetiring x.core x.bank s

/-- EVICTION (19 R387): a launch that is marked for eviction ends with the OUTCOME of its mark, one that firmware evicts with
the OUTCOME named. -/
def execEviction (pid lid outcome : Nat) (s : State) : Host.Outcome State Fault Refusal :=
  .next (match launchOf pid lid s with
    | none => s
    | some l =>
      if l.st = .completed ∨ (heldCores l s).any (fun c => coreRetiring c s) = true then s
      else
        match l.kill with
        | some o => endLaunch l o s
        | none => if 1 ≤ outcome ∧ outcome ≤ 4 then endLaunch l outcome s else s)

/-- The thread sets 0–3 of a core are ENDED and its launch has no command or record left there (08 R180). -/
def coreDone (k : Core) : Bool :=
  ((k.tsets.toList.take 4).all fun t => t.run == .ended) &&
    ((List.range 4).all fun q => (vecGet k.queues q).all fun m => m.tid == 6) && k.rings.toList.all List.isEmpty

/-- R180 holds for a launch. -/
def launchDone (l : Launch) (s : State) : Bool :=
  l.st == .running && l.kill.isNone && l.palReqs.isEmpty &&
    !(s.msgs.any fun m => m.pid == l.pid && m.lid == l.lid) &&
    (if l.pen then l.ctxs.all fun x => x.st == .retired else l.cores.all fun c => coreDone (ownedCore l.pid l.lid c s)) &&
    !endWaits l s

/-- LAUNCH_COMPLETE (08 R180). -/
def execLaunchComplete (pid lid : Nat) (s : State) : Host.Outcome State Fault Refusal :=
  .next (match launchOf pid lid s with
    | none => s
    | some l => if launchDone l s then endLaunch l 0 s else s)

/-! ## Dispatch (09 R216) -/

/-- The deadline that orders a launch; a demoted launch has none (09 R212, R216). -/
def Launch.due (l : Launch) : Nat := if l.demoted then noDeadline else l.deadline

/-- Launch `a` goes before `b`, which was admitted later (09 R216). -/
def edfFirst (a b : Launch) : Bool :=
  if a.due != b.due then decide (a.due < b.due)
  else if a.prio != b.prio then decide (b.prio < a.prio)
  else a.due == noDeadline || a.q == b.q || decide (a.q < b.q)

/-- A launch put into a list in dispatch order, behind those admitted earlier that are not to follow it. -/
def edfInsert (l : Launch) : List Launch → List Launch
  | [] => [l]
  | x :: xs => if edfFirst x l then x :: edfInsert l xs else l :: x :: xs

/-- Launches, given in the order of their admission, in dispatch order (09 R216). -/
def edfSort (l : List Launch) : List Launch := l.foldl (fun acc x => edfInsert x acc) []

/-- The launches of a partition that wait for cores, in dispatch order: startable ones and pre-empted ones. -/
def waitingLaunches (pid : Nat) (s : State) : List Launch :=
  edfSort (s.launches.filter fun l => l.pid == pid && !l.pen && l.kill.isNone &&
    (startableLaunch l s || (l.st == .running && !l.held.isEmpty)))

/-- A launch whose position has been chosen, or that is being started, takes in a core (09 R216). -/
def reserved (c : Nat) (s : State) : Bool :=
  s.launches.any fun l => l.st == .placed && inRect l.row0 l.col0 l.lgh l.lgw c

/-- A core is free for a launch: nothing holds or reserves it, and no launch that goes before is to resume there. -/
def coreFree (l : Launch) (ahead : List Launch) (c : Nat) (s : State) : Bool :=
  (getCore c s).owner.isNone && !reserved c s &&
    !(ahead.any fun x => !(x.pid == l.pid && x.lid == l.lid) && x.held.any fun h => h.core == c)

/-- The first free aligned position of a launch's shape (09 R216). -/
def freePosition (l : Launch) (ahead : List Launch) (s : State) : Option (Nat × Nat) :=
  (positionsIn (dispatchCores l.pid false s) l.lgh l.lgw).find? fun x =>
    (rectCores x.1 x.2 l.lgh l.lgw).all fun c => coreFree l ahead c s

/-- A core is free, or is held by a running launch with a later deadline or none, for a launch with a deadline (09 R216; log
entry 38). -/
def coreTakeable (l : Launch) (ahead : List Launch) (c : Nat) (s : State) : Bool :=
  coreFree l ahead c s ||
    (!reserved c s && (match (getCore c s).owner with
      | none => false
      | some o =>
        match launchOf o.1 o.2 s with
        | some x => x.st == .running && x.kill.isNone && decide (l.due < x.due)
        | none => false))

/-- The bytes that a position's pre-emption saves (09 R216, 19 R382). -/
def positionCost (l : Launch) (x : Nat × Nat) (s : State) : Nat :=
  sumList ((rectCores x.1 x.2 l.lgh l.lgw).map fun c =>
    let k := getCore c s
    if k.owner.isSome then saveBytes k else 0)

/-- The position with the lowest cost, the first where several have it. -/
def cheapest (l : Launch) (s : State) : List (Nat × Nat) → Option (Nat × Nat)
  | [] => none
  | x :: xs =>
    match cheapest l s xs with
    | none => some x
    | some y => if positionCost l x s ≤ positionCost l y s then some x else some y

/-- The position that a launch takes by pre-emption (09 R216). -/
def takenPosition (l : Launch) (ahead : List Launch) (s : State) : Option (Nat × Nat) :=
  cheapest l s ((positionsIn (dispatchCores l.pid false s) l.lgh l.lgw).filter fun x =>
    (rectCores x.1 x.2 l.lgh l.lgw).all fun c => coreTakeable l ahead c s)

/-- The launch that is placed next, with its position (09 R216): the earliest startable deadline launch on a free position or by
pre-emption, a later one on a free position, then best-effort launches in their order. Launches that wait to resume are no
startable ones. -/
def nextPlacement (s : State) : List Launch → List Launch → Option (Launch × (Nat × Nat))
  | _, [] => none
  | ahead, l :: ls =>
    let here := if l.st = .admitted then freePosition l ahead s else none
    match here with
    | some x => some (l, x)
    | none =>
      if l.due = noDeadline then (if l.st = .admitted then none else nextPlacement s (ahead ++ [l]) ls)
      else
        let taken := if (ahead.all fun x => x.st != .admitted) ∧ l.st = .admitted then takenPosition l ahead s else none
        match taken with
        | some x => some (l, x)
        | none => nextPlacement s (ahead ++ [l]) ls

/-- LAUNCH_DISPATCH (09 R216): the dispatcher chooses the position of one launch of a partition. -/
def execLaunchDispatch (pid : Nat) (s : State) : Host.Outcome State Fault Refusal :=
  .next (match nextPlacement s [] (waitingLaunches pid s) with
    | none => s
    | some (l, x) => modLaunch l.pid l.lid (fun y => { y with st := .placed, row0 := x.1, col0 := x.2 }) s)

/-! ## Start and release (08 R178, R179) -/

/-- No retired operation is still to be performed in the local memory of a core, but for those that go to a save frame (19 R377,
R383). -/
def pendClear (c : Nat) (s : State) : Bool := s.pend.all fun p => !(isLmKey p.key && lmCore p.key == c) || (lmAway p s).isSome

/-- A core can be claimed: no launch holds it, no save is pending on it, and its die's clocks run (08 R178; 25 R473). -/
def claimable (c : Nat) (s : State) : Bool :=
  let k := getCore c s
  k.owner.isNone && k.lent.isEmpty && pendClear c s && clocked s c

/-- The fetch buffers of thread sets 0–3 of a core emptied (01 R27, R35). -/
def emptyFetches (c : Nat) (s : State) : State :=
  [0, 1, 2, 3].foldl (fun s t => modTs c t (fun x => { x with fbuf := [] }) s) s

/-- A core claimed by a launch, with its image, its constants and the state of R35 (08 R178, 01 R35). -/
def claimCore (p : PartRec) (l : Launch) (x : List Byte) (s : State) (rc : Nat × Nat) : State :=
  let k := clearedCore (getCore rc.2 s)
  let k1 := { k with
    tsets := vecGen 7 fun t => if t < 4 then launchTs p l rc.2 rc.1 t else vecGet k.tsets t
    queues := vecGen 8 fun q => if q < 4 then [] else vecGet k.queues q
    pal := vecGen 11 (palRelease l.lgw l.lgh)
    fwctl := fwctlOwner (some l.pid) k.fwctl, owner := some (l.pid, l.lid) }
  let s1 := land (lmKey rc.2 l.lmbase) (x.take l.imgBytes) 0 (setCore rc.2 k1 s)
  emptyFetches rc.2 { s1 with mem := memWrite (constKey rc.2 0) (x.drop l.imgBytes) (memZero (constKey rc.2 0) 4096 s1.mem) }

/-- Ranks with the cores that have them. -/
def ranked (cs : List Nat) : List (Nat × Nat) := (List.range cs.length).zip cs

/-- `n` bytes of a partition's virtual memory that do not cross a page, if they can be read. -/
def peekVa (pid va n : Nat) (s : State) : Option Nat :=
  match placeVa pid va .load .either s with
  | .ok t key _ _ => if (readError key n t).isSome then none else some (memValue t.mem n key)
  | .fault _ _ _ | .host _ _ | .merr _ _ => none

/-- The first page of a launch's overlay directory and mark store whose translation is to be forwarded to the host, with its level
(11 R241, R247; 13 R286; log entry 65). -/
def stagingHost (l : Launch) (s : State) : Option (Nat × Nat) :=
  let n := (peekVa l.pid (overlayDir l + 1024) 4 s).getD 0
  (pageStarts (overlayDir l) 1008 ++ pageStarts (overlayDir l + 1024) (8 + 4 * Nat.min n 1024)).findSome? fun va =>
    match placeVa l.pid va .load .either s with
    | .host _ lvl => some (va, lvl)
    | .ok _ _ _ _ | .fault _ _ _ | .merr _ _ => none

/-- LAUNCH_START (08 R178): a placed launch claims its rectangle, and its image is multicast. -/
def execLaunchStart (pid lid : Nat) (s : State) : Host.Outcome State Fault Refusal :=
  .next (match launchOf pid lid s, partOf pid s with
    | some l, some p =>
      if l.st ≠ .placed ∨ l.kill.isSome ∨ l.cores.all (fun c => claimable c s) = false then s
      else
        match readImage l s with
        | .bytes x t =>
          (match stagingHost l t with
           | some h => imageHost l h.1 h.2 s
           | none => (ranked l.cores).foldl (claimCore p.rcd l x) (modLaunch pid lid (fun y => { y with st := .multicast }) t))
        | .err _ t => imageFault l t
        | .fault code _ _ => imageFault l (if code = 0x21 then countFwDrop pid s else s)
        | .host lvl va => imageHost l va lvl s
    | _, _ => s)

/-- The residency tags at launch: the pages of overlay regions are EMPTY (05 R123, 13 R286); an entry of the directory that cannot be
read, or is not valid, leaves its pages RESIDENT (log entry 65). -/
def launchTags (l : Launch) (s : State) : List (Nat × (PageSt × Nat)) :=
  (List.range 63).foldl (fun ts i =>
    match peekVa l.pid (overlayDir l + 16 * i) 16 s with
    | none => ts
    | some x =>
      let off := bitsOf x 64 32
      let size := bitsOf x 96 32
      if dirEntryOk (x % 2 ^ 64) off size then (overlayPages off size).foldl (fun us p => insertKey p (.empty, 0) us) ts else ts) []

/-- The mark store of a launch's cores, by word index (19 R379); of two entries for one word the later one holds (03 R75; log entry
66). -/
def launchMarks (l : Launch) (s : State) : List (Nat × Nat) :=
  let at_ := overlayDir l + 1024
  match peekVa l.pid at_ 4 s with
  | none => []
  | some n =>
    (List.range (Nat.min n 1024)).foldl (fun ms i =>
      match peekVa l.pid (at_ + 8 + 4 * i) 4 s with
      | none => ms
      | some e => insertKey (bitsOf e 2 18) (e % 4) ms) []

/-- A core released: its thread sets 0–3 become READY at the entry offset (08 R178, R181). -/
def releaseCore (l : Launch) (tags : List (Nat × (PageSt × Nat))) (marks : List (Nat × Nat)) (s : State) (rc : Nat × Nat) : State :=
  let s1 := [0, 1, 2, 3].foldl (fun s t => modTs rc.2 t (fun x => { x with run := .ready, fbuf := [] }) s) s
  modCore rc.2 (fun k => { k with tags := tags, marks := marks, stage := if l.stages = [] then none else some (rc.1 % l.stages.length) }) s1

/-- IMAGE_MULTICAST_DONE (08 R178, R179): the last image byte has landed, and the launch is released. -/
def execImageMulticastDone (pid lid : Nat) (s : State) : Host.Outcome State Fault Refusal :=
  .next (match launchOf pid lid s with
    | none => s
    | some l =>
      if l.st ≠ .multicast then s
      else (ranked l.cores).foldl (releaseCore l (launchTags l s) (launchMarks l s))
        (modLaunch pid lid (fun y => { y with st := .running, tstart := s.time }) s))

/-! ## Overruns (09 R212) -/

/-- A thread set with a task takes an event at its next instruction boundary (09 R212). -/
def pushEvent (e : Cause) (t : ThreadSet) : ThreadSet := if t.run.live then { t with sched := t.sched ++ [e] } else t

/-- The thread sets 0–3 of a core saved in a frame take an event. -/
def pushHeld (e : Cause) (k : Core) : Core :=
  { k with tsets := vecGen 7 fun t => if t < 4 then pushEvent e (vecGet k.tsets t) else vecGet k.tsets t }

/-- Every thread set of a launch that has a task takes an event (09 R212, 20 R399). -/
def pushLaunch (l : Launch) (e : Cause) (s : State) : State :=
  let s1 := (heldCores l s).foldl (fun s c => [0, 1, 2, 3].foldl (fun s t => modTs c t (pushEvent e) s) s) s
  let s2 := (l.ctxs.filter fun x => x.st == .issuing).foldl (fun s x => modTs x.core x.bank (pushEvent e) s) s1
  modLaunch l.pid l.lid (fun y => { y with
    held := y.held.map fun h => { h with saved := pushHeld e h.saved }
    ctxs := y.ctxs.map fun x => { x with saved := x.saved.map (pushEvent e) } }) s2

/-- Class `k` of a launch has reached zero and is still to overrun (09 R211, R212). -/
def overDue (l : Launch) (k : Nat) : Bool :=
  l.st == .running && l.kill.isNone && !l.demoted && !vecGet l.unlimited k && !vecGet l.trapped k && vecGet l.charged k != 0 &&
    decide (vecGet l.declared k ≤ vecGet l.charged k)

/-- BUDGET_OVERRUN (09 R212, 20 R399). -/
def execBudgetOverrun (pid lid : Nat) (k : BitVec 2) (s : State) : Host.Outcome State Fault Refusal :=
  .next (match launchOf pid lid s with
    | none => s
    | some l =>
      let n := k.toNat
      if overDue l n = false then s
      else
        let l1 := { l with overC := l.overC.orElse fun _ => some n }
        let set (x : Launch) (s : State) : State := modLaunch pid lid (fun _ => x) s
        match l.policy with
        | 0 =>
          let g := vecGet l.declared n / 16
          let l2 := { l1 with trapped := vecSet l1.trapped n true, grace := vecSet l1.grace n (some g),
                               graceFrom := vecSet l1.graceFrom n (some (vecGet l1.charged n)), ovTrap := true }
          pushLaunch l2 { code := 0x40, detail := n, val := w64 g } (set l2 s)
        | 1 => set (demote l1) s
        | _ => killLaunch pid lid 2 (set l1 s))

/-- A thread set has yet to take the overrun event of class `k`. -/
def owes (k : Nat) (t : ThreadSet) : Bool := t.run.live && t.sched.any fun e => e.code == 0x40 && e.detail == k

/-- Every thread set of the launch has taken the overrun event of class `k` (09 R212). -/
def overTaken (l : Launch) (k : Nat) (s : State) : Bool :=
  !((heldCores l s).any fun c => (List.range 4).any fun t => owes k (getTs c t s)) &&
    !(l.held.any fun h => (h.saved.tsets.toList.take 4).any (owes k)) &&
    !(l.ctxs.any fun x =>
      match x.st with
      | .issuing => owes k (getTs x.core x.bank s)
      | .parked => (x.saved.map (owes k)).getD false
      | .queued | .retired => false)

/-- The grace of class `k` has run out (09 R212): a grace of 0 runs out at the first charge after every thread set has taken the
event, which for class C is at once. -/
def graceOut (l : Launch) (k g : Nat) (s : State) : Bool :=
  if g = 0 then overTaken l k s && (k == 0 || (match vecGet l.graceFrom k with
    | some n => decide (n < vecGet l.charged k)
    | none => false))
  else decide (vecGet l.declared k + g ≤ vecGet l.charged k)

/-- GRACE_EXPIRY (09 R212). -/
def execGraceExpiry (pid lid : Nat) (k : BitVec 2) (s : State) : Host.Outcome State Fault Refusal :=
  .next (match launchOf pid lid s with
    | none => s
    | some l =>
      let n := k.toNat
      match vecGet l.grace n with
      | none => s
      | some g =>
        if l.st ≠ .running ∨ l.kill.isSome ∨ l.demoted = true then s
        else if graceOut l n g s then killLaunch pid lid 2 (modLaunch pid lid (fun y => { y with graceUsed := true }) s)
        else s)

/-- DEADLINE_MISSED (09 R212). -/
def execDeadlineMissed (pid lid : Nat) (s : State) : Host.Outcome State Fault Refusal :=
  .next (modLaunch pid lid (fun l =>
    if l.st = .running ∧ l.deadline ≠ noDeadline ∧ l.deadline ≤ s.time then { l with missed := true } else l) s)

end Sys2Proof.Machine
end

