-- ==== Sys2Proof/Machine/Stages.lean ====
section
/-! DEFINITION. Stages (08 R181 to R188): dispatch of continuation records, rebalancing, and the end of a staged launch. -/
namespace Sys2Proof.Machine

/-! ## Footprint fetches (08 R184; 19 R388) -/

/-- The state of a footprint fetch: the first fault met, and whether the fetch must wait. -/
structure Fetching where
  st : State
  fault : Option Cause
  merr : Option (Nat × Word)
  wait : Bool
  lines : Nat

/-- The ticket that a dispatch to a thread set holds for an address. -/
def fetchTicket (c t va : Nat) (s : State) : Option Ticket := s.tickets.find? fun k => k.party == .thread c t && k.va == va

/-- A fault of a footprint fetch: the first one in range order stands. -/
def Fetching.fail (f : Fetching) (e : Cause) : Fetching := if f.fault.isSome then f else { f with fault := some e }

/-- One 64-byte line fetched into local memory by a relaxed load (08 R184). -/
def fetchLine (l : Launch) (c t : Nat) (f : Fetching) (x : Nat × Nat) : Fetching :=
  if f.wait || f.merr.isSome then f
  else
    match placeVa l.pid x.1 .load .either f.st with
    | .ok u key _ pa =>
      (match readError key 64 u with
       | some e => { f with merr := some (e.1, if e.1 = 0x81 then e.2 else w64 pa) }
       | none => { f with st := land (lmKey c x.2) (memRead u.mem 64 key) 0 (correct key 64 u), lines := f.lines + 1 })
    | .fault u code detail => { f with st := u }.fail { code := code, detail := detail, val := w64 x.1 }
    | .merr code loc => { f with merr := some (code, loc) }
    | .host u lvl =>
      match fetchTicket c t x.1 u with
      | some k =>
        (match k.denied with
         | some true => { f with st := u }.fail { code := 0x26, detail := k.lvl * 4, val := w64 x.1 }
         | _ => { f with st := u, wait := true })
      | none =>
        { f with
          st := newTicket { num := 0, pid := l.pid, lid := l.lid, va := x.1, kind := 0, lvl := lvl, party := .thread c t,
                            denied := none } u
          wait := true }

/-- The lines of range `j` of a record: virtual address and local-memory offset (08 R182). -/
def rangeLines (x j : Nat) : List (Nat × Nat) :=
  let r := recRange x j
  genList r.2.2 fun i => (r.1 + 64 * i, (r.2.1 + i) * 64)

/-- The lines of a record's ranges, one range after the other. A range ends at its first fault (08 R184). -/
def fetchRanges (l : Launch) (c t x : Nat) (s : State) : Fetching :=
  (List.range (recCount x)).foldl (fun f j =>
    ((rangeLines x j).foldl (fun (a : Fetching × Bool) y =>
      if a.2 then a
      else
        let g := fetchLine l c t a.1 y
        (g, g.lines == a.1.lines)) (f, false)).1) { st := s, fault := none, merr := none, wait := false, lines := 0 }

/-- The ranges that a record pins, as offset and length in bytes (08 R184). -/
def recPins (x : Nat) : List (Nat × Nat) := (List.range (recCount x)).map fun j => ((recRange x j).2.1 * 64, (recRange x j).2.2 * 64)

/-- Some of a record's ranges meet ranges that another thread set of the core has pinned (08 R184). -/
def pinsMeet (t x : Nat) (k : Core) : Bool :=
  (List.range 4).any fun u => u != t && (vecGet k.tsets u).pins.any fun p => (recPins x).any fun r => rangesMeet p.1 p.2 r.1 r.2

/-- The windows of a core that a record's footprint meets (20 R401). -/
def lentMeets (x : Nat) (w : Lent) : Bool := (recPins x).any fun r => rangesMeet r.1 r.2 w.base w.size

/-- A footprint range that reaches above LMHWM takes back the windows it meets (08 R184, 20 R401). -/
def takeBack (c x : Nat) (s : State) : State :=
  modCore c (fun k =>
    if (recPins x).any fun r => decide (k.lmhwm.toNat < r.1 + r.2) then
      { k with lent := k.lent.map fun w => if lentMeets x w then { w with reclaim := true } else w }
    else k) s

/-! ## Dispatch (08 R184) -/

/-- A core whose thread sets 0–3 are all absent has arrived in every phase so far; the arrivals stand when one of them gets a
task (10 R227). -/
def latchArrivals (l : Launch) (c : Nat) (s : State) : State :=
  if (owners (getCore c s)).all absent then
    let shapes := (genList (l.lgw + 1) fun a => genList (l.lgh + 1) fun b => (a, b)).flatten
    let top (a b : Nat) : Nat :=
      (subCores c a b).foldl (fun m x => Nat.max m (lookupD 0 (ownedCore l.pid l.lid x s).arrived (barKey a b))) 0
    modCore c (fun k => { k with arrived := shapes.foldl (fun r x =>
      let key := barKey x.1 x.2
      insertKey key (Nat.max (top x.1 x.2) (lookupD 0 k.phase key + 1)) r) k.arrived }) s
  else s

/-- The registers of a thread set that takes a record (08 R184). -/
def recordTs (entry x : Nat) (t : ThreadSet) : ThreadSet :=
  { t with
    s := (List.range 8).foldl (fun v i => vecSet v (i + 1) (w64 (bitsOf x (64 * i) 64))) t.s
    live := t.live ||| 0x1FE
    status := setBit (setBit t.status 1 false) 3 false
    fbuf := [], sends := [], pc := BitVec.ofNat 20 (entry / 4 * 4), run := .ready, pins := recPins x }

/-- The record at the head of a stage ring of a core removed. -/
def popRing (c stage : Nat) (s : State) : State :=
  modCore c (fun k => { k with rings := vecSet k.rings stage ((vecGet k.rings stage).drop 1) }) s

/-- The machine error of a footprint fetch (19 R374): a record of kind 3 and eviction with KILLED_FATAL. -/
def fetchMerr (l : Launch) (c t : Nat) (e : Nat × Word) (s : State) : State :=
  killLaunch l.pid l.lid 3 (writeFault l.pid { kind := 3, code := e.1, detail := 0, tsid := t, lid := l.lid, addr := e.2,
                                               coord := coordOf c, pc := (getTs c t s).pc.toNat }
    (modCore c (fun k => { k with meloc := e.2 }) s))

/-- A record dispatched to thread set `t` of a core (08 R184). -/
def dispatchRecord (l : Launch) (c t stage x : Nat) (s : State) : State :=
  let f := fetchRanges l c t x s
  match f.merr with
  | some e => fetchMerr l c t e s
  | none =>
    if f.wait then { s with tickets := f.st.tickets, nextTicket := f.st.nextTicket }
    else
      let s1 := popRing c stage (modLaunch l.pid l.lid (Launch.charge 2 f.lines) (latchArrivals l c f.st))
      let s2 := modTs c t (recordTs (nth 0 l.stages stage) x) { s1 with tickets := s1.tickets.filter fun k => k.party != .thread c t }
      match f.fault with
      | none => s2
      | some e => focusOn s2.here s2.tid (takeTrap e.code e.detail e.val false (focusOn c t s2))

/-- RECORD_DISPATCH (08 R184): the oldest record of the core's stage goes to its lowest IDLE thread set. -/
def execRecordDispatch (core : Nat) (s : State) : Host.Outcome State Fault Refusal :=
  .next (
    let k := getCore core s
    match k.owner, k.stage with
    | some o, some stage =>
      (match launchOf o.1 o.2 s, vecGet k.rings stage, (List.range 4).find? (fun t => (vecGet k.tsets t).run == .idle) with
       | some l, r :: _, some t =>
         let x := leValue r.data
         if l.st ≠ .running ∨ l.kill.isSome ∨ k.pre ≠ .none ∨ pinsMeet t x k = true then s
         else
           let s1 := takeBack core x s
           if (getCore core s1).lent.any (lentMeets x) then s1 else dispatchRecord l core t stage x s1
       | _, _, _ => s)
    | _, _ => s)

/-! ## Rebalancing (08 R187, R188) -/

/-- Q_s, A_s and F_s of a stage (08 R187). -/
def stageLoad (l : Launch) (s : State) (stage : Nat) : Nat × Nat × Nat :=
  let cs := stageCores l stage s
  (sumList (cs.map fun c => (vecGet (ownedCore l.pid l.lid c s).rings stage).length), cs.length,
    sumList (l.cores.map fun c => vecGet (ownedCore l.pid l.lid c s).ringFull stage))

/-- P_a < P_b (08 R187). -/
def loadLt (a b : Nat × Nat × Nat) : Bool := decide (a.1 * b.2.1 < b.1 * a.2.1)

/-- P_a + F_a < P_b + F_b (08 R187). -/
def pressureLt (a b : Nat × Nat × Nat) : Bool :=
  decide ((a.1 + a.2.2 * a.2.1) * b.2.1 < (b.1 + b.2.2 * b.2.1) * a.2.1)

/-- The element that a comparison puts before every other, the first where several are equal. -/
def pickBest {α : Type} (better : α → α → Bool) : List α → Option α
  | [] => none
  | x :: xs =>
    match pickBest better xs with
    | none => some x
    | some y => if better y x then some y else some x

/-- The `n` cores with the fewest records in a ring, the lowest rank first where they tie (08 R187). -/
def lightest (l : Launch) (stage : Nat) (s : State) : Nat → List Nat → List Nat
  | 0, _ => []
  | n + 1, cs =>
    let q (c : Nat) : Nat := (vecGet (ownedCore l.pid l.lid c s).rings stage).length
    match pickBest (fun a b => decide (q a < q b)) cs with
    | none => []
    | some c => c :: lightest l stage s n (cs.filter fun x => x != c)

/-- A record placed again among the cores of a stage (08 R188). -/
def replaceRec (l : Launch) (stage : Nat) (s : State) (r : StageRec) : State :=
  match recTarget l stage r.home s with
  | some c => ringPut l stage c r s
  | none => s

/-- A core leaves its stage at once, to join another, and its queued records are placed again (08 R188). -/
def moveCores (l : Launch) (donor receiver : Nat) (cs : List Nat) (s : State) : State :=
  let recs := (cs.map fun c => vecGet (ownedCore l.pid l.lid c s).rings donor).flatten
  let s1 := cs.foldl (fun s c => modOwned l.pid l.lid c (fun k => { k with
    stage := none, joining := some receiver, rings := vecSet k.rings donor [] }) s) s
  recs.foldl (replaceRec l donor) s1

/-- The move of one period, if R187 makes one. -/
def rebalance (l : Launch) (s : State) : State :=
  let n := l.stages.length
  let load (i : Nat) : Nat × Nat × Nat := stageLoad l s i
  let donors := (List.range n).filter fun i => decide (2 ≤ (load i).2.1)
  match pickBest (fun a b => loadLt (load a) (load b)) donors, pickBest (fun a b => pressureLt (load b) (load a)) (List.range n) with
  | some d, some r =>
    let x := load r
    let y := load d
    if d ≠ r ∧ 2 * y.1 * x.2.1 + x.2.1 * y.2.1 ≤ x.1 * y.2.1 + x.2.2 * x.2.1 * y.2.1 then
      moveCores l d r (lightest l d s (ceilDiv y.2.1 4) (stageCores l d s)) s
    else s
  | _, _ => s

/-- STAGE_REBALANCE (08 R187, R188): the counts of full rings begin again with the next period. -/
def execStageRebalance (pid lid : Nat) (s : State) : Host.Outcome State Fault Refusal :=
  .next (match launchOf pid lid s with
    | none => s
    | some l =>
      if l.st ≠ .running ∨ l.stages.length < 2 then s
      else l.cores.foldl (fun s c => modOwned pid lid c (fun k => { k with ringFull := vecGen 8 fun _ => 0 }) s) (rebalance l s))

/-- STAGE_JOIN (08 R188): a moving core joins its new stage once every one of its thread sets is IDLE. -/
def execStageJoin (core : Nat) (s : State) : Host.Outcome State Fault Refusal :=
  .next (
    let k := getCore core s
    match k.joining with
    | none => s
    | some r =>
      if (owners k).all fun t => t.run == .idle then modCore core (fun x => { x with stage := some r, joining := none }) s else s)

/-! ## The end of a staged launch (08 R186) -/

/-- Every thread set of a core of a launch is IDLE, and its stage queues are empty. -/
def coreIdle (k : Core) : Bool := ((owners k).all fun t => t.run == .idle) && k.rings.toList.all List.isEmpty

/-- Thread sets 0–3 of a core of a launch end; in a frame the saved state does (08 R186, 19 R382). -/
def endThreads (l : Launch) (p : PartRec) (s : State) (c : Nat) : State :=
  if (getCore c s).owner = some (l.pid, l.lid) then
    [0, 1, 2, 3].foldl (fun s t => modTs c t (fun x => { x with run := .ended }) s) s
  else
    let s1 := modOwned l.pid l.lid c (fun k => { k with
      tsets := vecGen 7 fun t => if t < 4 then { vecGet k.tsets t with run := .ended } else vecGet k.tsets t }) s
    match l.held.find? fun h => h.core == c with
    | none => s1
    | some h => [0, 1, 2, 3].foldl (fun s t =>
        land (frameKey p h.frame (0xB00 * t)) (leBytes 8 ((vecGet h.saved.tsets t).pc.toNat + 4 * 2 ^ 61)) 0 s) s1

/-- STAGED_LAUNCH_END (08 R186). -/
def execStagedLaunchEnd (pid lid : Nat) (s : State) : Host.Outcome State Fault Refusal :=
  .next (match launchOf pid lid s, partOf pid s with
    | some l, some p =>
      if l.st ≠ .running ∨ l.stages = [] ∨ l.cores.all (fun c => coreIdle (ownedCore pid lid c s)) = false then s
      else l.cores.foldl (endThreads l p.rcd) s
    | _, _ => s)

end Sys2Proof.Machine
end

