-- ==== Sys2Proof/Machine/Host.lean ====
section
/-! DEFINITION. The companion processor and its driver: answers to forwarded faults (19 R388), invalidations (20 R392),
partitions (20 R389, R393) and coherent accesses (22 R419). -/
namespace Sys2Proof.Machine

/-! ## Forwarded faults (19 R388) -/

/-- HOST_FAULT_ANSWER (19 R388): a resolved fault is met afresh by its party; a denied one is marked. A completion record that
waits is written or dropped at once. -/
def execHostFaultAnswer (ticket : Nat) (granted : Bool) (s : State) : Host.Outcome State Fault Refusal :=
  .next (match s.tickets.find? fun t => t.num == ticket && t.denied.isNone with
    | none => s
    | some t =>
      if s.gwerid ≠ .up then s
      else
        let ts := if granted then s.tickets.filter fun x => x.num != ticket
          else modWhere (fun x => x.num == ticket) (fun x => { x with denied := some true }) s.tickets
        let u := { s with tickets := ts }
        match t.party with
        | .launch pid lid =>
          (match launchOf pid lid u with
           | some l => if l.st = .completed then writeRecord l u else u
           | none => u)
        | .thread _ _ | .command _ _ _ | .queue _ _ | .port _ _ => u)

/-! ## Invalidation (11 R244, 20 R392) -/

/-- INVALIDATION_REQUEST (20 R392): a request of a partition's driver joins its queue. -/
def execInvalidationRequest (pid : Nat) (va pages seq : Word) (s : State) : Host.Outcome State Fault Refusal :=
  .next (if s.gwerid = .up ∧ (partOf pid s).isSome then
    { s with invs := s.invs ++ [{ pid := pid, va := va.toNat, pages := pages.toNat, seq := seq }] }
  else s)

/-- A cached leaf of the partition lies in the range of a request, in pages of 8 KiB (11 R239, R244). -/
def invCovers (r : InvReq) (t : TlbEnt) : Bool :=
  t.pid == r.pid &&
    (r.pages == 0 ||
      (let lo := t.vpn * 2 ^ (13 + 10 * t.lvl)
       decide (r.va / 8192 * 8192 < lo + 2 ^ (13 + 10 * t.lvl)) && decide (lo < (r.va / 8192 + r.pages) * 8192)))

/-- A retired operation of the partition has been translated and is still to be performed (11 R244). -/
def unperformed (pid : Nat) (s : State) : Bool := s.pend.any fun p => p.pid == pid && !isLmKey p.key

/-- A versioned word that an invalidation request covers, where the tables map it as a versioned word no more at any address by which
it was reached. Mapped so again, it begins at version 0 (11 R244, R257; log entry 26). -/
def verGone (r : InvReq) (p : PartRec) (s : State) (v : VerWord) : Bool :=
  let covered (va : Nat) : Bool := r.pages == 0 || (decide (r.va / 8192 * 8192 ≤ va) && decide (va < (r.va / 8192 + r.pages) * 8192))
  let kept (va : Nat) : Bool := match walk p va s with
    | .ok q _ f => pteVer f && q == v.pa
    | .tfault _ _ | .merr _ _ => false
  v.pid == r.pid && v.vas.any covered && !v.vas.any kept

/-- INVALIDATION_COMPLETE (20 R392): the oldest request of a partition completes, and SEQ goes to INVSEQ of the status block. -/
def execInvalidationComplete (pid : Nat) (s : State) : Host.Outcome State Fault Refusal :=
  .next (match s.invs.find? fun r => r.pid == pid, partOf pid s with
    | some r, some p =>
      if unperformed pid s then s
      else
        { s with
          invs := s.invs.erase r
          tlb := s.tlb.filter fun t => !invCovers r t
          versions := s.versions.filter fun v => !verGone r p.rcd s v
          mem := memWrite (p.rcd.statblk + 8) (leBytes 8 r.seq.toNat) s.mem }
    | _, _ => s)

/-! ## Partitions (20 R389, R393) -/

/-- A partition quiesce point (25 R465): no launch of any partition holds a core. -/
def quiesced (s : State) : Bool :=
  s.launches.all fun l => l.held.isEmpty && (l.ctxs.all fun x => x.st != .issuing) &&
    (l.st == .admitted || l.st == .completed || (l.pen && l.st == .running))

/-- The cores are whole quads (20 R389, 08 R175). -/
def wholeQuads (cs : List Nat) : Bool := cs.all fun c => (List.range 4).all fun m => cs.contains (quadCore c m)

/-- Two lists of memory ranges overlap. -/
def memoryMeets (a b : List (Nat × Nat)) : Bool :=
  a.any fun x => b.any fun y => decide (x.1 < y.1 + y.2) && decide (y.1 < x.1 + x.2)

/-- A sum of shares over the other partitions. -/
def otherShares (pid : Nat) (f : PartRec → Nat) (s : State) : Nat :=
  sumList ((s.parts.filter fun x => x.rcd.pid != pid).map fun x => f x.rcd)

/-- A logical column that holds no usable core (25 R465). -/
def lostColumn (s : State) (c : Nat) : Bool := s.fw.lostCols.contains (colOf c)

/-- Every penumbra queue of a record has a window size of 14 to 18 (20 R389). -/
def pwinOk (p : PartRec) : Bool :=
  (List.range 64).all fun q => !bitOf p.penq q || p.pwin.any fun x => x.1 == q && decide (14 ≤ x.2) && decide (x.2 ≤ 18)

/-- A group configuration that firmware accepts beside the others of its sum port (23 R430). -/
def groupOk (pid : Nat) (s : State) (g : GroupRec) : Bool :=
  decide (g.die < 8) && decide (g.grp < 16) && decide (1 ≤ g.nreg) && decide (g.nreg ≤ 15) && decide (1 ≤ g.stw) &&
    decide (g.stw ≤ 255) && decide (1 ≤ g.levels) && decide (g.levels ≤ 5) && decide (g.pkgs ≤ 400000) && decide (g.seq0 < 65536) &&
    decide ((vecGet s.optics g.die).sum.level ≤ g.levels) &&
    (vecGet s.optics g.die).sum.groups.all fun x => x.pid == pid || x.rcd.grp != g.grp

/-- A pairing names link ports and a package (22 R428; 23 R453). -/
def pairingOk (r : PairRec) : Bool := decide (r.die < 8) && decide (r.port < 3) && decide (r.pkg < 2 ^ 19) && decide (r.far < 3)

/-- Firmware accepts a partition record (20 R389; 11 R237, R238, R250). -/
def partitionOk (p : PartRec) (s : State) : Bool :=
  wholeQuads p.cores && p.cores.all (fun c => !lostColumn s c) &&
    (s.parts.all fun x => x.rcd.pid == p.pid || (!(x.rcd.cores.any p.cores.contains) && !memoryMeets x.rcd.hbm p.hbm)) &&
    decide (p.g ≤ 8) && decide (p.shareM + otherShares p.pid (fun x => x.shareM) s ≤ 64) &&
    decide (p.shareX + otherShares p.pid (fun x => x.shareX) s ≤ 64) &&
    decide (p.shareO + otherShares p.pid (fun x => x.shareO) s ≤ 64) &&
    decide (p.hbm.length ≤ 16) && (p.hbm.all fun r => r.1 % 2 ^ 33 == 0 && r.2 % 2 ^ 33 == 0 && decide (r.1 + r.2 ≤ paShared)) &&
    p.root % 8192 == 0 && placeOk p p.root && decide (13 ≤ p.plg) && decide (p.plg ≤ 31) && p.privwin % 2 ^ (p.plg + 22) == 0 &&
    decide (1 ≤ p.nframe) && decide (p.penhost < 2 ^ 16) && decide (p.penq < 2 ^ 64) && pwinOk p &&
    p.pairs.all pairingOk && decide ((p.pairs.map fun r => (r.die, r.port, r.pkg)).Nodup) && p.groups.all (groupOk p.pid s) &&
    decide ((p.groups.map fun g => (g.die, g.grp)).Nodup)

/-- A core passes to a partition: what an earlier tenant left in it is cleared, and its caches are invalidated (20 R393). -/
def passCore (pid : Nat) (s : State) (c : Nat) : State :=
  let k := getCore c s
  let s1 := match k.tenant with
    | none => s
    | some t => if t = pid then s else zeroBytes (sliceKey c 0) 0x80000 (zeroBytes (lmKey c 0) 0xFC000 s)
  modCore c (fun k => { k with tenant := some pid, l1 := [], amoLines := [], pred := if k.tenant = some pid then k.pred else [] })
    { s1 with l2 := s1.l2.filter fun x => x.home != c || (k.tenant == some pid && verPinned x.line s1) }

/-- The partition whose line, or whose directory record, a line of the L2-mode granules holds. -/
def L2Line.pid (x : L2Line) : Nat := (if x.rsv then x.line / 4 - 2 ^ 58 else x.line) / 2 ^ 48

/-- The caches of a partition written back and invalidated: its lines in slices and directories, but for those with several versions of
a word (11 R256), and its translations. -/
def flushPartition (pid : Nat) (s : State) : State :=
  { s with
    dir := s.dir.filter fun x => x.1 / 2 ^ 48 != pid
    l2 := s.l2.filter fun x => x.pid != pid || (!x.rsv && verPinned x.line s)
    hostOld := s.hostOld.filter fun x => x.1 / 2 ^ 48 != pid
    tlb := s.tlb.filter fun t => t.pid != pid }

/-- The lines that a partition's slices have kept, each at the home slice that the partition's record gives it (11 R252, R256). -/
def rehome (p : PartRec) (s : State) : State :=
  { s with l2 := s.l2.map fun x => if x.pid = p.pid ∧ x.rsv = false then
      { x with home := homeCore p (linePa x.line), set := l2SetOf p x.line } else x }

/-- The groups of the counting bus that a partition uses, given to the sum ports of their dies; those of a port take its group slots in
ascending order of GRP (23 R431, R432, R447). -/
def setGroups (p : PartRec) (s : State) : State :=
  { s with optics := vecGen 8 fun d =>
      let o := vecGet s.optics d
      let gs := (o.sum.groups.filter fun g => g.pid != p.pid) ++
        ((p.groups.filter fun g => g.die == d).map fun g => { pid := p.pid, rcd := g, nextSeq := g.seq0, seen := [] })
      let slots := (List.range 16).filterMap fun n => gs.find? fun g => g.rcd.grp == n
      { o with sum := { o.sum with groups := slots, grpmax := slots.length - 1 } } }

/-- The frames of a pool that no parked context holds. -/
def poolFrames (p : PartRec) (s : State) : List Nat :=
  let used := (s.launches.map fun l => if l.pid = p.pid then (l.ctxs.filter fun x => x.st == .parked).map fun x => x.frame else []).flatten
  (List.range p.nframe).filter fun f => !used.contains f

/-- The capacity of a partition is less under a new record (09 R218). -/
def capacityFalls (old new : PartRec) : Bool :=
  decide (new.cores.length < old.cores.length) || decide (new.shareM < old.shareM) || decide (new.shareX < old.shareX) ||
    decide (new.shareO < old.shareO)

/-- The descriptors of a new partition's queues show them DISABLED, with no error (09 R198). -/
def freshQueues (p : PartRec) (m : List Host.Cell) : List Host.Cell :=
  (List.range 64).foldl (fun m q => memWrite (physKey p (descAddr p q) + 9) [0, 0] m) m

/-- A partition that firmware has accepted takes its record: new, with 64 DISABLED queues (09 R198), or changed. -/
def placePartition (p : PartRec) (s : State) : State :=
  let s1 := setGroups p (rehome p (flushPartition p.pid (p.cores.foldl (passCore p.pid) s)))
  match partOf p.pid s1 with
  | some old =>
    modPart p.pid (fun x => { x with rcd := p, freeFrames := poolFrames p s1, capFell := x.capFell || capacityFalls old.rcd p }) s1
  | none =>
    { s1 with
      parts := s1.parts ++ [{ rcd := p, lastLid := 0, fwdrop := 0, halted := false, freeFrames := List.range p.nframe, irqHeld := [],
                              capFell := false }]
      queues := s1.queues ++ genList 64 fun q =>
        { pid := p.pid, q := q, st := .disabled, door := none, point := { ring := descField p q 16 4 s1, l1 := none, l2 := none },
          skip := 0, copies := [], edges := [], gateRead := false, ticket := none }
      mem := freshQueues p (memWrite p.faultq (leBytes 64 0) (memWrite p.statblk (leBytes 64 0) s1.mem)) }

/-- PARTITION_CREATE (20 R389): running firmware creates a partition on a host driver's request, or changes one at a partition
quiesce point; a record that breaks a limit is refused. -/
def execPartitionCreate (p : PartRec) (s : State) : Host.Outcome State Fault Refusal :=
  .next (if s.fw.booted ∧ s.gwerid = .up ∧ partitionOk p s = true ∧ ((partOf p.pid s).isNone = true ∨ quiesced s = true) then
    placePartition p s
  else s)

/-! ## Coherent accesses (22 R419) -/

/-- The physical address that a host access names is one of the host's own memory or lies in a window of the partition. -/
def hostMapped (p : PartRec) (pa : Nat) : Bool := isHostPa pa || inHbm p pa || (isSharedPa pa && decide (pa - paShared < sharedSize p))

/-- Every L1 copy of a line taken back, in every partition that may hold one, and what the L2-mode granules hold of it written back
(22 R419). -/
def recallAll (pa : Nat) (s : State) : State :=
  s.parts.foldl (fun s x =>
    let line := dirLine x.rcd.pid pa
    wroteBack line (cleanL2 line (l1Recall x.rcd pa none s))) s

/-- The L2-mode granules keep no copy of a line that the host writes (22 R419), but for one that holds several versions of a word (11
R256). -/
def dropAllL2 (pa : Nat) (s : State) : State :=
  { s with l2 := s.l2.filter fun x => x.rsv || x.line % 2 ^ 48 != pa / 64 || verPinned x.line s }

/-- The host reads `n` bytes; what it is given for data that cannot be read is open. -/
def hostRead (key n : Nat) (s : State) : State :=
  match readError key n s with
  | some _ => tickFree { s with hostData := leBytes n (Config.freeWord s.free).toNat }
  | none =>
    let t := correct key n s
    { t with hostData := memRead t.mem n key }

/-- The host writes bytes: no L1 copy of the line is left, and a write that cannot be kept is lost. -/
def hostWrite (key pa : Nat) (bs : List Byte) (s : State) : State :=
  let t := dropAllL2 pa (recallAll pa s)
  if storeLost key bs.length t then t else land key bs 0 t

/-- The place of an aligned host access of 2^lg bytes, if the link is up and the address is mapped. -/
def hostPlace (pid pa lg : Nat) (s : State) : Option Nat :=
  match partOf pid s with
  | none => none
  | some p => if s.gwerid = .up ∧ lg ≤ 3 ∧ pa % 2 ^ lg = 0 ∧ hostMapped p.rcd pa = true then some (physKey p.rcd pa) else none

/-- The device's form of a host atomic. -/
def hostAmoOp (op : HostAmo) : AmoOp :=
  match op with
  | .add => .add | .and => .and | .or => .or | .xor => .xor | .min => .min | .max => .max | .minu => .minu | .maxu => .maxu
  | .swap => .swap | .cas => .cas

/-- HOST_ACCESS (22 R419): a read, a write or an atomic, performed at the home slice of the line. -/
def execHostAccess (h : HostOp) (s : State) : Host.Outcome State Fault Refusal :=
  .next (match h with
    | .read pid pa lg =>
      (match hostPlace pid pa lg s with
       | none => s
       | some key => hostRead key (2 ^ lg) s)
    | .write pid pa lg x =>
      (match hostPlace pid pa lg s with
       | none => s
       | some key => hostWrite key pa (leBytes (2 ^ lg) x.toNat) s)
    | .amo pid pa op lg x c =>
      (match hostPlace pid pa lg s with
       | none => s
       | some key =>
         if (readError key (2 ^ lg) s).isSome then hostRead key (2 ^ lg) s
         else
           let t := hostRead key (2 ^ lg) (recallAll pa s)
           amoApply (hostAmoOp op) (2 ^ lg) x.toNat c.toNat key (leValue t.hostData) 0 t))

end Sys2Proof.Machine
end

