-- ==== Sys2Proof/Machine/MatrixMath.lean ====
section
/-! DEFINITION. The arithmetic of the matrix unit: operand formats and tiles (16 R333, R335, R344; 04 R81 to R86), products
(16 R338; 04 R101, R102), microprograms (16 R347, R348) and conversion to store formats (16 R342). -/
namespace Sys2Proof.Machine

/-! ## Formats (16 R333) -/

/-- The bits of an element, which are the class; none for a reserved code (16 R333). -/
def matBits (code : Nat) : Option Nat :=
  match code with
  | 0 => some 64
  | 1 => some 32
  | 2 | 3 => some 16
  | 4 | 5 | 6 | 7 | 8 | 10 => some 8
  | 9 | 11 => some 4
  | _ => none

/-- The bits of an element of a format code. -/
def bitsOfCode (code : Nat) : Nat := (matBits code).getD 8

/-- K of a format code (16 R333). -/
def matK (code : Nat) : Nat :=
  match bitsOfCode code with
  | 64 => 4
  | 32 => 16
  | 16 => 64
  | 8 => 128
  | _ => 256

/-- The format is a block format (16 R333). -/
def isBlock (code : Nat) : Bool := code == 10 || code == 11

/-- The dense bytes of a tile of a depth (16 R333, R335). -/
def denseBytes (code depth : Nat) : Nat := 4 * depth * bitsOfCode code

/-- The scale bytes of a tile of a depth (16 R333, R335). -/
def scaleBytes (code depth : Nat) : Nat := if isBlock code then depth else 0

/-- T for a depth (16 R333). -/
def tileBytes (code depth : Nat) : Nat := denseBytes code depth + scaleBytes code depth

/-- The accumulator types (16 R333). -/
inductive AccTy where
  | f32 | f64 | i32
  deriving DecidableEq, Repr

/-- The accumulator type of a pair of formats (16 R333). -/
def accTy (a b : Nat) : AccTy :=
  if bitsOfCode a = 64 then .f64 else if a = b ∧ (a = 8 ∨ a = 9) then .i32 else .f32

/-- The pair is legal (16 R333). -/
def pairOk (a b : Nat) : Bool := (matBits a).isSome && matBits a == matBits b

/-- A store format fits an accumulator type (16 R333). -/
def ofmtOk (t : AccTy) (f : Nat) : Bool :=
  match f with
  | 0 => true
  | 1 | 2 => t == .f32
  | 3 => t == .i32
  | _ => false

/-- The rounding mode of a code 0–5 of 01 R18; a reserved code draws nothing (a command with one ends BAD_FIELD). -/
def rndOfCode (n : Nat) : Rnd :=
  match n with
  | 0 => .rne
  | 1 => .rtz
  | 2 => .rup
  | 3 => .rdn
  | 4 => .rna
  | 5 => .sr
  | _ => .rne

/-! ## Elements (04 R78, R81 to R86) -/

/-- An integer as a value. -/
def intVal (x : Int) : FVal := .fin (decide (x < 0)) x.natAbs 0

/-- A value scaled by a power of two. -/
def FVal.scale (x : FVal) (k : Int) : FVal :=
  match x with
  | .nan s => .nan s
  | .inf s => .inf s
  | .fin s m e => .fin s m (e + k)

/-- The magnitudes of Q4 types 1 and 3, in units of 2^−1 and 1 (04 R85). -/
def q4Mags : List Nat := [0, 1, 2, 3, 4, 6, 8, 12]

/-- Code of R85, for TYPE. -/
def q4Val (ty c : Nat) : FVal :=
  let m := c % 8
  let neg := decide (8 ≤ c) && m != 0
  match ty with
  | 0 => intVal (signedOf 4 c)
  | 1 => .fin neg (nth 0 q4Mags m) (-1)
  | 2 => if m = 0 then .fin false 0 0 else .fin neg 1 ((m : Int) - 4)
  | _ => .fin neg (nth 0 q4Mags m) 0

/-- An element's value from its code and, in a block format, its scale byte (04 R81 to R86). -/
def matVal (code x sc : Nat) : FVal :=
  let ex := sc % 64
  let ty := sc / 64 % 4
  match code with
  | 0 => fdecode .f64 x
  | 1 => fdecode .f32 x
  | 2 => fdecode .bf16 x
  | 3 => fdecode .f16 x
  | 4 => fdecode .e5m2 x
  | 5 => fdecode .e4m3 x
  | 6 => fdecode .e3m2 (x % 64)
  | 7 => fdecode .e2m3 (x % 64)
  | 8 => intVal (signedOf 8 x)
  | 9 => intVal (signedOf 4 x)
  | 10 => if ex = 63 ∨ ty ≠ 0 then .nan false else (intVal (signedOf 8 x)).scale ((ex : Int) - 32)
  | _ => if ex = 63 then .nan false else (q4Val ty x).scale ((ex : Int) - 32)

/-! ## Tiles (16 R335, R344) -/

/-- The 32 rows of A, or columns of B, of a dense tile held as a little-endian number, scales apart (16 R335). -/
def denseLines (code depth x sc : Nat) : List (List FVal) :=
  let b := bitsOfCode code
  genList 32 fun l => genList depth fun k =>
    matVal code (bitsOf x (b * (depth * l + k)) b) (bitsOf sc (8 * (l * (depth / 32) + k / 32)) 8)

/-- The groups of a logical depth (16 R344). -/
def groups (ks : Nat) : Nat := ks / 128

/-- The bytes of the values of a sparse tile (16 R344). -/
def sparseValueBytes (code ks n : Nat) : Nat := 4 * groups ks * n * bitsOfCode code

/-- The bytes of the metadata of a sparse tile (16 R344). -/
def metaBytes (ks : Nat) : Nat := 512 * groups ks

/-- The bytes of a sparse tile (16 R344). -/
def sparseBytes (code ks n : Nat) : Nat := sparseValueBytes code ks n + metaBytes ks + scaleBytes code ks

/-- The mask of row i and group g (16 R344). -/
def maskOf (ks md i g : Nat) : Nat := bitsOf md (128 * (i * groups ks + g)) 128

/-- The first mask whose popcount is not N, as its index i × G + g (16 R344). -/
def badMask (ks n md : Nat) : Option Nat :=
  (List.range (32 * groups ks)).find? fun j => popcount 128 (bitsOf md (128 * j) 128) != n

/-- The rows of a sparse A tile: values, metadata and scales as numbers (16 R344). -/
def sparseLines (code ks n x md sc : Nat) : List (List FVal) :=
  let b := bitsOfCode code
  genList 32 fun i => genList ks fun k =>
    let g := k / 128
    let t := k % 128
    let m := maskOf ks md i g
    if bitOf m t then
      matVal code (bitsOf x (b * ((i * groups ks + g) * n + popcount t m)) b) (bitsOf sc (8 * (i * (ks / 32) + k / 32)) 8)
    else .fin false 0 0

/-! ## Products (16 R338; 04 R101, R102) -/

/-- MSTAT bits of rounding flags: NV, OF, NX (16 R334). -/
def mstatOf (f : FFlags) : Nat :=
  (if f.getLsbD 0 then 1 else 0) + (if f.getLsbD 2 then 2 else 0) + (if f.getLsbD 4 then 4 else 0)

/-- The exact sum of a finite value and finite products. -/
def exactAcc : Int × Int → List (FVal × FVal) → Int × Int
  | r, [] => r
  | r, (x, y) :: ps =>
    match x.mulExact y with
    | .fin s m e =>
      if m = 0 then exactAcc r ps
      else exactAcc (exactSum (decide (r.1 < 0)) r.1.natAbs r.2 s m e) ps
    | .inf _ => exactAcc r ps
    | .nan _ => exactAcc r ps

/-- An infinity of a sign among the products. -/
def hasInfSign (neg : Bool) (ps : List (FVal × FVal)) : Bool :=
  ps.any fun p => match p.1.mulExact p.2 with
    | .inf s => s == neg
    | .fin _ _ _ | .nan _ => false

/-- MatrixChunk (04 R101): the encoding and its flags. -/
def matrixChunk (f : FFmt) (cold : Nat) (ps : List (FVal × FVal)) : Nat × FFlags :=
  let c := fdecode f cold
  let nan := c.isNaN || ps.any fun p => p.1.isNaN || p.2.isNaN
  let pinf := c == .inf false || hasInfSign false ps
  let ninf := c == .inf true || hasInfSign true ps
  if nan then (f.canonNaN, 0)
  else if (ps.any fun p => zeroTimesInf p.1 p.2) || (pinf && ninf) then (f.canonNaN, flNV)
  else if pinf then (f.infBits false, 0)
  else if ninf then (f.infBits true, 0)
  else
    match c with
    | .fin s m e =>
      let r := exactAcc (if s then -(m : Int) else m, e) ps
      if r.1 = 0 then
        (f.signBits (s && m == 0 && ps.all fun p => (p.1.isZero || p.2.isZero) && p.1.sign != p.2.sign), 0)
      else roundFloat f .rne (decide (r.1 < 0)) r.1.natAbs r.2 0
    | .inf _ => (f.canonNaN, 0)
    | .nan _ => (f.canonNaN, 0)

/-- An integer value. -/
def FVal.toInt (x : FVal) : Int :=
  match x with
  | .fin s m _ => if s then -(m : Int) else m
  | .inf _ => 0
  | .nan _ => 0

/-- The integer element of R102. -/
def intChunk (cold : Nat) (ps : List (FVal × FVal)) : Nat :=
  wrapOf 32 (signedOf 32 cold + ps.foldl (fun a p => a + p.1.toInt * p.2.toInt) 0)

/-- One element of MmaOp: its encoding and the MSTAT bits it sets (16 R338). -/
def mmaElem (t : AccTy) (cold : Nat) (ps : List (FVal × FVal)) : Nat × Nat :=
  match t with
  | .i32 => (intChunk cold ps, 0)
  | .f32 => let r := matrixChunk .f32 cold ps; (r.1, mstatOf r.2)
  | .f64 => let r := matrixChunk .f64 cold ps; (r.1, mstatOf r.2)

/-- MSTAT bits joined. -/
def orAll (l : List Nat) : Nat := l.foldl (fun a b => a ||| b) 0

/-- BN where a block NaN is among the operands (16 R334). -/
def blockNaN (code : Nat) (ls : List (List FVal)) : Nat := if isBlock code && ls.any fun l => l.any FVal.isNaN then 16 else 0

/-- MmaOp over 1,024 accumulator elements, row-major (16 R338): the new elements and the MSTAT bits. -/
def mmaOp (t : AccTy) (acc : List Nat) (rows cols : List (List FVal)) : List Nat × Nat :=
  let r := genList 1024 fun x => mmaElem t (nth 0 acc x) ((nth [] rows (x / 32)).zip (nth [] cols (x % 32)))
  (r.map fun e => e.1, orAll (r.map fun e => e.2))

/-! ## Microprograms (16 R347, R348) -/

/-- The operation field of an operation word. -/
def microOp (w : W32) : Nat := bitsOf w.toNat 28 4
/-- DST. -/
def microDst (w : W32) : Nat := bitsOf w.toNat 24 4
/-- X. -/
def microX (w : W32) : Nat := bitsOf w.toNat 20 4
/-- Y. -/
def microY (w : W32) : Nat := bitsOf w.toNat 16 4
/-- Z. -/
def microZ (w : W32) : Nat := bitsOf w.toNat 12 4

/-- An operation word meets the limits of R347. -/
def microOk (w : W32) : Bool :=
  decide (microOp w ≤ 7) && decide (microDst w ≤ 1) && decide (microX w ≤ 5) && decide (microY w ≤ 5) && decide (microZ w ≤ 5) &&
    bitsOf w.toNat 0 12 == 0 &&
    (match microOp w with
     | 6 | 7 => microY w == 0 && microZ w == 0
     | 5 => true
     | _ => microZ w == 0)

/-- The microprogram of a 32-byte record, if it meets the limits of R347. -/
def microProgOf (x : Nat) : Option MicroProg :=
  let n := bitsOf x 192 8
  let ops : List W32 := genList 4 fun k => BitVec.ofNat 32 (bitsOf x (32 * k) 32)
  if 1 ≤ n ∧ n ≤ 4 ∧ bitsOf x 200 24 = 0 ∧ ((ops.take n).all microOk && (ops.drop n).all fun w => w == 0) = true then
    some { ops := ops.take n, const0 := BitVec.ofNat 32 (bitsOf x 128 32), const1 := BitVec.ofNat 32 (bitsOf x 160 32),
           nops := n, init := BitVec.ofNat 32 (bitsOf x 224 32) }
  else none

/-- 2^(2^−i) in units of 2^−200, for i = 1, 2, …, n: each is the square root of the one before. -/
def exp2Roots : Nat → Nat → List Nat
  | 0, _ => []
  | n + 1, c => let r := isqrt 202 (c * 2 ^ 200) 0; r :: exp2Roots n r

/-- The product of the roots that the bits of a fraction select, first place first. -/
def exp2Frac : List Bool → List Nat → Nat → Nat
  | b :: bs, c :: cs, r => exp2Frac bs cs (if b then r * c / 2 ^ 200 else r)
  | [], _, r => r
  | _ :: _, [], r => r

/-- 2^X to FP32 under RNE (16 R347). Below 2^−30 in magnitude the result rounds to 1; otherwise the fraction has at most 56
places, and the power is cut 200 places below its point, far beyond the closest case to a rounding boundary. -/
def exp2V (x : FVal) : Nat × FFlags :=
  match x with
  | .nan _ => (FFmt.f32.canonNaN, 0)
  | .inf s => (if s then 0 else FFmt.f32.infBits false, 0)
  | .fin s m e =>
    if m = 0 then (0x3F800000, 0)
    else if 8 ≤ e + (bitLen m : Int) - 1 then
      (if s then (0, flUF ||| flNX) else (FFmt.f32.infBits false, flOF ||| flNX))
    else if e + (bitLen m : Int) ≤ -30 then (0x3F800000, flNX)
    else
      let v : Int := (if s then -(m : Int) else m) * (2 ^ (e + 60).toNat : Nat)
      let n := v / (2 ^ 60 : Nat)
      let f := (v % (2 ^ 60 : Nat)).toNat
      if f = 0 then roundFloat .f32 .rne false 1 n 0
      else
        let r := exp2Frac (genList 60 fun i => bitOf f (59 - i)) (exp2Roots 60 (2 ^ 201)) (2 ^ 200)
        roundFloat .f32 .rne false (2 * r + 1) (n - 201) 0

/-- An FP32 encoding with the canonical NaN in place of any other (04 R87). -/
def canon32 (x : Nat) : Nat := if (fdecode .f32 x).isNaN then FFmt.f32.canonNaN else x

/-- The value of a micro-operation on three FP32 encodings, with its flags (16 R347). -/
def microVal (op x y z : Nat) : Nat × FFlags :=
  let a := fdecode .f32 x
  let b := fdecode .f32 y
  match op with
  | 0 => faddV .f32 .rne a b 0
  | 1 => faddV .f32 .rne a b.neg 0
  | 2 => fmulV .f32 .rne a b 0
  | 3 => (fminmax .f32 true x y, 0)
  | 4 => (fminmax .f32 false x y, 0)
  | 5 => (canon32 (if (FVal.fin false 0 0).lt a then y else z), 0)
  | 6 => exp2V a
  | _ => (canon32 (x ^^^ 0x80000000), 0)

/-- The working values of a microprogram step (16 R348). -/
structure MicroEnv where
  a : Nat
  b : Nat
  c : Nat
  t : Nat
  f0 : Nat
  f1 : Nat
  deriving DecidableEq, Repr

/-- An operand code (16 R347). -/
def MicroEnv.get (v : MicroEnv) (k : Nat) : Nat :=
  match k with
  | 0 => v.a
  | 1 => v.b
  | 2 => v.c
  | 3 => v.t
  | 4 => v.f0
  | _ => v.f1

/-- MSTAT of a micro-operation: NV only where no operand is a NaN (16 R334). -/
def microStat (op x y : Nat) (fl : FFlags) : Nat :=
  let anyNaN := (fdecode .f32 x).isNaN || (decide (op < 5) && (fdecode .f32 y).isNaN)
  mstatOf (if anyNaN then fl &&& ~~~flNV else fl)

/-- The micro-operations of one step, with the MSTAT bits so far (16 R348). -/
def microSteps : List W32 → MicroEnv → Nat → MicroEnv × Nat
  | [], v, st => (v, st)
  | w :: ws, v, st =>
    let x := v.get (microX w)
    let y := v.get (microY w)
    let r := microVal (microOp w) x y (v.get (microZ w))
    let st1 := st ||| microStat (microOp w) x y r.2
    if microDst w = 0 then microSteps ws { v with t := r.1 } st1 else microSteps ws { v with c := r.1 } st1

/-- The recurrence of one element over its steps (16 R348). -/
def recElem (p : MicroProg) : List (Nat × Nat) → Nat → Nat → Nat × Nat
  | [], c, st => (c, st)
  | (a, b) :: ps, c, st =>
    let r := microSteps p.ops { a := a, b := b, c := c, t := 0, f0 := p.const0.toNat, f1 := p.const1.toNat } st
    recElem p ps r.1.c r.2

/-- A class 16 element widened to FP32, exactly, with its MSTAT bits; a NaN becomes the canonical one (16 R334, R348; 04 R87,
R95). -/
def fp32Of (x : FVal) : Nat × Nat := let r := convertFloat .f32 .rne x 0; (r.1, mstatOf r.2)

/-- MrecOp over 1,024 accumulator elements (16 R348). -/
def recOp (p : MicroProg) (acc : List Nat) (rows cols : List (List FVal)) : List Nat × Nat :=
  let rs := rows.map fun l => l.map fp32Of
  let cs := cols.map fun l => l.map fp32Of
  let vals (l : List (Nat × Nat)) : List Nat := l.map fun e => e.1
  let r := genList 1024 fun x => recElem p ((vals (nth [] rs (x / 32))).zip (vals (nth [] cs (x % 32)))) (nth 0 acc x) 0
  (r.map fun e => e.1, orAll ((r ++ (rs ++ cs).flatten).map fun e => e.2))

/-! ## Store formats (16 R342) -/

/-- The bytes of one element in a store format (16 R342). -/
def ofmtBytes (t : AccTy) (f : Nat) : Nat :=
  match f with
  | 0 => if t = .f64 then 8 else 4
  | 3 => 1
  | _ => 2

/-- One accumulator element converted to a store format, with its MSTAT bits (16 R342). -/
def storeElem (f : Nat) (m : Rnd) (draw x : Nat) : Nat × Nat :=
  match f with
  | 0 => (x, 0)
  | 3 =>
    let v := signedOf 32 x
    (wrapOf 8 (if 127 < v then 127 else if v < -128 then -128 else v), if 127 < v ∨ v < -128 then 8 else 0)
  | 1 => let r := convertFloat .bf16 m (fdecode .f32 x) draw; (r.1, mstatOf r.2)
  | _ => let r := convertFloat .f16 m (fdecode .f32 x) draw; (r.1, mstatOf r.2)

/-- The image of 1,024 elements in a store format, with its MSTAT bits; element x uses draw `d x` (16 R342, R351). -/
def storeImage (t : AccTy) (f : Nat) (m : Rnd) (d : Nat → Nat) (acc : List Nat) : List Byte × Nat :=
  let r := genList 1024 fun x => storeElem f m (d x) (nth 0 acc x)
  ((r.map fun e => leBytes (ofmtBytes t f) e.1).flatten, orAll (r.map fun e => e.2))

end Sys2Proof.Machine
end

