-- ==== Sys2Proof/Machine/Matrix.lean ====
section
/-! DEFINITION. The matrix instructions, the accepted operations and the gang barrier (16 R330 to R348). -/
namespace Sys2Proof.Machine

/-! ## The format context (16 R332, R333) -/

/-- AFMT. -/
def ctxA (c : Word) : Nat := bitsOf c.toNat 0 4
/-- BFMT. -/
def ctxB (c : Word) : Nat := bitsOf c.toNat 4 4
/-- SPN. -/
def ctxSpn (c : Word) : Nat := bitsOf c.toNat 8 3
/-- OFMT. -/
def ctxOfmt (c : Word) : Nat := bitsOf c.toNat 12 4
/-- ORM. -/
def ctxOrm (c : Word) : Nat := bitsOf c.toNat 16 3
/-- VALID. -/
def ctxValid (c : Word) : Bool := bitOf c.toNat 63
/-- The accumulator type of a context (16 R333). -/
def ctxTy (c : Word) : AccTy := accTy (ctxA c) (ctxB c)

/-- MFMT accepts a descriptor (16 R341). -/
def mfmtOk (x : Word) : Bool :=
  if x = 0 then true
  else
    ctxValid x && bitsOf x.toNat 19 44 == 0 && !bitOf x.toNat 11 && ctxOrm x != 6 && decide (ctxOfmt x ≤ 3) &&
      decide (ctxSpn x ≤ 3) && pairOk (ctxA x) (ctxB x) && ofmtOk (ctxTy x) (ctxOfmt x) &&
      (ctxSpn x == 0 || decide (bitsOfCode (ctxA x) ≤ 16))

/-- N of the group fill (16 R332). -/
def spnN (k : Nat) : Nat := 32 * k

/-- The accumulators that d names under a context (16 R337). -/
def accsOf (c : Word) (d : Nat) : List Nat := if ctxTy c = .f64 then [d, d + 1] else [d]

/-- The elements of accumulator d under a context (16 R337). -/
def readAcc (c : Word) (d : Nat) (k : Core) : List Nat :=
  let lo := (vecGet k.accs d).toList.map fun w => w.toNat
  if ctxTy c = .f64 then
    ((vecGet k.accs (d + 1)).toList.zip lo).map fun p => p.1.toNat * 2 ^ 32 + p.2
  else lo

/-- An accumulator of elements. -/
def accVec (l : List Nat) : Vector W32 1024 := vecGen 1024 fun x => BitVec.ofNat 32 (nth 0 l x)

/-- Accumulator d written under a context (16 R337). -/
def writeAcc (c : Word) (d : Nat) (l : List Nat) (k : Core) : Core :=
  if ctxTy c = .f64 then
    { k with accs := vecSet (vecSet k.accs d (accVec l)) (d + 1) (accVec (l.map fun x => x / 2 ^ 32)) }
  else { k with accs := vecSet k.accs d (accVec l) }

/-- MSTAT bits accrue (16 R334). -/
def Core.accrueM (n : Nat) (k : Core) : Core := { k with mstat := k.mstat ||| w64 n }

/-! ## Operand addresses (16 R336) -/

/-- What an operand address comes to: a core and an offset, or MATRIX_OPERAND with its DETAIL (16 R336). -/
inductive MatAddr where
  | ok (core off : Nat)
  | bad (detail : Nat)
  deriving DecidableEq, Repr

/-- The core that an operand address names; none where it is refused (16 R336). -/
def matCore (g : Nat) (s : State) : Option Nat :=
  let tag := g / 2 ^ 53
  if tag = 0x400 then (if bitsOf g 20 33 = 0 then some s.here else none)
  else if tag = 0x401 then
    let x := bitsOf g 26 5 * 64 + bitsOf g 20 6
    if bitsOf g 31 22 ≠ 0 ∨ quadCore x 0 ≠ quadCore s.here 0 ∨ inMyRect x s = false then none else some x
  else none

/-- An operand range of `n` bytes (16 R336). -/
def matAddr (ga : Word) (n : Nat) (s : State) : MatAddr :=
  match matCore ga.toNat s with
  | none => .bad 1
  | some x =>
    let off := bitsOf ga.toNat 0 20
    if off % 64 ≠ 0 then .bad 2
    else if (if isF s then 0x100000 else 0xFC000) < off + n then .bad 3
    else .ok x off

/-- MATRIX_FORMAT with a DETAIL (16 R339). -/
def matFormat (detail : Nat) : Eff := .trap 0x68 detail 0

/-- What follows the check of an operand range (16 R339): an access of the owner to its lent pages (20 R400, R401) comes after it. -/
def withMat (k : Kind) (ga : Word) (n : Nat) (s : State) (f : Nat → Nat → Eff) : Eff :=
  match matAddr ga n s with
  | .bad detail => .trap 0x69 detail ga
  | .ok x off =>
    match lentAt off n (getCore x s) with
    | some true => .hold s .stalled
    | some false => .trap 0x21 (5 * 4 + k.bits) ga
    | none => f x off

/-- A matrix instruction waits: an earlier write of its thread set to an operand range is still to be performed, or the core
of the range is held by another launch (06 R152; 13 R283; 16 R336). -/
def matBusy (x off n : Nat) (s : State) : Bool :=
  !(mineAt (lmKey x off) n s).isEmpty || !s.ts.palHold.isEmpty || acqHeld .lm s ||
    (x != s.here && (getCore x s).owner != some (myPid s, myLid s))

/-! ## Accepted operations (16 R330, R331, R336) -/

/-- An arrival that has not been decided. -/
def GangArrival.open_ (g : GangArrival) : Bool := g.decided.isNone && !g.started

/-- The core waits at the gang barrier: the joint operation is to have a place in its queue, and its windows theirs (16 R345). -/
def gangHeld (s : State) : Option GangArrival := s.core.gang.filter GangArrival.open_

/-- The windows that a core has registered (15 R327). -/
def windowCount (s : State) : Nat :=
  let k := liveCore s
  let mine (t : Nat) : Bool := if isBank s then t == s.tid else t != 4 && t != 5
  sumList ((k.queues.toList.flatten.filter fun m => mine m.tid).map fun m => (m.reads ++ m.writes).length) +
    (if isBank s then 0 else sumList (k.matq.map fun x => x.wins.length) + ((gangHeld s).map fun g => g.wins.length).getD 0)

/-- The instruction queue or the window table has no room (16 R330, R336). -/
def matFull (wins : List Window) (s : State) : Bool :=
  decide (4 ≤ s.core.matq.length + if (gangHeld s).isSome then 1 else 0) || decide (96 < windowCount s + wins.length)

/-- An operation is accepted (16 R331). -/
def accept (o : MatOp) (s : State) : Eff :=
  if matFull o.wins s then .hold s .stalled
  else .ok { s with core := { s.core with matq := s.core.matq ++ [{ o with seq := s.seq }] }, seq := s.seq + 1 }

/-- A byte range of a core as a window. -/
def winAt (x off n : Nat) : Window := { core := x, lo := off, hi := off + n }

/-- An operation of the focused thread set under the core's context. -/
def opOf (kind : MatKind) (d ax ao bx bo : Nat) (wins : List Window) (s : State) : MatOp :=
  { kind := kind, gang := false, d := d, ctx := s.core.mctx, aCore := ax, aOff := ao, bCore := bx, bOff := bo, wins := wins,
    prog := s.core.prog, seq := 0, tid := s.tid, pid := myPid s, lid := myLid s }

/-- ILLEGAL with DETAIL 2 outside thread sets 0–3, which comes before the causes of the slots that an instruction names (01 R31; 16
R330; 20 R397). -/
def matFirst (w : Raw) (s : State) : Option Cause :=
  if notOwner s then some { code := 1, detail := 2, val := evalWord w } else none

/-- A live context that lets d be named (16 R337, R339). -/
def matEff (d : Sys2Proof.Acc) (s : State) (f : State → Eff) : Eff :=
  if ctxValid s.core.mctx = false then matFormat 2
  else if ctxTy s.core.mctx = .f64 ∧ d.toNat % 2 = 1 then matFormat 3
  else f s

/-- The instruction word of majors 0x68 and 0x69 (02 R60). -/
def matWord (op fn d a b : Nat) : Raw := .a fn b a d op

/-- The bytes of a dense A operand, or of a sparse one (16 R343, R344). -/
def aBytes (sparse : Bool) (c : Word) : Nat :=
  if sparse then sparseBytes (ctxA c) (2 * matK (ctxA c)) (spnN (ctxSpn c)) else tileBytes (ctxA c) (matK (ctxA c))

/-- The bytes of a B operand: of depth Ks for a sparse product (16 R343, R344). -/
def bBytes (sparse : Bool) (c : Word) : Nat := tileBytes (ctxB c) (matK (ctxB c) * if sparse then 2 else 1)

/-- The metadata of a sparse tile checked before acceptance (16 R344). -/
def metaCheck (ga : Word) (x off : Nat) (c : Word) (s : State) (f : State → Eff) : Eff :=
  let ks := 2 * matK (ctxA c)
  let n := spnN (ctxSpn c)
  let vb := sparseValueBytes (ctxA c) ks n
  let key := lmKey x (off + vb)
  match readError key (metaBytes ks) s with
  | some e => .final (machineError e.1 e.2 s)
  | none =>
    match badMask ks n (memValue s.mem (metaBytes ks) key) with
    | some j => .trap 0x69 4 (ga + w64 (vb + 16 * j))
    | none => f (correct key (metaBytes ks) s)

/-- The context lets a sparse product run (16 R344). -/
def sparseOk (sparse : Bool) (s : State) : Bool := !sparse || ctxSpn s.core.mctx != 0

/-- The two operands of MMA or MMAS checked and accepted (16 R336, R343, R344). -/
def mmaEff (sparse : Bool) (d : Sys2Proof.Acc) (ga gb : Word) (s : State) : Eff :=
  let c := s.core.mctx
  let na := aBytes sparse c
  let nb := bBytes sparse c
  if sparseOk sparse s = false then matFormat 3
  else
    withMat .load ga na s fun ax ao => withMat .load gb nb s fun bx bo =>
      if matBusy ax ao na s || matBusy bx bo nb s then .hold s .stalled
      else
        let go (t : State) : Eff := accept (opOf (if sparse then .mmas else .mma) d.toNat ax ao bx bo [winAt ax ao na, winAt bx bo nb] t) t
        if sparse then metaCheck ga ax ao c s go else go s

/-- The registers of MMA and its like. -/
def useMat (a b : Reg) : Use := useAB a b

/-- MMA (16 R343). -/
def execMma (d : Sys2Proof.Acc) (a b : Reg) (s : State) : Host.Outcome State Fault Refusal :=
  .next (execFirst (useMat a b) s (matFirst (matWord 0x68 0 d.toNat a.toNat b.toNat) s) fun t => matEff d t fun t => mmaEff false d (getS a t) (getS b t) t)

/-- MMAS (16 R344). -/
def execMmas (d : Sys2Proof.Acc) (a b : Reg) (s : State) : Host.Outcome State Fault Refusal :=
  .next (execFirst (useMat a b) s (matFirst (matWord 0x68 1 d.toNat a.toNat b.toNat) s) fun t => matEff d t fun t => mmaEff true d (getS a t) (getS b t) t)

/-- MREC past its context (16 R348). -/
def mrecEff (d : Sys2Proof.Acc) (ga gb : Word) (s : State) : Eff :=
  let c := s.core.mctx
  let n := tileBytes (ctxA c) (matK (ctxA c))
  if bitsOfCode (ctxA c) ≠ 16 ∨ s.core.prog.nops = 0 then matFormat 3
  else
    withMat .load ga n s fun ax ao => withMat .load gb n s fun bx bo =>
      if matBusy ax ao n s || matBusy bx bo n s then .hold s .stalled
      else accept (opOf .recur d.toNat ax ao bx bo [winAt ax ao n, winAt bx bo n] s) s

/-- MREC (16 R348). -/
def execMrec (d : Sys2Proof.Acc) (a b : Reg) (s : State) : Host.Outcome State Fault Refusal :=
  .next (execFirst (useMat a b) s (matFirst (matWord 0x68 4 d.toNat a.toNat b.toNat) s) fun t => matEff d t fun t => mrecEff d (getS a t) (getS b t) t)

/-- MFMT (16 R340, R341): it waits for every accepted operation, then checks the descriptor. -/
def execMfmt (a : Reg) (s : State) : Host.Outcome State Fault Refusal :=
  .next (execFirst (useA a) s (matFirst (matWord 0x69 0 0 a.toNat 0) s) fun t =>
    if t.core.matq.isEmpty = false then .hold t .stalled
    else if mfmtOk (getS a t) = false then matFormat 1
    else .ok { t with core := { t.core with mctx := getS a t } })

/-- MZERO (16 R342). -/
def execMzero (d : Sys2Proof.Acc) (s : State) : Host.Outcome State Fault Refusal :=
  .next (execFirst useNone s (matFirst (matWord 0x69 1 d.toNat 0 0) s) fun t => matEff d t fun t => accept (opOf .zero d.toNat 0 0 0 0 [] t) t)

/-- An accepted operation names one of the accumulators (16 R342). -/
def accBusy (d : Nat) (s : State) : Bool :=
  s.core.matq.any fun o => (accsOf o.ctx o.d).any fun x => (accsOf s.core.mctx d).contains x

/-- The bytes of an accumulator image (16 R337). -/
def imageBytes (c : Word) : Nat := if ctxTy c = .f64 then 8192 else 4096

/-- The slice cycles of MLDC and MSTC (16 R340). -/
def ldstCycles (c : Word) : Nat := if ctxTy c = .f64 then 32 else 16

/-- Slice cycles charged to the focused launch (16 R340). -/
def chargeM (n : Nat) (s : State) : State := modLaunch (myPid s) (myLid s) (Launch.charge 1 n) s

/-- The elements of an accumulator image held as a little-endian number. -/
def imageElems (c : Word) (x : Nat) : List Nat :=
  let b := if ctxTy c = .f64 then 64 else 32
  genList 1024 fun k => bitsOf x (b * k) b

/-- MLDC past its context (16 R342). -/
def mldcEff (d : Sys2Proof.Acc) (ga : Word) (s : State) : Eff :=
  let c := s.core.mctx
  let n := imageBytes c
  withMat .load ga n s fun x off =>
    if accBusy d.toNat s || matBusy x off n s then .hold s .stalled
    else
      match readError (lmKey x off) n s with
      | some e => .final (machineError e.1 e.2 s)
      | none =>
        let t := chargeM (ldstCycles c) (correct (lmKey x off) n s)
        .ok { t with core := writeAcc c d.toNat (imageElems c (memValue t.mem n (lmKey x off))) t.core }

/-- MLDC (16 R342). -/
def execMldc (d : Sys2Proof.Acc) (a : Reg) (s : State) : Host.Outcome State Fault Refusal :=
  .next (execFirst (useA a) s (matFirst (matWord 0x69 2 d.toNat a.toNat 0) s) fun t => matEff d t fun t => mldcEff d (getS a t) t)

/-- A list of bytes in pieces of 8. -/
def pieces8 : Nat → List Byte → List (List Byte)
  | 0, _ => []
  | n + 1, l => l.take 8 :: pieces8 n (l.drop 8)

/-- Relaxed stores of class LM of a block of bytes, 8 bytes each (16 R342; 13 R283). -/
def storeBlock (x : Nat) (ga : Word) : Nat → List (List Byte) → State → State
  | _, [], s => s
  | off, p :: ps, s => storeBlock x (ga + 8) (off + 8) ps (retireStore (lmKey x off) 0 .lm ga p none s)

/-- The rounding mode of MSTC: ORM, or STATUS.RM for 7 (16 R332). -/
def ormMode (n : Nat) (s : State) : Rnd := if n = 7 then rmOf s else rndOfCode n

/-- The draws of a conversion: 1,024 for one that rounds under SR (16 R342, R351). -/
def convDraws (f : Nat) (m : Rnd) : Nat := if (f = 1 ∨ f = 2) ∧ m = .sr then 1024 else 0

/-- MSTC past its context (16 R342). -/
def mstcEff (d : Sys2Proof.Acc) (ga : Word) (s : State) : Eff :=
  let c := s.core.mctx
  let f := ctxOfmt c
  let n := 1024 * ofmtBytes (ctxTy c) f
  let m := ormMode (ctxOrm c) s
  withMat .store ga n s fun x off =>
    if accBusy d.toNat s || matBusy x off n s then .hold s .stalled
    else
      let r := storeImage (ctxTy c) f m (drawOf s) (readAcc c d.toNat s.core)
      let t := chargeM (ldstCycles c) (useDraws (convDraws f m) s)
      .ok (storeBlock x ga off (pieces8 (n / 8) r.1) { t with core := t.core.accrueM r.2 })

/-- MSTC (16 R342). -/
def execMstc (d : Sys2Proof.Acc) (a : Reg) (s : State) : Host.Outcome State Fault Refusal :=
  .next (execFirst (useA a) s (matFirst (matWord 0x69 3 d.toNat a.toNat 0) s) fun t => matEff d t fun t => mstcEff d (getS a t) t)

/-- MUPROG past ILLEGAL (16 R347): it waits for every accepted MREC. -/
def muprogEff (ga : Word) (s : State) : Eff :=
  withMat .load ga 32 s fun x off =>
    if (s.core.matq.any fun o => o.kind == .recur) || matBusy x off 32 s then .hold s .stalled
    else
      match readError (lmKey x off) 32 s with
      | some e => .final (machineError e.1 e.2 s)
      | none =>
        let t := correct (lmKey x off) 32 s
        match microProgOf (memValue t.mem 32 (lmKey x off)) with
        | some p => .ok { t with core := { t.core with prog := p } }
        | none => matFormat 4

/-- MUPROG (16 R347). -/
def execMuprog (a : Reg) (s : State) : Host.Outcome State Fault Refusal :=
  .next (execFirst (useA a) s (matFirst (matWord 0x69 4 0 a.toNat 0) s) fun t => muprogEff (getS a t) t)

/-! ## The gang barrier (16 R345, R346) -/

/-- The arrivals of the quad of the focused core that belong to the focused launch, members 0 to 3. -/
def gangArrivals (s : State) : List (Nat × Option GangArrival) :=
  (List.range 4).map fun m =>
    let c := quadCore s.here m
    (c, if (getCore c s).owner = some (myPid s, myLid s) then (getCore c s).gang else none)

/-- What members must agree on: selector, AFMT, BFMT and SPN (16 R339). -/
def GangArrival.sig (g : GangArrival) : Bool × Nat × Nat × Nat := (g.sparse, ctxA g.ctx, ctxB g.ctx, ctxSpn g.ctx)

/-- The four open arrivals of the quad, once all members have arrived. -/
def gangFull (s : State) : Option (List (Nat × GangArrival)) :=
  let l := (gangArrivals s).filterMap fun p => p.2.bind fun g => if g.open_ then some (p.1, g) else none
  if l.length = 4 then some l else none

/-- The members whose selector or formats differ from member 0's, as a mask (16 R339). -/
def gangMask : List (Nat × GangArrival) → Nat
  | [] => 0
  | (c0, g0) :: rest =>
    (((c0, g0) :: rest).map fun p => if p.2.sig = g0.sig then 0 else 2 ^ memberOf p.1).foldl (fun a b => a + b) 0

/-- The arrival of a core changed by `f`. -/
def modGang (c : Nat) (f : GangArrival → GangArrival) (s : State) : State :=
  modCore c (fun k => { k with gang := k.gang.map f }) s

/-- The joint operation of member m: A row-block m div 2 and B column-block m mod 2 (16 R345). -/
def gangOp (l : List (Nat × GangArrival)) (m q : Nat) (g : GangArrival) (s : State) : MatOp :=
  let a := nth? l (if m / 2 = 0 then 0 else 2)
  let b := nth? l (m % 2)
  { kind := if g.sparse then .mmas else .mma, gang := true, d := g.d, ctx := g.ctx,
    aCore := (a.map fun p => p.2.aCore).getD 0, aOff := (a.map fun p => p.2.aOff).getD 0,
    bCore := (b.map fun p => p.2.bCore).getD 0, bOff := (b.map fun p => p.2.bOff).getD 0,
    wins := g.wins, prog := MicroProg.none, seq := q, tid := g.tid, pid := myPid s, lid := myLid s }

/-- The joint operation is accepted by one member, as its next operation (16 R345). -/
def gangStart1 (l : List (Nat × GangArrival)) (s : State) (p : Nat × GangArrival) : State :=
  let g : GangArrival := { p.2 with started := true }
  modCore p.1 (fun k => { k with matq := gangOp l (memberOf p.1) s.seq p.2 s :: k.matq, gang := some g })
    { s with seq := s.seq + 1 }

/-- The fourth arrival decides (16 R345). -/
def gangDecide (s : State) : State :=
  match gangFull s with
  | none => s
  | some l =>
    let mask := gangMask l
    if mask = 0 then l.foldl (gangStart1 l) s
    else l.foldl (fun t p => modGang p.1 (fun g => { g with decided := some { code := 0x6A, detail := mask, val := 0 } }) t) s

/-- The arrival at the gang barrier is the focused thread set's. -/
def gangMine (s : State) : Option GangArrival := s.core.gang.filter fun g => g.tid == s.tid

/-- GANG_MISMATCH, where the barrier has decided it for the MGANG of the focused thread set (16 R339, R345). -/
def gangMismatch (s : State) : Option State :=
  ((gangMine s).bind fun g => g.decided).map fun c => takeTrap c.code c.detail c.val false { s with core := { s.core with gang := none } }

/-- What a MGANG that has arrived comes to (16 R345). -/
def gangWait (s : State) : Eff :=
  match gangMine s with
  | none => .hold s .waiting
  | some g => if g.started then .ok { s with core := { s.core with gang := none } } else .hold s .waiting

/-- An arrival at the gang barrier with its operands checked, which waits for the next phase where the core has arrived in this one (16
R345). -/
def gangArrive (sparse : Bool) (d : Sys2Proof.Acc) (ax ao bx bo : Nat) (wins : List Window) (s : State) : Eff :=
  if s.core.gang.isSome then .hold s .waiting
  else if 96 < windowCount s + wins.length then .hold s .stalled
  else
    let g : GangArrival := { tid := s.tid, sparse := sparse, d := d.toNat, aCore := ax, aOff := ao, bCore := bx, bOff := bo,
                             wins := wins, ctx := s.core.mctx, decided := none, started := false }
    gangWait (gangDecide { s with core := { s.core with gang := some g } })

/-- The operands that this member supplies checked, and its arrival (16 R345). -/
def gangOperands (sparse : Bool) (d : Sys2Proof.Acc) (ga gb : Word) (s : State) : Eff :=
  let c := s.core.mctx
  let m := memberOf s.here
  let na := aBytes sparse c
  let nb := bBytes sparse c
  let withB (ax ao : Nat) (wa : List Window) (s : State) : Eff :=
    if m < 2 then
      withMat .load gb nb s fun bx bo =>
        if matBusy bx bo nb s then .hold s .stalled else gangArrive sparse d ax ao bx bo (wa ++ [winAt bx bo nb]) s
    else gangArrive sparse d ax ao 0 0 wa s
  if sparseOk sparse s = false then matFormat 3
  else if m = 0 ∨ m = 2 then
    withMat .load ga na s fun ax ao =>
      if matBusy ax ao na s then .hold s .stalled
      else
        -- the address of b is reported before the metadata of a (16 R339)
        let go := withB ax ao [winAt ax ao na]
        if sparse then
          (match if m = 0 then matAddr gb nb s else .ok 0 0 with
           | .bad _ => go s
           | .ok _ _ => metaCheck ga ax ao c s go)
        else go s
  else withB 0 0 [] s

/-- MGANG (16 R345, R346). -/
def gangEff (sparse : Bool) (d : Sys2Proof.Acc) (ga gb : Word) (s : State) : Eff :=
  if (gangMine s).isSome then gangWait s
  else if s.core.matq.isEmpty = false then .hold s .waiting
  else matEff d s fun t => gangOperands sparse d ga gb t

/-- ILLEGAL with DETAIL 2 of MGANG: also where the rectangle holds no whole quad (16 R345). -/
def gangFirst (w : Raw) (s : State) : Option Cause :=
  if rectLgh s.ts.rect < 2 then some { code := 1, detail := 2, val := evalWord w } else matFirst w s

/-- MGANG_MMA (16 R345). -/
def execMgangMma (d : Sys2Proof.Acc) (a b : Reg) (s : State) : Host.Outcome State Fault Refusal :=
  .next ((gangMismatch s).getD (execFirst (useMat a b) s (gangFirst (matWord 0x68 2 d.toNat a.toNat b.toNat) s) fun t =>
    gangEff false d (getS a t) (getS b t) t))

/-- MGANG_MMAS (16 R345). -/
def execMgangMmas (d : Sys2Proof.Acc) (a b : Reg) (s : State) : Host.Outcome State Fault Refusal :=
  .next ((gangMismatch s).getD (execFirst (useMat a b) s (gangFirst (matWord 0x68 3 d.toNat a.toNat b.toNat) s) fun t =>
    gangEff true d (getS a t) (getS b t) t))

/-! ## Running an accepted operation (16 R331, R338, R340) -/

/-- The rows of the A operand of an operation. -/
def opRows (o : MatOp) (s : State) : List (List FVal) :=
  let code := ctxA o.ctx
  match o.kind with
  | .mmas =>
    let ks := 2 * matK code
    let n := spnN (ctxSpn o.ctx)
    let vb := sparseValueBytes code ks n
    sparseLines code ks n (memValue s.mem vb (lmKey o.aCore o.aOff)) (memValue s.mem (metaBytes ks) (lmKey o.aCore (o.aOff + vb)))
      (memValue s.mem (scaleBytes code ks) (lmKey o.aCore (o.aOff + vb + metaBytes ks)))
  | .mma | .recur | .zero =>
    let k := matK code
    denseLines code k (memValue s.mem (denseBytes code k) (lmKey o.aCore o.aOff))
      (memValue s.mem (scaleBytes code k) (lmKey o.aCore (o.aOff + denseBytes code k)))

/-- The depth of the B operand of an operation. -/
def opDepth (o : MatOp) : Nat :=
  match o.kind with
  | .mmas => 2 * matK (ctxB o.ctx)
  | .mma | .recur | .zero => matK (ctxB o.ctx)

/-- The columns of the B operand of an operation. -/
def opCols (o : MatOp) (s : State) : List (List FVal) :=
  let code := ctxB o.ctx
  let k := opDepth o
  denseLines code k (memValue s.mem (denseBytes code k) (lmKey o.bCore o.bOff))
    (memValue s.mem (scaleBytes code k) (lmKey o.bCore (o.bOff + denseBytes code k)))

/-- An uncorrectable error in the operands of an operation (01 R24). -/
def opError (o : MatOp) (s : State) : Option (Nat × Word) :=
  match o.kind with
  | .zero => none
  | .mma | .recur | .mmas =>
    match readError (lmKey o.aCore o.aOff) (aBytes (o.kind == .mmas) o.ctx) s with
    | some e => some e
    | none => readError (lmKey o.bCore o.bOff) (bBytes (o.kind == .mmas) o.ctx) s

/-- The slice cycles of an operation (16 R340). -/
def opCycles (o : MatOp) : Nat :=
  match o.kind with
  | .zero => 1
  | .mma => 32
  | .mmas => 16 * ctxSpn o.ctx
  | .recur => 128

/-- The accumulator after an operation, with the MSTAT bits it sets (16 R338, R348). -/
def opResult (o : MatOp) (s : State) (k : Core) : List Nat × Nat :=
  let acc := readAcc o.ctx o.d k
  match o.kind with
  | .zero => (genList 1024 fun _ => 0, 0)
  | .mma | .mmas =>
    let rows := opRows o s
    let cols := opCols o s
    let r := mmaOp (ctxTy o.ctx) acc rows cols
    (r.1, r.2 ||| blockNaN (ctxA o.ctx) rows ||| blockNaN (ctxB o.ctx) cols)
  | .recur => recOp o.prog acc (opRows o s) (opCols o s)

/-- A machine error met by an accepted operation is one of its thread set (19 R374). -/
def opFails (c : Nat) (o : MatOp) (e : Nat × Word) (s : State) : State :=
  killLaunch o.pid o.lid 3
    (writeFault o.pid { kind := 3, code := e.1, detail := 0, tsid := o.tid, lid := o.lid, addr := e.2, coord := coordOf c,
                        pc := (getTs c o.tid s).pc.toNat } (modCore c (fun k => { k with meloc := e.2 }) s))

/-- The single errors of the operands of an operation corrected and counted (01 R24). -/
def opCorrect (o : MatOp) (s : State) : State :=
  match o.kind with
  | .zero => s
  | .mma | .recur | .mmas =>
    correct (lmKey o.bCore o.bOff) (bBytes (o.kind == .mmas) o.ctx) (correct (lmKey o.aCore o.aOff) (aBytes (o.kind == .mmas) o.ctx) s)

/-- The operation at the head of a core's queue is performed (16 R338). -/
def performOp (c : Nat) (s : State) : State :=
  match (getCore c s).matq with
  | [] => s
  | o :: rest =>
    let t := modCore c (fun k => { k with matq := rest, sliceTurn := true }) (modLaunch o.pid o.lid (Launch.charge 1 (opCycles o)) s)
    match opError o s with
    | some e => opFails c o e t
    | none =>
      let r := opResult o s (getCore c s)
      modCore c (fun k => (writeAcc o.ctx o.d r.1 k).accrueM r.2) (opCorrect o t)

/-- The joint operation stands at the head of all four members' queues (16 R345). -/
def gangReady (c : Nat) (s : State) : Bool :=
  (List.range 4).all fun m => match (getCore (quadCore c m) s).matq with
    | o :: _ => o.gang
    | [] => false

/-- The slice of a core owes its next turn to a chunk of its owner that is ready (16 R331). -/
def chunkTurn (c : Nat) (s : State) : Bool :=
  (getCore c s).sliceTurn && (getCore c s).pre == .none && ownerChunk c s

/-- MATRIX_OPERATION (16 R331, R338, R345): the slice of a core runs the operation at the head of its queue; a joint one
runs on all four slices, each block read once. -/
def execMatrixOperation (core : Nat) (s : State) : Host.Outcome State Fault Refusal :=
  .next (match (getCore core s).matq with
    | [] => s
    | o :: _ =>
      if (clocked s core = false) ∨ ((List.range 4).any fun m => (quadCore core m == core || o.gang) && chunkTurn (quadCore core m) s) = true then s
      else if o.gang then
        (if gangReady core s then (List.range 4).foldl (fun t m => performOp (quadCore core m) t) s else s)
      else performOp core s)

/-- MATRIX_SELF_TEST (25 R474): the slice of a core is tested; nothing that software can read changes. -/
def execMatrixSelfTest (core : Nat) (s : State) : Host.Outcome State Fault Refusal :=
  .next (modCore core (fun k => { k with selfTested := s.time }) s)

end Sys2Proof.Machine
end

