-- ==== Sys2Proof/Machine/MatrixCmds.lean ====
section
/-! DEFINITION. The tile commands TMMA, TMMAS and TMREC (16 R349 to R351). -/
namespace Sys2Proof.Machine

/-! ## Operands (16 R349) -/

/-- AFMT. -/
def Cmd.afmt (m : Cmd) : Nat := m.field 146 4
/-- BFMT. -/
def Cmd.bfmt (m : Cmd) : Nat := m.field 142 4
/-- CFMT. -/
def Cmd.cfmt (m : Cmd) : Nat := m.field 138 4
/-- ORM. -/
def Cmd.orm (m : Cmd) : Nat := m.field 135 3
/-- ACC. -/
def Cmd.accIn (m : Cmd) : Bool := bitOf m.tcw.toNat 134
/-- SPN. -/
def Cmd.spn (m : Cmd) : Nat := m.field 132 2
/-- MB. -/
def Cmd.mb (m : Cmd) : Nat := m.field 126 6
/-- NB. -/
def Cmd.nb (m : Cmd) : Nat := m.field 120 6
/-- KB. -/
def Cmd.kb (m : Cmd) : Nat := m.field 112 8
/-- AADR. -/
def Cmd.aadr (m : Cmd) : Nat := m.field 96 16
/-- BADR. -/
def Cmd.badr (m : Cmd) : Nat := m.field 80 16
/-- CADR. -/
def Cmd.cadr (m : Cmd) : Nat := m.field 64 16
/-- SVE. -/
def Cmd.sve (m : Cmd) : Bool := bitOf m.tcw.toNat 63
/-- SVS. -/
def Cmd.svs (m : Cmd) : Nat := m.field 58 5
/-- UADR. -/
def Cmd.uadr (m : Cmd) : Nat := m.field 32 16

/-- The member core of an address field (16 R349). -/
def adrCore (c a : Nat) : Nat := quadCore c (a / 2 ^ 14)
/-- The offset of an address field (16 R349). -/
def adrOff (a : Nat) : Nat := a % 2 ^ 14 * 64

/-- The accumulator type of a tile command. -/
def Cmd.accTy (m : Cmd) : AccTy := Sys2Proof.Machine.accTy m.afmt m.bfmt
/-- The command is TMMAS. -/
def Cmd.isSparse (m : Cmd) : Bool := m.opc == 0x02
/-- The command is TMREC. -/
def Cmd.isRec (m : Cmd) : Bool := m.opc == 0x03
/-- Kc (16 R349). -/
def Cmd.depth (m : Cmd) : Nat := if m.isSparse then 2 * matK m.afmt else matK m.afmt
/-- The scale bytes S of one A tile (16 R349). -/
def Cmd.scaleS (m : Cmd) : Nat := scaleBytes m.afmt m.depth
/-- The bytes of an A tile in local memory (16 R349). -/
def Cmd.ta (m : Cmd) : Nat :=
  (if m.isSparse then sparseBytes m.afmt m.depth (spnN m.spn) else tileBytes m.afmt m.depth) - if m.sve then m.scaleS else 0
/-- The bytes of a B tile (16 R349). -/
def Cmd.tb (m : Cmd) : Nat := tileBytes m.bfmt m.depth
/-- The bytes of a C block (16 R342, R349). -/
def Cmd.tc (m : Cmd) : Nat := 1024 * ofmtBytes m.accTy m.cfmt

/-- The bytes that A, B and C take. -/
def Cmd.aSize (m : Cmd) : Nat := m.ta * m.mb * m.kb
/-- See `Cmd.aSize`. -/
def Cmd.bSize (m : Cmd) : Nat := m.tb * m.nb * m.kb
/-- See `Cmd.aSize`. -/
def Cmd.cSize (m : Cmd) : Nat := m.tc * m.mb * m.nb

/-- The registers that hold the A scales under SVE (16 R349). -/
def Cmd.scaleRegs (m : Cmd) : List Nat :=
  if m.sve then (List.range (ceilDiv (m.mb * m.kb * m.scaleS) 64)).map fun k => (m.svs + k) % 32 else []

/-! ## Checks (16 R350) -/

/-- The end of the local memory that a command may name in a member (16 R336, 20 R396). -/
def lmLimit (c : Nat) (m : Cmd) (s : State) : Nat :=
  if m.ofBank then (cmdTs c m s).wsize - 4096 else if m.f then 0x100000 else 0xFC000

/-- A member core belongs to the command's launch (16 R350; 20 R396). -/
def memberOk (c x : Nat) (m : Cmd) (s : State) : Bool := x == c || (!m.ofBank && inMyRect x (cmdView c m s))

/-- A range of a tile command lies in its member's local memory (16 R350). -/
def tileRangeOk (c a n : Nat) (m : Cmd) (s : State) : Bool :=
  memberOk c (adrCore c a) m s && decide (adrOff a + n ≤ lmLimit c m s)

/-- Two ranges of a tile command overlap. -/
def tilesMeet (a n b k : Nat) : Bool := a / 2 ^ 14 == b / 2 ^ 14 && rangesMeet (adrOff a) n (adrOff b) k

/-- The fields of a tile command meet R349 and R350. -/
def tileFieldsOk (m : Cmd) : Bool :=
  pairOk m.afmt m.bfmt && ofmtOk m.accTy m.cfmt && m.orm != 6 && (!m.accIn || m.cfmt == 0) &&
    (if m.isSparse then m.spn != 0 && decide (bitsOfCode m.afmt ≤ 16) else m.spn == 0) &&
    decide (1 ≤ m.mb) && decide (m.mb ≤ 32) && decide (1 ≤ m.nb) && decide (m.nb ≤ 32) && decide (1 ≤ m.kb) &&
    (!m.sve || (isBlock m.afmt && decide (m.scaleRegs.length ≤ 8))) && m.field 48 10 == 0 && m.field 0 32 == 0 &&
    (if m.isRec then bitsOfCode m.afmt == 16 && decide (m.cfmt ≤ 2) else m.uadr == 0)

/-- The operand checks of a tile command but for its microprogram (16 R350). -/
def tileOk (c : Nat) (m : Cmd) (s : State) : Bool :=
  tileFieldsOk m && tileRangeOk c m.aadr m.aSize m s && tileRangeOk c m.badr m.bSize m s && tileRangeOk c m.cadr m.cSize m s &&
    (!m.isRec || tileRangeOk c m.uadr 32 m s) && !tilesMeet m.cadr m.cSize m.aadr m.aSize &&
    !tilesMeet m.cadr m.cSize m.badr m.bSize

/-- The local-memory offset, in the core, of an offset that a command names (20 R396). -/
def trueOff (c off : Nat) (m : Cmd) (s : State) : Nat := if m.ofBank then (cmdTs c m s).wbase + off else off

/-- The windows of a tile command: A and B to read, C to write (15 R327, 16 R351); none where its fields break a limit. -/
def tileWindows (c : Nat) (m : Cmd) (s : State) : List Window × List Window :=
  if tileOk c m s then
    ([winAt (adrCore c m.aadr) (trueOff c (adrOff m.aadr) m s) m.aSize, winAt (adrCore c m.badr) (trueOff c (adrOff m.badr) m s) m.bSize],
     [winAt (adrCore c m.cadr) (trueOff c (adrOff m.cadr) m s) m.cSize])
  else ([], [])

/-- The draws that a tile command reserves (16 R351). -/
def tileDraws (m : Cmd) (rm : Rnd) : Nat := convDraws m.cfmt rm * (m.mb * m.nb)

/-! ## Chunks (16 R351) -/

/-- The generic address of an offset in a core's local memory, for the issuing core `c` (11 R235). -/
def gaOf (c x off : Nat) : Word := if x = c then lmGa off else w64 (0x401 * 2 ^ 53 + rowOf x * 2 ^ 26 + colOf x * 2 ^ 20 + off)

/-- A range of a member's local memory reached by a tile command (16 R350; 20 R396, R400). -/
def tileReach (c x off n : Nat) (m : Cmd) (k : Kind) (s : State) : CAcc :=
  let v := cmdView c m s
  if away c m s then .wait s
  else viewAcc (gaOf c x off) s (if x = c then ownLm off n k v else remoteLm x off n k v)

/-- A range of a member's local memory read by a tile command, as a number. -/
def tileRead (c x off n : Nat) (m : Cmd) (s : State) (f : Nat → State → Chunk) : Chunk :=
  match tileReach c x off n m .load s with
  | .ok t key _ _ =>
    (match readError key n t with
     | some e => .err e.2
     | none => f (memValue t.mem n key) (correct key n t))
  | .fault t code detail addr => .fault t code detail addr
  | .wait t => .wait t
  | .merr _ loc => .err loc

/-- Slice cycles charged, counted in UNITS (15 R328, 16 R351). -/
def Cmd.addUnits (n : Nat) (m : Cmd) : Cmd := { m with units := m.units + n }

/-- MSTAT bits of a command accrue in the core that enqueued it (16 R334). -/
def cmdMstat (c : Nat) (m : Cmd) (n : Nat) (s : State) : State :=
  if m.tid < 4 then modOwned m.pid m.lid c (Core.accrueM n) s else modCore c (Core.accrueM n) s

/-- Draw `k` after the base of a command's reservation (16 R351, 23 R449). -/
def cmdDraw (m : Cmd) (k : Nat) : Nat := srDraw m.srKey.1 m.srKey.2.1 m.srKey.2.2 (m.srBase + k)

/-- The scales of A tile t under SVE, from the copies of the registers (16 R349). -/
def sveScales (t : Nat) (m : Cmd) : Nat :=
  bitsOf (m.lockCopy.foldr (fun p acc => p.2.toNat + 2 ^ 512 * acc) 0) (8 * (t * m.scaleS)) (8 * m.scaleS)

/-- The lock bits still needed from A tile t on (15 R326, 16 R351). -/
def locksFrom (t : Nat) (m : Cmd) : List Nat := m.scaleRegs.drop (t * m.scaleS / 64)

/-- The A rows of tile `t` from its bytes as a number (16 R335, R344, R349). -/
def tileRows (t x : Nat) (m : Cmd) : List (List FVal) :=
  let d := m.depth
  if m.isSparse then
    let n := spnN m.spn
    let vb := sparseValueBytes m.afmt d n
    let md := bitsOf x (8 * vb) (8 * metaBytes d)
    let sc := if m.sve then sveScales t m else x / 2 ^ (8 * (vb + metaBytes d))
    sparseLines m.afmt d n (x % 2 ^ (8 * vb)) md sc
  else
    let db := denseBytes m.afmt d
    denseLines m.afmt d (x % 2 ^ (8 * db)) (if m.sve then sveScales t m else x / 2 ^ (8 * db))

/-- The B columns of a tile from its bytes as a number. -/
def tileCols (x : Nat) (m : Cmd) : List (List FVal) :=
  let db := denseBytes m.bfmt m.depth
  denseLines m.bfmt m.depth (x % 2 ^ (8 * db)) (x / 2 ^ (8 * db))

/-- The first mask of an A tile whose popcount is not N, as its byte offset in the tile (16 R350). -/
def tileBadMask (x : Nat) (m : Cmd) : Option Nat :=
  if m.isSparse then
    let vb := sparseValueBytes m.afmt m.depth (spnN m.spn)
    (badMask m.depth (spnN m.spn) (bitsOf x (8 * vb) (8 * metaBytes m.depth))).map fun j => vb + 16 * j
  else none

/-- The slice cycles of one depth chunk (16 R340). -/
def Cmd.chunkCycles (m : Cmd) : Nat := if m.isRec then 128 else if m.isSparse then 16 * m.spn else 32

/-- The microprogram of TMREC, read at start. -/
def Cmd.micro (m : Cmd) : MicroProg := (microProgOf (leValue m.blk)).getD MicroProg.none

/-- The load of block (i, j) (16 R351). -/
def tileLoad (c i j : Nat) (m : Cmd) (s : State) : Chunk :=
  let m1 := { (m.addUnits 16) with pos := m.pos + 1 }
  let s1 := chargeCmd 1 16 m s
  if m.accIn then
    tileRead c (adrCore c m.cadr) (adrOff m.cadr + m.tc * (i * m.nb + j)) m.tc m s fun x t =>
      let b := 8 * ofmtBytes m.accTy 0
      .go (chargeCmd 1 16 m t) { m1 with acc := genList 1024 fun k => bitsOf x (b * k) b }
  else .go s1 { m1 with acc := genList 1024 fun _ => if m.isRec then m.micro.init.toNat else 0 }

/-- One depth chunk of block (i, j) (16 R351). -/
def tileChunk (c i j k : Nat) (m : Cmd) (s : State) : Chunk :=
  let t := i * m.kb + k
  let ax := adrCore c m.aadr
  let ao := adrOff m.aadr + m.ta * t
  tileRead c ax ao m.ta m s fun x s1 =>
    tileRead c (adrCore c m.badr) (adrOff m.badr + m.tb * (j * m.kb + k)) m.tb m s1 fun y s2 =>
      match tileBadMask x m with
      | some o => .at_ s2 m 0x40 (gaOf c ax (ao + o))
      | none =>
        let rows := tileRows t x m
        let cols := tileCols y m
        let r := if m.isRec then recOp m.micro m.acc rows cols else mmaOp m.accTy m.acc rows cols
        let st := r.2 ||| (if m.isRec then 0 else blockNaN m.afmt rows ||| blockNaN m.bfmt cols)
        let left := locksFrom (if j + 1 < m.nb then i * m.kb else t + 1) m
        let last := decide (i + 1 = m.mb) && decide (j + 1 = m.nb) && decide (k + 1 = m.kb)
        .go (chargeCmd 1 m.chunkCycles m (cmdMstat c m st s2))
          { (m.addUnits m.chunkCycles) with pos := m.pos + 1, acc := r.1, locks := if m.locks.isEmpty then [] else left,
                                            reads := if last then [] else m.reads }

/-- The store of block (i, j) (16 R351). -/
def tileStore (c i j : Nat) (m : Cmd) (s : State) : Chunk :=
  let n := i * m.nb + j
  let x := adrCore c m.cadr
  let off := adrOff m.cadr + m.tc * n
  let r := storeImage m.accTy m.cfmt m.rm (fun k => cmdDraw m (1024 * n + k)) m.acc
  let cyc := if m.accTy = .f64 then 32 else 16
  match tileReach c x off m.tc m .store s with
  | .ok t key _ _ =>
    let t1 := chargeCmd 1 cyc m (cmdMstat c m r.2 (land key r.1 0 t))
    let m1 := { (m.addUnits cyc) with pos := m.pos + 1 }
    if i + 1 = m.mb ∧ j + 1 = m.nb then .ends t1 m1 0 else .go t1 m1
  | .fault t code detail addr => .fault t code detail addr
  | .wait t => .wait t
  | .merr _ loc => .err loc

/-- The next chunk of a tile command (16 R351). -/
def tileStep (c _cq : Nat) (m : Cmd) (s : State) : Chunk :=
  let p := m.pos % (m.kb + 2)
  let b := m.pos / (m.kb + 2)
  let i := b / m.nb
  let j := b % m.nb
  if p = 0 then tileLoad c i j m s
  else if p = m.kb + 1 then tileStore c i j m s
  else tileChunk c i j (p - 1) m s

/-- The start of a tile command: its operand checks, and the microprogram of TMREC (16 R350). -/
def tileStart (c _cq : Nat) (m : Cmd) (s : State) : Chunk :=
  if tileOk c m s = false then .bad
  else if m.isRec then
    tileRead c (adrCore c m.uadr) (adrOff m.uadr) 32 m s fun x t =>
      if (microProgOf x).isNone then .bad else .go t { m with started := true, blk := leBytes 32 x }
  else .go s { m with started := true }

/-- TMMA (16 R351): the next chunk of command `n` of queue `cq` of core `c`. -/
def execTmma (core cq n : Nat) (s : State) : Host.Outcome State Fault Refusal :=
  .next (runCmd 0x01 core cq n tileStart tileStep s)

/-- TMMAS (16 R351). -/
def execTmmas (core cq n : Nat) (s : State) : Host.Outcome State Fault Refusal :=
  .next (runCmd 0x02 core cq n tileStart tileStep s)

/-- TMREC (16 R351). -/
def execTmrec (core cq n : Nat) (s : State) : Host.Outcome State Fault Refusal :=
  .next (runCmd 0x03 core cq n tileStart tileStep s)

end Sys2Proof.Machine
end

