-- ==== Sys2Proof/Machine/Transfer.lean ====
section
/-! DEFINITION. The transfer commands COPY, FILL, GATHER32, SCATTER32, MERGE and COMPACT (17 R352 to R363). -/
namespace Sys2Proof.Machine

/-! ## Checks of the operands and the parameter block (17 R352, R353) -/

/-- The fields of the tile command word meet R352, for its opcode. -/
def xferFieldsOk (m : Cmd) : Bool :=
  let esz := m.field 132 4
  m.field 0 113 == 0 &&
    (match m.opc with
     | 0x10 | 0x11 => decide (esz ≤ 3) && m.vt == 0 && m.field 122 6 == 0 && !m.isrc && m.dth == 0
     | 0x12 | 0x13 => decide (esz ≤ 3) && m.ndim == 0 && m.vt == 0 && decide (m.nrows ≤ 32) && m.dth == 0
     | 0x14 => esz == 0 && m.ndim == 0 && m.vt != 3 && m.field 122 6 == 0 && !m.isrc
     | _ => esz == 0 && m.ndim == 0 && m.vt != 3 && m.field 122 6 == 0 && !m.isrc && m.dth == 0)

/-- The block of COPY or FILL meets R353. -/
def patternOk (m : Cmd) (x : Nat) : Bool :=
  (List.range 4).all (fun k =>
    let c := blkAt x (16 + 4 * k) 4
    c != 0 && (decide (k ≤ m.ndim) || (c == 1 && blkAt x (32 + 8 * k) 8 == 0 && blkAt x (64 + 8 * k) 8 == 0))) &&
    decide (blkTotal x ≤ 2 ^ 40) && (m.opc == 0x10 || blkAt x 32 32 == 0) && blkAt x 96 32 == 0

/-- The block of GATHER32 or SCATTER32 meets R353. -/
def rowsOk (m : Cmd) (x : Nat) : Bool :=
  let rb := blkAt x 16 4
  decide (8 ≤ rb) && decide (rb ≤ 4096) && rb % m.eb == 0 && blkAt x 20 4 == 0 && blkAt x 48 80 == 0 &&
    blkAt x 40 8 % 64 == 0 && (m.isrc || blkAt x 40 8 == 0)

/-- The block of MERGE meets R353. -/
def mergeOk (x : Nat) : Bool :=
  decide (blkAt x 16 4 ≤ 2 ^ 31) && decide (blkAt x 20 4 ≤ 2 ^ 31) && decide (blkAt x 32 4 ≤ 2 ^ 31) &&
    decide (1 ≤ blkAt x 36 4) && decide (blkAt x 36 4 ≤ 2 ^ 31) && blkAt x 40 80 == 0

/-- The block of COMPACT meets R353. -/
def compactOk (x : Nat) : Bool :=
  decide (1 ≤ blkAt x 16 4) && decide (blkAt x 16 4 ≤ 2 ^ 31) && decide (blkAt x 24 4 ≤ 2 ^ 31) &&
    decide (blkAt x 20 4 + blkAt x 16 4 ≤ 2 ^ 32) && blkAt x 28 92 == 0

/-- The parameter block of a transfer command meets R353. -/
def blockOk (m : Cmd) (x : Nat) : Bool :=
  match m.opc with
  | 0x10 | 0x11 => patternOk m x
  | 0x12 | 0x13 => rowsOk m x
  | 0x14 => mergeOk x
  | _ => compactOk x

/-! ## Ranges and windows (17 R354, R358) -/

/-- What a range is for the quad: outside it, in it and misplaced, or a window (17 R354, R358). -/
inductive RangeIs where
  | outside
  | bad
  | win (w : Window)
  deriving DecidableEq, Repr

/-- A range in the local memory of core `x` (17 R354). -/
def rangeIn (c x off : Nat) (r : Span) (m : Cmd) (s : State) : RangeIs :=
  if r.hi ≤ r.lo then .outside
  else
    let lo := (off : Int) + r.lo
    let hi := (off : Int) + r.hi
    if memberOk c x m s = false ∨ lo < 0 ∨ (lmLimit c m s : Int) < hi then .bad
    else .win { core := x, lo := trueOff c lo.toNat m s, hi := trueOff c hi.toNat m s }

/-- What a range is (17 R354, R358). -/
def rangeIs (c : Nat) (r : Span) (m : Cmd) (s : State) : RangeIs :=
  let g := r.base.toNat
  let tag := g / 2 ^ 53
  if tag = 0x400 ∧ bitsOf g 20 33 = 0 then rangeIn c c (bitsOf g 0 20) r m s
  else if tag = 0x401 ∧ bitsOf g 31 22 = 0 ∧ m.ofBank = false then
    let x := bitsOf g 26 5 * 64 + bitsOf g 20 6
    if quadCore x 0 = quadCore c 0 then rangeIn c x (bitsOf g 0 20) r m s else .outside
  else .outside

/-- The windows among ranges. -/
def winsOf (c : Nat) (l : List Span) (m : Cmd) (s : State) : List Window :=
  l.filterMap fun r => match rangeIs c r m s with
    | .win w => some w
    | .outside => none
    | .bad => none

/-- The windows of a transfer command, from the enqueue read of its block (17 R353, R358). -/
def xferWindows (c x : Nat) (m : Cmd) (s : State) : List Window × List Window :=
  if xferFieldsOk m && blockOk m x then (winsOf c (readSpans m x) m s, winsOf c (writeSpans m x) m s) else ([], [])

/-! ## Start (17 R353, R354) -/

/-- The indices of an index list, read at start as aligned 4-byte words (17 R360). -/
def readIdx (c cq : Nat) (m : Cmd) : List Word → List Nat → State → (List Nat → State → Chunk) → Chunk
  | [], acc, s, f => f acc s
  | a :: as, acc, s, f =>
    match cmdRead c cq m 4 4 a s with
    | .val b t => readIdx c cq m as (acc ++ [leValue b]) t f
    | .fault t code detail addr => .fault t code detail addr
    | .wait t => .wait t
    | .err loc => .err loc

/-- The read windows that a transfer command still needs once it has read its index list (15 R327): those of the block as the enqueue
read it. -/
def readsLeft (c : Nat) (m : Cmd) (s : State) : List Window :=
  let x := leValue m.blkEnq
  let l := match m.opc with
    | 0x12 => []
    | 0x13 => (readSpans m x).take 1
    | _ => readSpans m x
  m.reads.filter fun w => (winsOf c l m s).contains w

/-- The start of a transfer command (17 R353, R354, R360). -/
def xferStart (c cq : Nat) (m : Cmd) (s : State) : Chunk :=
  if lmLimit c m s < m.pblk + 128 then .bad
  else
    tileRead c c m.pblk 128 m s fun x t =>
      if (xferFieldsOk m && blockOk m x) = false ∨ ((m.opc = 0x12 ∨ m.opc = 0x13) ∧ m.isrc = false ∧ m.byEnqv = false) then .bad
      else if (readSpans m x ++ writeSpans m x).any fun r => rangeIs c r m t == .bad then .bad
      else
        let m1 := { m with started := true, blk := leBytes 128 x, pos := 0, aux := [0, 0, 0, 0], reads := readsLeft c m t }
        if (m.opc = 0x12 ∨ m.opc = 0x13) ∧ m.isrc = true then
          readIdx c cq m (genList m.nrows fun i => w64 (blkAt x 40 8 + 4 * i)) [] t fun l u => .go u { m1 with idx := l }
        else .go t m1

/-! ## Chunks (17 R356, R357) -/

/-- Every address that a chunk will touch translated and checked, in order, before anything is read or written (17 R356). -/
def reachAll (c cq : Nat) (m : Cmd) : List (Kind × Nat × Word) → State → (State → Chunk) → Chunk
  | [], s, f => f s
  | (k, n, a) :: l, s, f =>
    match cmdReach c cq m k n a s with
    | .ok t _ _ _ => reachAll c cq m l t f
    | .fault t code detail addr => .fault t code detail addr
    | .wait t => .wait t
    | .merr _ loc => .err loc

/-- The addresses of elements to be moved, in ascending order. -/
def elemKinds (b : Nat) (l : List (Option Word × Word)) : List (Kind × Nat × Word) :=
  l.flatMap fun e => (e.1.toList.map fun a => (Kind.load, b, a)) ++ [(Kind.store, b, e.2)]

/-- Elements read, or taken from a pattern, and their writes checked, in ascending order; nothing is written yet (17 R356). -/
def moveElems (c cq : Nat) (m : Cmd) (b : Nat) (pat : List Byte) :
    List (Option Word × Word) → List CWrite → State → (List CWrite → State → Chunk) → Chunk
  | [], acc, s, f => f acc.reverse s
  | (src, dst) :: l, acc, s, f =>
    let next (data : List Byte) (t : State) : Chunk :=
      match cmdCheck c cq m dst data t with
      | .ok w u => moveElems c cq m b pat l (w :: acc) u f
      | .fault u code detail addr => .fault u code detail addr
      | .wait u => .wait u
      | .err loc => .err loc
    match src with
    | none => next pat s
    | some a =>
      match cmdRead c cq m b b a s with
      | .val d t => next d t
      | .fault t code detail addr => .fault t code detail addr
      | .wait t => .wait t
      | .err loc => .err loc

/-- Class X charged for bytes, counted in UNITS (17 R357). -/
def Cmd.addBytes (n : Nat) (m : Cmd) : Cmd := m.addUnits (ceilDiv n 64)

/-- One chunk of COPY or FILL (17 R356, R359). -/
def copyStep (c cq : Nat) (m : Cmd) (s : State) : Chunk :=
  let x := leValue m.blk
  let total := blkTotal x
  let n := Nat.min (4096 / m.eb) (total - m.pos)
  let src (k : Nat) : Option Word :=
    if m.opc = 0x10 then some (elemAddr ((blkCounts x).zip (blkStrides x 32)) k (w64 (blkAt x 0 8))) else none
  let dst (k : Nat) : Word := elemAddr ((blkCounts x).zip (blkStrides x 64)) k (w64 (blkAt x 8 8))
  let es := genList n fun i => (src (m.pos + i), dst (m.pos + i))
  reachAll c cq m (elemKinds m.eb es) s fun s1 => moveElems c cq m m.eb (leBytes m.eb (blkAt x 0 8)) es [] s1 fun ws t =>
    let m1 := { (m.addBytes (n * m.eb)) with pos := m.pos + n }
    let t1 := chargeCmd 2 (ceilDiv (n * m.eb) 64) m (cmdWrites m.pid ws t)
    if m1.pos = total then .ends t1 m1 0 else .go t1 m1

/-- The addresses of row i of GATHER32 or SCATTER32: from, to (17 R360). -/
def rowAddrs (m : Cmd) (x i : Nat) : Word × Word :=
  let k := w64 (nth 0 m.idx i) * w64 (blkAt x 24 8)
  let l := w64 i * w64 (blkAt x 32 8)
  if m.opc = 0x12 then (w64 (blkAt x 0 8) + k, w64 (blkAt x 8 8) + l) else (w64 (blkAt x 0 8) + l, w64 (blkAt x 8 8) + k)

/-- One row of GATHER32 or SCATTER32 (17 R356, R360). -/
def rowStep (c cq : Nat) (m : Cmd) (s : State) : Chunk :=
  let x := leValue m.blk
  let rb := blkAt x 16 4
  let skip := nth 0 m.idx m.pos == 0xFFFFFFFF
  let a := rowAddrs m x m.pos
  let es := if skip then [] else genList (rb / m.eb) fun e => (some (a.1 + w64 (e * m.eb)), a.2 + w64 (e * m.eb))
  let n := if skip then 0 else rb
  reachAll c cq m (elemKinds m.eb es) s fun s1 => moveElems c cq m m.eb [] es [] s1 fun ws t =>
    let left := (m.idx.take m.nrows).drop (m.pos + 1)
    let m1 := { (m.addBytes n) with pos := m.pos + 1, reads := if left.all (fun i => i == 0xFFFFFFFF) then [] else m.reads }
    let t1 := chargeCmd 2 (ceilDiv n 64) m (cmdWrites m.pid ws t)
    if m1.pos = m.nrows then .ends t1 m1 0 else .go t1 m1

/-! ## MERGE and COMPACT (17 R361 to R363) -/

/-- The bytes of a record (17 R361). -/
def recordBytes (vt k v : Nat) : List Byte :=
  if vt = 2 then leBytes 4 k ++ leBytes 4 0 ++ leBytes 8 v else leBytes 4 k ++ leBytes 4 v

/-- The sum of two values of a value type (17 R361). -/
def mergeAdd (vt a b : Nat) : Nat :=
  match vt with
  | 0 => (a + b) % 2 ^ 32
  | 1 => (faddV .f32 .rne (fdecode .f32 a) (fdecode .f32 b) 0).1
  | _ => (faddV .f64 .rne (fdecode .f64 a) (fdecode .f64 b) 0).1

/-- Where a MERGE stands: records taken from A and B, the least index that the next record of each may have, the head
records, the output of this chunk in reverse, and the records that this chunk has taken. -/
structure MergeSt where
  ia : Nat
  ib : Nat
  la : Nat
  lb : Nat
  ha : Option (Nat × Nat)
  hb : Option (Nat × Nat)
  out : List (Nat × Nat)
  rd : Nat
  deriving DecidableEq, Repr

/-- What reading a head record comes to. -/
inductive HeadIs where
  | ok (h : Option (Nat × Nat)) (s : State)
  | order (addr : Word) (s : State)
  | stop (r : Chunk)

/-- The head record of one input: record i of n at base, whose index is to be at least `least` and below LEN (17 R361, R363). -/
def mergeHead (c cq : Nat) (m : Cmd) (base : Word) (len i n least : Nat) (h : Option (Nat × Nat)) (s : State) : HeadIs :=
  if h.isSome ∨ n ≤ i then .ok h s
  else
    let z := recBytes m.vt
    let a := base + w64 (i * z)
    match cmdRead c cq m z z a s with
    | .val b t =>
      let k := leValue (b.take 4)
      if k < least ∨ len ≤ k then .order a t else .ok (some (k, leValue (b.drop (if m.vt = 2 then 8 else 4)))) t
    | .fault t code detail addr => .stop (.fault t code detail addr)
    | .wait t => .stop (.wait t)
    | .err loc => .stop (.err loc)

/-- A head taken from its input. -/
def takeA (x : MergeSt) : MergeSt := { x with ia := x.ia + 1, la := (x.ha.map fun h => h.1 + 1).getD x.la, ha := none, rd := x.rd + 1 }
/-- See `takeA`. -/
def takeB (x : MergeSt) : MergeSt := { x with ib := x.ib + 1, lb := (x.hb.map fun h => h.1 + 1).getD x.lb, hb := none, rd := x.rd + 1 }

/-- The next index and value of the merged inputs, taken from them (17 R361). -/
def mergeNext (vt : Nat) (x : MergeSt) : Option (Nat × Nat × MergeSt) :=
  match x.ha, x.hb with
  | none, none => none
  | some a, none => some (a.1, a.2, takeA x)
  | none, some b => some (b.1, b.2, takeB x)
  | some a, some b =>
    if a.1 < b.1 then some (a.1, a.2, takeA x)
    else if b.1 < a.1 then some (b.1, b.2, takeB x)
    else some (a.1, mergeAdd vt a.2 b.2, takeB (takeA x))

/-- What a chunk of MERGE comes to before its writes: how it goes on, and with which status and address it ends, if it
ends. -/
inductive MergeIs where
  | done (x : MergeSt) (st : Option (Nat × Word)) (s : State)
  | stop (r : Chunk)

/-- One chunk of merging: `fuel` records at most, indices below `bound`, and room for `room` records (17 R361, R363). -/
def mergeLoop (c cq : Nat) (m : Cmd) (blk bound : Nat) (sparse : Bool) : Nat → Nat → MergeSt → State → MergeIs
  | 0, _, x, s => .done x none s
  | fuel + 1, room, x, s =>
    let len := blkAt blk 36 4
    match mergeHead c cq m (w64 (blkAt blk 0 8)) len x.ia (blkAt blk 16 4) x.la x.ha s with
    | .stop r => .stop r
    | .order a t => .done x (some (0x48, a)) t
    | .ok ha t =>
      match mergeHead c cq m (w64 (blkAt blk 8 8)) len x.ib (blkAt blk 20 4) x.lb x.hb t with
      | .stop r => .stop r
      | .order a u => .done { x with ha := ha } (some (0x48, a)) u
      | .ok hb u =>
        match mergeNext m.vt { x with ha := ha, hb := hb } with
        | none => .done { x with ha := ha, hb := hb } (some (0, 0)) u
        | some (k, v, y) =>
          if bound ≤ k then .done { x with ha := ha, hb := hb } none u
          else if sparse ∧ room = 0 then .done { x with ha := ha, hb := hb } (some (0x49, 0)) u
          else mergeLoop c cq m blk bound sparse fuel (room - 1) { y with out := (k, v) :: y.out } u

/-- Writes checked in order, none of which faults; nothing is written yet (17 R356). -/
def checkEach (c cq : Nat) (m : Cmd) : List (Word × List Byte) → List CWrite → State → (List CWrite → State → Chunk) → Chunk
  | [], acc, s, f => f acc.reverse s
  | (a, d) :: l, acc, s, f =>
    match cmdCheck c cq m a d s with
    | .ok w t => checkEach c cq m l (w :: acc) t f
    | .fault t code detail addr => .fault t code detail addr
    | .wait t => .wait t
    | .err loc => .err loc

/-- The writes of a chunk checked (17 R356). -/
def checkAll (c cq : Nat) (m : Cmd) (l : List (Word × List Byte)) (s : State) (f : List CWrite → State → Chunk) : Chunk :=
  reachAll c cq m (l.map fun x => (Kind.store, x.2.length, x.1)) s fun t => checkEach c cq m l [] t f

/-- The place of the result words, which MERGE and COMPACT write last (17 R361), checked with their chunk's other addresses (17
R356). -/
def resultKey (c : Nat) (m : Cmd) (s : State) (f : Nat → State → Chunk) : Chunk :=
  match tileReach c c (m.pblk + 120) 8 m .store s with
  | .ok t key _ _ => f key t
  | .fault t code detail addr => .fault t code detail addr
  | .wait t => .wait t
  | .merr _ loc => .err loc

/-- The writes of a chunk of MERGE or COMPACT performed and charged, and the command ended with a status and address where
it ends (17 R356, R357, R361). -/
def outDone (c : Nat) (m m1 : Cmd) (bytes outn form : Nat) (st : Option (Nat × Word)) (ws : List CWrite) (s : State) : Chunk :=
  let put (t : State) : State := chargeCmd 2 (ceilDiv bytes 64) m (cmdWrites m.pid ws t)
  match st with
  | none => .go (put s) (m1.addBytes bytes)
  | some (code, addr) =>
    resultKey c m s fun key t => .at_ (land key (leBytes 4 outn ++ leBytes 4 form) 0 (put t)) (m1.addBytes bytes) code addr

/-- The place of a command in its inputs and output kept between chunks. -/
def mergeSt (m : Cmd) : MergeSt :=
  { ia := nth 0 m.aux 0, ib := nth 0 m.aux 1, la := nth 0 m.aux 2, lb := nth 0 m.aux 3, ha := none, hb := none, out := [],
    rd := 0 }

/-- The read windows that a MERGE still needs: an input used up needs none (15 R327, 17 R358). -/
def mergeReads (c : Nat) (m : Cmd) (x : Nat) (y : MergeSt) (s : State) : List Window :=
  let spans := readSpans m (leValue m.blkEnq)
  let left := (if y.ia < blkAt x 16 4 then spans.take 1 else []) ++ (if y.ib < blkAt x 20 4 then spans.drop 1 else [])
  m.reads.filter fun w => (winsOf c left m s).contains w

/-- The records that a chunk of MERGE has read: those taken, and where the command ends there also the heads left standing and the
record out of order (17 R357). -/
def mergeRead (y : MergeSt) (st : Option (Nat × Word)) : Nat :=
  y.rd + (match st with
    | none => 0
    | some e => (if y.ha.isSome then 1 else 0) + (if y.hb.isSome then 1 else 0) + if e.1 = 0x48 then 1 else 0)

/-- One chunk of MERGE in sparse form: up to 4,096 bytes of records (17 R361). -/
def mergeSparse (c cq x : Nat) (m : Cmd) (s : State) : Chunk :=
  let z := recBytes m.vt
  match mergeLoop c cq m x (2 ^ 32) true (4096 / z) (blkAt x 32 4 - m.pos) (mergeSt m) s with
  | .stop r => r
  | .done y st t =>
    let out := y.out.reverse
    let ws := (List.range out.length).map fun i =>
      (w64 (blkAt x 24 8) + w64 ((m.pos + i) * z), recordBytes m.vt (nth (0, 0) out i).1 (nth (0, 0) out i).2)
    let m1 := { m with pos := m.pos + out.length, aux := [y.ia, y.ib, y.la, y.lb], reads := mergeReads c m x y t }
    checkAll c cq m ws t fun l u => outDone c m m1 ((mergeRead y st + out.length) * z) m1.pos 0 st l u

/-- One chunk of MERGE in dense form: 4,096 bytes of values from element `pos` on; one that ends early leaves what it has
written below the index it had reached (17 R361, R363). -/
def mergeDenseStep (c cq x : Nat) (m : Cmd) (s : State) : Chunk :=
  let w := valBytes m.vt
  let len := blkAt x 36 4
  let hi := Nat.min len (m.pos + 4096 / w)
  match mergeLoop c cq m x hi false (2 * (4096 / w) + 2) 0 (mergeSt m) s with
  | .stop r => r
  | .done y st t =>
    let bad := match st with
      | some (0x48, _) => true
      | _ => false
    let top := if bad then (match y.out with
      | [] => m.pos
      | (k, _) :: _ => k + 1) else hi
    let ws := (List.range (top - m.pos)).map fun i =>
      (w64 (blkAt x 24 8) + w64 ((m.pos + i) * w), leBytes w (lookupD 0 y.out (m.pos + i)))
    let m1 := { m with pos := top, aux := [y.ia, y.ib, y.la, y.lb], reads := mergeReads c m x y t }
    let fin := if bad then st else if hi = len then some (0, 0) else none
    checkAll c cq m ws t fun l u => outDone c m m1 (mergeRead y st * recBytes m.vt + (top - m.pos) * w) top 1 fin l u

/-- One chunk of MERGE (17 R361). -/
def mergeStep (c cq : Nat) (m : Cmd) (s : State) : Chunk :=
  let x := leValue m.blk
  if mergeDense m x then mergeDenseStep c cq x m s else mergeSparse c cq x m s

/-- A value is numerically zero (17 R362). -/
def valZero (vt v : Nat) : Bool :=
  match vt with
  | 0 => v == 0
  | 1 => v % 2 ^ 31 == 0
  | _ => v % 2 ^ 63 == 0

/-- The values of a chunk of COMPACT scanned: values left, room in the chunk and below CAP, values taken and records out. -/
def compactLoop (c cq : Nat) (m : Cmd) (x : Nat) : Nat → Nat → Nat → Nat → List (Nat × Nat) → State →
    (Nat → List (Nat × Nat) → Option (Nat × Word) → State → Chunk) → Chunk
  | 0, _, _, k, out, s, f => f k out (some (0, 0)) s
  | n + 1, fuel, room, k, out, s, f =>
    if fuel = 0 then f k out none s
    else
      let w := valBytes m.vt
      match cmdRead c cq m w w (w64 (blkAt x 0 8) + w64 (k * w)) s with
      | .val b t =>
        let v := leValue b
        if valZero m.vt v then compactLoop c cq m x n fuel room (k + 1) out t f
        else if room = 0 then f k out (some (0x49, 0)) t
        else compactLoop c cq m x n (fuel - 1) (room - 1) (k + 1) ((blkAt x 20 4 + k, v) :: out) t f
      | .fault t code detail addr => .fault t code detail addr
      | .wait t => .wait t
      | .err loc => .err loc

/-- One chunk of COMPACT (17 R362); `pos` counts the records written, and the first working number the values taken. -/
def compactStep (c cq : Nat) (m : Cmd) (s : State) : Chunk :=
  let x := leValue m.blk
  let z := recBytes m.vt
  let k0 := nth 0 m.aux 0
  compactLoop c cq m x (blkAt x 16 4 - k0) (4096 / z) (blkAt x 24 4 - m.pos) k0 [] s fun k outR st t =>
    let out := outR.reverse
    let ws := (List.range out.length).map fun i =>
      (w64 (blkAt x 8 8) + w64 ((m.pos + i) * z), recordBytes m.vt (nth (0, 0) out i).1 (nth (0, 0) out i).2)
    let m1 := { m with pos := m.pos + out.length, aux := [k, 0, 0, 0], reads := if k = blkAt x 16 4 then [] else m.reads }
    -- the nonzero value that finds no room has been read too (17 R357)
    let n := k - k0 + if st.any (fun e => e.1 == 0x49) then 1 else 0
    checkAll c cq m ws t fun l u => outDone c m m1 (n * valBytes m.vt + out.length * z) m1.pos 0 st l u

/-- COPY (17 R359): the next chunk of command `n` of queue `cq` of core `c`. -/
def execCopy (core cq n : Nat) (s : State) : Host.Outcome State Fault Refusal :=
  .next (runCmd 0x10 core cq n xferStart copyStep s)

/-- FILL (17 R359). -/
def execFill (core cq n : Nat) (s : State) : Host.Outcome State Fault Refusal :=
  .next (runCmd 0x11 core cq n xferStart copyStep s)

/-- GATHER32 (17 R360). -/
def execGather32 (core cq n : Nat) (s : State) : Host.Outcome State Fault Refusal :=
  .next (runCmd 0x12 core cq n xferStart rowStep s)

/-- SCATTER32 (17 R360). -/
def execScatter32 (core cq n : Nat) (s : State) : Host.Outcome State Fault Refusal :=
  .next (runCmd 0x13 core cq n xferStart rowStep s)

/-- MERGE (17 R361, R363). -/
def execMerge (core cq n : Nat) (s : State) : Host.Outcome State Fault Refusal :=
  .next (runCmd 0x14 core cq n xferStart mergeStep s)

/-- COMPACT (17 R362, R363). -/
def execCompact (core cq n : Nat) (s : State) : Host.Outcome State Fault Refusal :=
  .next (runCmd 0x15 core cq n xferStart compactStep s)

end Sys2Proof.Machine
end

