-- ==== Sys2Proof/Machine/Links.lean ====
section
/-! DEFINITION. Mesh links and reroutes (22 R412 to R418), the Gwerid link (22 R421), VCSEL lanes and link ports (22 R422 to
R428). -/
namespace Sys2Proof.Machine

/-! ## Detours (22 R416) -/

/-- A route runs over working links from one router to another. -/
def routeOk (failed : List Link) (x y : Nat) (r : List Nat) : Bool :=
  r.head? == some x && r.getLast? == some y && (r.all fun n => decide (n < 2176)) &&
    (hopsOf r).all fun h => adjacent h.1 h.2 && !linkDown failed h

/-! ## The channel-dependence graph (22 R416 steps 2 to 4) -/

/-- A dependence of the dimension-order class: link `b` follows link `a` on a dimension-order route. -/
def dorTurn (a b : Nat × Nat) : Bool := a.2 == b.1 && (dorRoute a.1 b.2 == [a.1, a.2, b.2])

/-- The links from link `a` on that a dimension-order route through it and link `b` passes, where there is one. -/
def dorReach (failed : List Link) (a b : Nat × Nat) : Bool :=
  let r := dorRoute a.1 b.2
  a == b || (r.take 2 == [a.1, a.2] && r.drop (r.length - 2) == [b.1, b.2] && (hopsOf r).all fun h => !linkDown failed h)

/-- The dependences that routes other than dimension-order ones add. -/
def addedTurns (rs : List (List Nat)) : List ((Nat × Nat) × (Nat × Nat)) :=
  (rs.map fun r => ((hopsOf r).zip (hopsOf r).tail).filter fun t => !dorTurn t.1 t.2).flatten

/-- Turns with no successor taken out, at most `n` times; those left lie on or before a cycle. -/
def pruneTurns (failed : List Link) : Nat → List ((Nat × Nat) × (Nat × Nat)) → List ((Nat × Nat) × (Nat × Nat))
  | 0, ts => ts
  | n + 1, ts => pruneTurns failed n (ts.filter fun t => ts.any fun u => dorReach failed t.2 u.1)

/-- The dimension-order class with some routes added has an acyclic channel-dependence graph: every cycle would pass through an
added turn (22 R416). -/
def acyclic (failed : List Link) (rs : List (List Nat)) : Bool :=
  let ts := addedTurns rs
  (pruneTurns failed ts.length ts).isEmpty

/-! ## Escape routes (22 R416) -/

/-- The neighbours of a router over working links. -/
def neighbours (failed : List Link) (x : Nat) : List Nat :=
  ([x + 1, x - 1, x + 68, x - 68].filter fun y => decide (y < 2176) && adjacent x y && !linkDown failed (x, y)).eraseDups

/-- The breadth-first tree grown by one level, at most `n` times: each router reached with its depth. -/
def growTree (failed : List Link) : Nat → Nat → List Nat → List (Nat × Nat) → List (Nat × Nat)
  | 0, _, _, seen => seen
  | n + 1, d, front, seen =>
    let next := ((front.map (neighbours failed)).flatten.filter fun y => !(seen.any fun z => z.1 == y)).eraseDups
    growTree failed n (d + 1) next (seen ++ next.map fun y => (y, d + 1))

/-- The columns that the configuration table gives to the firmware column, lowest first (25 R463). -/
def fwCols (table : List Byte) : List Nat :=
  (genList 4 fun i => (nth 0xFF table (16 + i)).toNat).take (nth 0 table 12).toNat

/-- The depths of the routers in the tree rooted at row 0 of the lowest firmware column (22 R416). -/
def treeDepths (s : State) : List (Nat × Nat) :=
  let root := (fwCols s.fw.table).foldl Nat.min 67
  growTree s.failed 2176 0 [root] [(root, 0)]

/-- A hop is up: to a smaller depth, or to an equal depth and a lower number (22 R416). -/
def isUp (ds : List (Nat × Nat)) (h : Nat × Nat) : Bool :=
  let a := lookupD 2176 ds h.1
  let b := lookupD 2176 ds h.2
  decide (b < a) || (a == b && decide (h.2 < h.1))

/-- Up hops, then down hops, and no up hop after a down one (22 R416). -/
def upDown (ds : List (Nat × Nat)) (hs : List (Nat × Nat)) : Bool := (hs.dropWhile (isUp ds)).all fun h => !isUp ds h

/-- The routers from one up to the root of the tree, by the lowest-numbered router of the depth before. -/
def treeUp (failed : List Link) (ds : List (Nat × Nat)) : Nat → Nat → List Nat
  | 0, x => [x]
  | n + 1, x =>
    let d := lookupD 0 ds x
    match (neighbours failed x).filter fun y => decide (lookupD 2176 ds y < d) with
    | [] => [x]
    | y :: ys => x :: treeUp failed ds n (ys.foldl Nat.min y)

/-- The escape route of a flow along the tree. -/
def treeRoute (failed : List Link) (ds : List (Nat × Nat)) (f : Flow) : List Nat :=
  treeUp failed ds 2176 f.src ++ (treeUp failed ds 2176 f.dst).reverse.tail

/-! ## Failure, reroute, drain and restoration (22 R415 to R418) -/

/-- LINK_FAILURE (22 R415): a link of the mesh is declared failed. -/
def execLinkFailure (l : Link) (s : State) : Host.Outcome State Fault Refusal :=
  .next (if adjacent l.src l.dst = true ∧ linkDown s.failed (l.src, l.dst) = false then { s with failed := s.failed ++ [l] } else s)

/-- A role with this code runs on a core (25 R463). -/
def roleRuns (code : Nat) (s : State) : Bool := s.fw.booted && s.fw.roles.any fun r => r.code == code

/-- The dimension-order route between two routers uses a link (22 R416). -/
def dorUses (l : Link) (x y : Nat) : Bool := (hopsOf (dorRoute x y)).any fun h => linkDown [l] h

/-- Every flow whose dimension-order route used the link has a detour, where the working links still join its routers (22 R416). -/
def detoursAll (l : Link) (ds : List Detour) (t : List (Nat × Nat)) : Bool :=
  t.all fun a => t.all fun b => !dorUses l a.1 b.1 ||
    (List.range 4).all fun vn => ds.any fun d => d.flow == { src := a.1, dst := b.1, vn := vn }

/-- The computed routes are detours of the flows whose dimension-order route used the link, and run as R416 says. -/
def detoursOk (l : Link) (ds : List Detour) (s : State) : Bool :=
  let t := treeDepths s
  detoursAll l ds t && ds.all fun d =>
    decide (d.flow.vn ≤ 3) && dorUses l d.flow.src d.flow.dst && routeOk s.failed d.flow.src d.flow.dst d.route &&
      routeOk s.failed d.flow.src d.flow.dst d.escape && upDown t (hopsOf d.escape)

/-- The routes of the dimension-order class of a virtual network that are detours. -/
def detoursIn (vn : Nat) (s : State) : List (List Nat) :=
  (s.flows.filter fun f => f.flow.vn == vn && !f.escape).map fun f => f.route

/-- A flow's new route: its detour, or the escape class where the graph of its network has a cycle (22 R416 steps 3, 4). -/
def flowOf (esc : List Nat) (upto : Nat) (d : Detour) : FlowSt :=
  if esc.contains d.flow.vn then { flow := d.flow, route := d.escape, escape := true, draining := true, back := false, upto := upto }
  else { flow := d.flow, route := d.route, escape := false, draining := true, back := false, upto := upto }

/-- A partition has a core at an end of one of some flows (22 R418). -/
def affected (p : Partition) (fs : List Flow) (s : State) : Bool :=
  p.rcd.cores.any fun c => fs.any fun f => f.src == routerOf c s || f.dst == routerOf c s

/-- Affected partitions: their admitted launches get LINK_DEGRADED, and R218 is due at their next admission (22 R418). -/
def degrade (fs : List Flow) (s : State) : State :=
  s.parts.foldl (fun s p =>
    if affected p fs s then
      let mine (l : Launch) : Bool := l.pid == p.rcd.pid && decide (l.lid < 2 ^ 32)
      modPart p.rcd.pid (fun q => { q with capFell := true })
        { s with launches := modWhere mine (fun l => { l with degraded := true }) s.launches }
    else s) s

/-- LINK_REROUTE (22 R416, R418): the link manager installs the routes it has computed around a failed link. -/
def execLinkReroute (l : Link) (detours : List Detour) (s : State) : Host.Outcome State Fault Refusal :=
  .next (if roleRuns 6 s = true ∧ s.failed.contains l = true ∧ detoursOk l detours s = true then
    let fs := detours.map fun d => d.flow
    let s1 := { s with flows := s.flows.filter fun f => !fs.contains f.flow }
    let cyc := (List.range 4).filter fun vn =>
      !acyclic s.failed (detoursIn vn s1 ++ (detours.filter fun d => d.flow.vn == vn).map fun d => d.route)
    let ds := treeDepths s
    let move (f : FlowSt) : FlowSt :=
      if cyc.contains f.flow.vn && !f.escape then
        { f with route := treeRoute s.failed ds f.flow, escape := true, draining := true, upto := s.seq }
      else f
    let moved := (s1.flows.filter fun f => cyc.contains f.flow.vn && !f.escape).map fun f => f.flow
    degrade (fs ++ moved) { s1 with flows := s1.flows.map move ++ detours.map (flowOf cyc s.seq) }
  else s)

/-- Something of a flow has been injected and not delivered: of network 3 a message, a chain message or a palette message, of network
0 a retired operation (22 R414, R417). -/
def flowBusy (f : Flow) (s : State) : Bool :=
  if f.vn = 3 then
    (s.msgs.any fun m => msgFlow m.core m.dst s == f) ||
      (s.chains.any fun m => !flowStopped f m.num s && m.left.any fun c => msgFlow m.core c s == f) ||
        s.palMsgs.any fun m => !flowStopped f m.num s && m.flow s == some f
  else if f.vn = 0 then s.pend.any fun p => p.flow s == some f && !flowStopped f p.id s
  else false

/-- FLOW_DRAIN (22 R417): a flow whose injected flits have been delivered goes on over its new route. -/
def execFlowDrain (f : Flow) (s : State) : Host.Outcome State Fault Refusal :=
  .next (if (s.flows.any fun x => x.flow == f && x.draining) = true ∧ flowBusy f s = false then
    let keep := s.flows.filter fun x => !(x.flow == f && x.back)
    { s with flows := modWhere (fun x => x.flow == f) (fun x => { x with draining := false }) keep }
  else s)

/-- LINK_RESTORE (22 R418): flows whose dimension-order route works again go back to it at their drain points. -/
def execLinkRestore (l : Link) (s : State) : Host.Outcome State Fault Refusal :=
  .next (if s.fw.booted = true ∧ s.failed.contains l = true then
    let failed := s.failed.filter fun x => x != l
    let works (f : FlowSt) : Bool := (hopsOf (dorRoute f.flow.src f.flow.dst)).all fun h => !linkDown failed h
    { s with failed := failed, flows := modWhere works (fun f => { f with draining := true, back := true, upto := s.seq }) s.flows }
  else s)

/-! ## The Gwerid link (22 R421) -/

/-- GWERID_RETRAIN (22 R421): a retrain of up to 10 µs, through which accesses wait; nothing else is visible. -/
def execGweridRetrain (s : State) : Host.Outcome State Fault Refusal := .next s

/-- The completion records that wait for the host are written or dropped. -/
def retryRecords (s : State) : State :=
  (s.launches.filter fun l => l.st == .completed).foldl (fun s l => if (recordTicket l s).isSome then writeRecord l s else s) s

/-- GWERID_DOWN (22 R421): the link stays down; every forwarded fault is answered as denied. -/
def execGweridDown (s : State) : Host.Outcome State Fault Refusal :=
  .next (if s.gwerid = .up then
    retryRecords { s with gwerid := .down, tickets := s.tickets.map fun t => { t with denied := some true } }
  else s)

/-- GWERID_LINK_RETURN (22 R421): the held host interrupts are delivered in order. -/
def execGweridLinkReturn (s : State) : Host.Outcome State Fault Refusal :=
  .next (if s.gwerid = .down then
    { s with
      gwerid := .up
      irqs := s.irqs ++ (s.parts.map fun p => p.irqHeld).flatten
      parts := s.parts.map fun p => { p with irqHeld := [] } }
  else s)

/-! ## VCSEL lanes (22 R422 to R424) -/

/-- AGELIM of the configuration table, in ms (25 R463). -/
def ageLimit (table : List Byte) : Nat := leValue ((table.drop 352).take 4)

/-- The lowest-numbered spare with RET = 0 (22 R424). -/
def spareLane (o : Optics) : Option Nat :=
  (List.range o.lanes.length).find? fun n => match nth? o.lanes n with
    | some l => l.st == 0 && !l.ret
    | none => false

/-- A retired lane that serves a wavelength is replaced: the spare takes over its WL, for `st` and `port`, and the retired VCSEL
goes dark; with no spare the WL leaves the pool (22 R424). -/
def replaceLane (st port : Nat) (o : Optics) (n : Nat) : Optics :=
  match nth? o.lanes n with
  | none => o
  | some l =>
    let dark := o.modLane n fun l => { l with st := 0 }
    match spareLane o with
    | none => dark
    | some k => dark.modLane k fun x => { x with st := st, wl := l.wl, port := port }

/-- The retired lanes that still serve a wavelength, of the sum port or of the pool. -/
def retiredLanes (sum : Bool) (o : Optics) : List Nat :=
  (List.range o.lanes.length).filter fun n => match nth? o.lanes n with
    | some l => l.ret && l.st != 0 && ((l.port == 3 && l.st != 2) == sum)
    | none => false

/-- Minimums brought within the available lanes where no spare remains: of port 2 first, then port 1, then port 0 (22 R424). -/
def lowerMins (o : Optics) : Optics :=
  if (spareLane o).isSome then o else [2, 1, 0].foldl (fun o p =>
    let excess := o.minSum - o.available
    o.modPort p fun x => { x with cfg := setField x.cfg 0 7 (x.cfgMin - excess) }) o

/-- LANE_LOCK_LOSS (22 R424, R427): the engine retires the lane, and its port's width drops by it. -/
def execLaneLockLoss (die lane : Nat) (s : State) : Host.Outcome State Fault Refusal :=
  .next (
    let o := opticsOf die s
    match nth? o.lanes lane with
    | none => s
    | some l =>
      let o1 := o.modLane lane fun x => { x with ret := true }
      let o2 := if l.st = 1 ∧ l.port ≠ 3 then
          (o1.modLane lane fun x => { x with st := 2 }).modPort l.port fun p => { p with width := p.width - 1 }
        else if l.st = 3 ∧ l.port ≠ 3 then o1.modLane lane fun x => { x with st := 2 }
        else o1
      modOptics die (fun _ => o2) s)

/-! ## The elastic pool (22 R426, R427) -/

/-- A port holds a lane: it is active or waking for it. -/
def holdsLane (p : Nat) (l : Lane) : Bool := l.port == p && (l.st == 1 || l.st == 3)

/-- The lanes of a port as (WL, VCSEL), highest WL first. -/
def portLanes (p : Nat) (o : Optics) : List (Nat × Nat) :=
  (((List.range 64).map fun w => ((List.range o.lanes.length).filter fun n => match nth? o.lanes n with
    | some l => l.wl == w && holdsLane p l
    | none => false).map fun n => (w, n)).flatten).reverse

/-- The parked lanes of the pool that no port holds, lowest WL first. -/
def freeLanes (o : Optics) : List Nat :=
  ((List.range 64).map fun w => (List.range o.lanes.length).filter fun n => match nth? o.lanes n with
    | some l => l.wl == w && l.st == 2 && !l.ret
    | none => false).flatten

/-- The lanes of the pool: active, unretired and not held by port 3 (22 R426). -/
def poolSize (o : Optics) : Nat := (o.lanes.filter fun l => l.st != 0 && !l.ret && !(holdsLane 3 l)).length

/-- want[p] of R426. -/
def wantLanes (minp queued : Nat) : Nat := Nat.max minp (Nat.min 16 (ceilDiv queued 64000))

/-- The remaining lanes, one each by largest remainder, ties to the lower port (22 R426). -/
def spread : Nat → List (Nat × Nat) → List (Nat × Nat)
  | 0, gs => gs
  | n + 1, gs =>
    let top := gs.foldl (fun m g => Nat.max m g.2) 0
    let i := (gs.findIdx fun g => g.2 == top)
    if top = 0 then gs else spread n (modNth (fun g => (g.1 + 1, 0)) gs i)

/-- grant of R426 for the minimums and wants of the three link ports, over `l` lanes. -/
def grantLanes (mins wants : List Nat) (l : Nat) : List Nat :=
  if sumList wants ≤ l then wants
  else
    let r := l - sumList mins
    let d := sumList wants - sumList mins
    let base := (mins.zip wants).map fun x => (x.1 + (x.2 - x.1) * r / d, (x.2 - x.1) * r % d)
    let left := l - sumList (base.map fun x => x.1)
    (spread left base).map fun x => x.1

/-- A lane parks for a port (22 R426, R427). -/
def parkLane (p : Nat) (o : Optics) (n : Nat) : Optics :=
  (o.modLane n fun l => { l with st := 2 }).modPort p fun x => { x with parked := n :: x.parked }

/-- A free lane wakes for a port (22 R426). -/
def wakeLane (p : Nat) (o : Optics) (n : Nat) : Optics :=
  (o.modLane n fun l => { l with st := 3, port := p }).modPort p fun x => { x with parked := x.parked.filter fun m => m != n }

/-- The confirmed width of a port follows the lanes that it has parked or lost (22 R424, R427). -/
def settleWidth (p : Nat) (o : Optics) : Optics :=
  let n := (o.lanes.filter fun l => l.port == p && l.st == 1).length
  o.modPort p fun x => { x with width := Nat.min x.width n }

/-- A port gets its lanes at a boundary: it parks its highest-WL lanes, or wakes the lanes it parked last that are free, then
the lowest-WL free ones (22 R426). -/
def setLanes (p n : Nat) (o : Optics) : Optics :=
  let mine := portLanes p o
  if n < mine.length then settleWidth p ((mine.take (mine.length - n)).reverse.foldl (fun o x => parkLane p o x.2) o)
  else
    let free := freeLanes o
    let mem := (vecGet o.ports p).parked.filter fun m => free.contains m
    ((mem ++ free.filter fun m => !mem.contains m).take (n - mine.length)).foldl (wakeLane p) (settleWidth p o)

/-- The ports that lose lanes give them up before others take them. -/
def applyGrants (gs : List Nat) (o : Optics) : Optics :=
  let lose := (List.range 3).filter fun p => decide (nth 0 gs p < (portLanes p o).length)
  let gain := (List.range 3).filter fun p => !lose.contains p
  (lose ++ gain).foldl (fun o p => setLanes p (nth 0 gs p) o) o

/-- The 8 µs up to a boundary are added to the age of lit lanes, and their bias takes a new tracked value (22 R423). -/
def ageLane (lim : Nat) (bias : Nat) (l : Lane) : Lane :=
  if l.st = 1 ∨ l.st = 3 then
    let a := l.age + 8
    { l with age := a, bias := bias, ret := l.ret || decide (lim < a / 1000) }
  else l

/-- The bytes of a fabric slot at a width, in bits: 245 ns of 64 Gslot/s (22 R428). -/
def slotBits (width : Nat) : Nat := 15680 * width

/-- The grants for the frame that begins (22 R428). -/
def nextFrame (p : OPort) : OPort :=
  { p with grants := p.coming.map fun g => (g, none), coming := [], requests := [] }

/-- The OLINK commands of the cores of a die, with their cores. -/
def dieLinks (die : Nat) (s : State) : List (Nat × Cmd) :=
  ((((allCores s).filter fun x => dieOf x.1 s == die).map fun x => (vecGet x.2.queues 3).map fun m => (x.1, m)) ++
    s.launches.map fun l => ((l.held.filter fun h => dieOf h.core s == die).map fun h =>
      (vecGet h.saved.queues 3).map fun m => (h.core, m)).flatten).flatten

/-- The link port of an OLINK command (23 R453). -/
def Cmd.port (m : Cmd) : Nat := m.field 134 2

/-- The bytes queued at a link port: those of started commands that have not been acknowledged (22 R426). -/
def queuedBytes (die p : Nat) (s : State) : Nat :=
  sumList ((((dieLinks die s).map fun x => x.2).filter fun m => m.running && m.port == p).map fun m =>
    blkAt (leValue m.blk) 16 4 - nth 0 m.aux 0)

/-- REALLOCATION (22 R424, R426, R428; 25 R474): a boundary of a die's pool. Retired lanes are replaced, minimums are lowered where
lanes have run out, the link ports get their lanes, and a fabric frame begins. -/
def execReallocation (die : Nat) (s : State) : Host.Outcome State Fault Refusal :=
  .next (
    let o := opticsOf die s
    let bias (n : Nat) : Nat := (Config.freeWord (s.free + n)).toNat % 4096
    let aged := ((List.range o.lanes.length).zip o.lanes).map fun x => ageLane (ageLimit s.fw.table) (bias x.1) x.2
    let o1 := { o with lanes := aged }
    let o2 := lowerMins ((retiredLanes false o1).foldl (replaceLane 2 0) o1)
    let mins := genList 3 fun p => (vecGet o2.ports p).cfgMin
    let wants := genList 3 fun p => wantLanes (nth 0 mins p) (queuedBytes die p s)
    let o3 := applyGrants (grantLanes mins wants (poolSize o2)) o2
    modOptics die (fun _ => { o3 with ports := o3.ports.map nextFrame }) { s with free := s.free + 72 })

/-- WIDTH_CONFIRMATION (22 R427, R428): the far end confirms the woken lanes of a link port, which join its stripe. -/
def execWidthConfirmation (die port : Nat) (s : State) : Host.Outcome State Fault Refusal :=
  .next (if port = 3 then s
  else modOptics die (fun o =>
    let o1 := { o with lanes := modWhere (fun l => l.port == port && l.st == 3 && !l.ret) (fun l => { l with st := 1 }) o.lanes }
    o1.modPort port fun x => { x with width := Nat.min 16 (o1.lanes.filter fun l => l.port == port && l.st == 1).length }) s)

/-! ## The fabric (22 R428) -/

/-- The destinations of the started OLINK commands of a port: package and port (22 R428). -/
def destinations (die port : Nat) (s : State) : List (Nat × Nat) :=
  (((dieLinks die s).filter fun x => x.2.running && x.2.port == port).map fun x => (blkAt (leValue x.2.blk) 20 3, nth 0 x.2.aux 2)).eraseDups

/-- FABRIC_REQUEST (22 R428): a port in fabric mode asks the arbiter for slots, once for each destination, 1 to 32 of them. -/
def execFabricRequest (die port : Nat) (slots : List Nat) (s : State) : Host.Outcome State Fault Refusal :=
  .next (
    let ds := destinations die port s
    if port < 3 ∧ (vecGet (opticsOf die s).ports port).cfgMode = 2 ∧ slots.length = ds.length ∧
        (slots.all fun n => decide (1 ≤ n) && decide (n ≤ 32)) = true then
    modOptics die (Optics.modPort port fun p => { p with requests := (ds.zip slots).map fun x => (x.1.1, x.1.2, x.2) }) s
  else s)

/-- A set of grants answers the requests of a port: distinct slots of the frame, and no more of them for a destination than it
asked for (22 R428). -/
def grantsOk (p : OPort) (gs : List FabGrant) : Bool :=
  (gs.all fun g => decide (g.slot < 32) && p.requests.any fun r => r.1 == g.pkg && r.2.1 == g.port) &&
    decide ((gs.map fun g => g.slot).Nodup) &&
    p.requests.all fun r => decide ((gs.filter fun g => g.pkg == r.1 && g.port == r.2.1).length ≤ r.2.2)

/-- FABRIC_GRANT (22 R428): the arbiter's grants for the next frame; a request that is not filled is gone. -/
def execFabricGrant (die port : Nat) (grants : List FabGrant) (s : State) : Host.Outcome State Fault Refusal :=
  .next (
    let p := vecGet (opticsOf die s).ports port
    if p.cfgMode = 2 ∧ grantsOk p grants = true then
      modOptics die (Optics.modPort port fun x => { x with coming := grants, requests := [] }) s
    else s)

end Sys2Proof.Machine
end

