-- ==== Sys2Proof/Machine/LinkPorts.lean ====
section
/-! DEFINITION. OLINK and the bursts of the link ports (22 R428, R429; 23 R453, R454). -/
namespace Sys2Proof.Machine

/-! ## OLINK (23 R453, R454) -/

/-- The fields of an OLINK command and of its parameter block meet R453. -/
def olinkOk (m : Cmd) (x : Nat) : Bool :=
  m.field 0 134 == 0 && decide (m.port < 3) && blkAt x 0 8 % 32 == 0 && blkAt x 8 8 % 32 == 0 && blkAt x 16 4 % 32 == 0 &&
    blkAt x 16 4 != 0 && decide (blkAt x 20 3 < 2 ^ 19) && blkAt x 23 1 == 0 && blkAt x 24 8 % 8 == 0 && blkAt x 40 88 == 0

/-- The far port of the pairing of a partition, on a port, with a partition of a package; in direct mode that is the fibre's far end
(23 R453). -/
def pairPort (die port pid pkg : Nat) (s : State) : Option Nat :=
  match partOf pid s with
  | none => none
  | some p =>
    let fibre (r : PairRec) : Bool := r.pkg == Config.fibrePkg die port && r.far == Config.fibrePort die port
    (p.rcd.pairs.find? fun r => r.die == die && r.port == port && r.pkg == pkg &&
      ((vecGet (opticsOf die s).ports port).cfgMode != 1 || fibre r)).map fun r => r.far

/-- The start of OLINK (23 R453): it keeps the bytes acknowledged, the bytes sent and the far port. -/
def olinkStart (c _cq : Nat) (m : Cmd) (s : State) : Chunk :=
  if lmLimit c m s < m.pblk + 128 then .bad
  else
    tileRead c c m.pblk 128 m s fun x t =>
      if olinkOk m x = false then .bad
      else if (vecGet (opticsOf (dieOf c s) s).ports m.port).cfgMode = 0 then .ends t m 0x53
      else
        match pairPort (dieOf c s) m.port m.pid (blkAt x 20 3) t with
        | none => .bad
        | some far => .go t { m with blk := leBytes 128 x, aux := [0, 0, far] }

/-- The flits of a burst, in bits: a header flit and the data flits (22 R428). -/
def burstBits (n : Nat) : Nat := (1 + ceilDiv n 32) * 256

/-- The greatest burst that a port may send at its width: up to 4 KiB, and in fabric mode no more than a slot carries (22 R428). -/
def burstMax (p : OPort) : Nat :=
  if p.width = 0 then 0 else if p.cfgMode = 2 then Nat.min 4096 ((slotBits p.width / 256 - 1) * 32) else 4096

/-- The grants of a frame after a burst for a destination has been sent in the first slot granted to it that still has room, which
leaves the slots before that one behind; none where there is no such slot. A slot that begins takes the width of its port (22 R428). -/
def useGrant (pkg far bits width : Nat) (gs : List (FabGrant × Option Nat)) : Option (List (FabGrant × Option Nat)) :=
  let room (g : FabGrant × Option Nat) : Nat := g.2.getD (slotBits width)
  match (gs.filter fun g => g.1.pkg == pkg && g.1.port == far && decide (bits ≤ room g)).map fun g => g.1.slot with
  | [] => none
  | k :: ks =>
    let slot := ks.foldl Nat.min k
    some (gs.map fun g =>
      if g.1.slot < slot then (g.1, some 0) else if g.1.slot = slot then (g.1, some (room g - bits)) else g)

/-- The grants of a port after a burst for a destination; any port but one in fabric mode sends without (22 R428). -/
def sendGrant (p : OPort) (pkg far bits : Nat) : Option (List (FabGrant × Option Nat)) :=
  if p.cfgMode = 2 then useGrant pkg far bits p.width p.grants else some p.grants

/-- The source bytes of a burst, read in ascending order as aligned 32-byte pieces. -/
def readBurst (c cq : Nat) (m : Cmd) (base : Word) : Nat → State → (State → Chunk) → Chunk
  | 0, s, f => f s
  | n + 1, s, f =>
    match cmdRead c cq m 32 32 base s with
    | .val _ t => readBurst c cq m (base + 32) n t f
    | .fault t code detail addr => .fault t code detail addr
    | .wait t => .wait t
    | .err loc => .err loc

/-- The launch that a command is charged to (15 R328). -/
def Cmd.payer (m : Cmd) : Option (Nat × Nat) := if m.f ∨ m.bov = 0xF0 then none else some (m.pid, m.lid)

/-- A burst read and sent on the port (22 R428; 23 R454). -/
def olinkSend (c cq : Nat) (m : Cmd) (s : State) : Chunk :=
  let x := leValue m.blk
  let die := dieOf c s
  let p := vecGet (opticsOf die s).ports m.port
  let sent := nth 0 m.aux 1
  let n := Nat.min (burstMax p) (blkAt x 16 4 - sent)
  let pkg := blkAt x 20 3
  let far := nth 0 m.aux 2
  match sendGrant p pkg far (burstBits n) with
  | none => .wait s
  | some gs =>
    if n = 0 ∨ p.cfgMode = 0 then .wait s
    else
      readBurst c cq m (w64 (blkAt x 0 8 + sent)) (n / 32) s fun t =>
        let b : Burst := { core := c, seq := m.seq, pkg := pkg, far := far, bytes := n, refusals := 0, sent := true, payer := m.payer }
        .go (modOptics die (Optics.modPort m.port fun q => { q with bursts := q.bursts ++ [b], grants := gs }) t)
          { m with aux := [nth 0 m.aux 0, sent + n, far] }

/-- The next burst of a command: one that was refused is sent again before a new one (22 R428, R429). -/
def olinkStep (c cq : Nat) (m : Cmd) (s : State) : Chunk :=
  let die := dieOf c s
  let p := vecGet (opticsOf die s).ports m.port
  match p.bursts.findIdx? fun b => b.core == c && b.seq == m.seq && !b.sent with
  | none => olinkSend c cq m s
  | some i =>
    match (nth? p.bursts i).bind fun b => sendGrant p b.pkg b.far (burstBits b.bytes) with
    | none => .wait s
    | some gs =>
      if p.width = 0 ∨ p.cfgMode = 0 then .wait s
      else .go (modOptics die (Optics.modPort m.port fun q =>
        { q with bursts := modNth (fun b => { b with sent := true }) q.bursts i, grants := gs }) s) m

/-- OLINK (23 R453, R454). -/
def execOlink (core cq n : Nat) (s : State) : Host.Outcome State Fault Refusal :=
  .next (runCmd 0x30 core cq n olinkStart olinkStep s)

/-! ## Answers to bursts (22 R429; 23 R454) -/

/-- The unfinished OLINK command that a burst belongs to. -/
def burstCmd (die : Nat) (b : Burst) (s : State) : Option Cmd :=
  ((dieLinks die s).find? fun x => x.1 == b.core && x.2.seq == b.seq && x.2.fin.isNone).map fun x => x.2

/-- A burst goes to the port of another, and is on its way or still to be sent again. -/
def burstAhead (die : Nat) (b : Burst) (s : State) (x : Burst) : Bool :=
  x.bytes != 0 && x.pkg == b.pkg && x.far == b.far && (x.sent || (burstCmd die x s).isSome)

/-- Outstanding burst `n` of a port, where it has been sent and is the oldest one to its destination port: answers come in the order of
issue, but for that about FLAG (22 R429; 23 R454). -/
def burstAt (die port n : Nat) (s : State) : Option Burst :=
  let bs := (vecGet (opticsOf die s).ports port).bursts
  match nth? bs n with
  | none => none
  | some b => if !b.sent || (b.bytes != 0 && (bs.take n).any (burstAhead die b s)) then none else some b

/-- The bursts of a port changed by `f`. -/
def modBursts (die port : Nat) (f : List Burst → List Burst) (s : State) : State :=
  modOptics die (Optics.modPort port fun p => { p with bursts := f p.bursts }) s

/-- Burst `n` taken off its port. -/
def dropBurst (die port n : Nat) (s : State) : State := modBursts die port (fun l => dropNth l n) s

/-- The launch of a burst charged in class X for it, its command ended or not (23 R454). -/
def chargeBurst (b : Burst) (s : State) : State :=
  match b.payer with
  | some o => modLaunch o.1 o.2 (Launch.charge 2 (ceilDiv b.bytes 64)) s
  | none => s

/-- An acknowledgement: class X is charged; the last one ends the command, or has the peer write FLAG, whose answer does (23 R454). -/
def burstAcked (die port n : Nat) (b : Burst) (s : State) : State :=
  let s1 := chargeBurst b (dropBurst die port n s)
  match burstCmd die b s with
  | none => s1
  | some m =>
    let x := leValue m.blk
    let got := nth 0 m.aux 0 + b.bytes
    let m1 := { (m.addUnits (ceilDiv b.bytes 64)) with aux := [got, nth 0 m.aux 1, b.far] }
    let s2 := modCmd b.core 3 m.seq (fun _ => m1) s1
    if got ≠ blkAt x 16 4 then s2
    else if b.bytes = 0 ∨ blkAt x 24 8 = 0 then endCmd b.core 3 m1 (m1.completion 0 m1.units) s1
    else modBursts die port (fun l => l ++ [{ b with bytes := 0, refusals := 0, sent := true }]) s2

/-- A refusal: the burst is to be sent again, and after the eighth in a row its command ends with LINK_FAIL (22 R429; 23 R454). -/
def burstRefused (die port n : Nat) (b : Burst) (s : State) : State :=
  if b.bytes = 0 then s
  else
    match burstCmd die b s with
    | none => dropBurst die port n s
    | some m =>
      if b.refusals < 7 then
        modBursts die port (fun l => modNth (fun x => { x with refusals := x.refusals + 1, sent := false }) l n) s
      else endCmd b.core 3 m (m.completion 0x52 m.units) (dropBurst die port n s)

/-- A fault at the peer ends the command with MEM_FAULT (23 R454). -/
def burstFaulted (die port n : Nat) (b : Burst) (code detail : Nat) (addr : Word) (s : State) : State :=
  let s1 := dropBurst die port n s
  match burstCmd die b s with
  | none => s1
  | some m => endCmd b.core 3 m { m.completion 0x20 m.units with faddr := addr, fcode := code, fdetail := detail } s1

/-! ## Bursts from a peer (23 R454) -/

/-- What the pieces of a peer's write come to: their places, a fault that goes back to the sender, or a wait for the host. -/
inductive PeerPlaces where
  | ok (s : State) (l : List (Nat × Nat × Nat × List Byte))
  | stop (s : State)
  | host (s : State) (va lvl : Nat)

/-- The places of the pieces of a write of a partition, all checked before any byte is written (23 R454). -/
def peerPlaces (pid z : Nat) : Nat → Nat → List Byte → State → List (Nat × Nat × Nat × List Byte) → PeerPlaces
  | 0, _, _, s, acc => .ok s acc
  | n + 1, va, data, s, acc =>
    if data.isEmpty then .ok s acc
    else
      match placeVa pid va .store .forbid s with
      | .ok t key e pa =>
        if storeLost key z t then .stop t else peerPlaces pid z n (va + z) (data.drop z) t (acc ++ [(key, e, pa, data.take z)])
      | .fault t _ _ => .stop t
      | .merr _ _ => .stop s
      | .host t lvl => .host t va lvl

/-- A peer's write of pieces of `z` bytes, through the tables of the paired partition; a host-backed fault waits for the host
(19 R388), and any other is the sender's. -/
def peerWrite (die port pid z va : Nat) (data : List Byte) (s : State) : State :=
  let mine (t : Ticket) : Bool := t.party == .port die port
  match partOf pid s with
  | none => s
  | some p =>
    if (p.rcd.pairs.any fun r => r.die == die && r.port == port) = false ∨ 2 ^ 53 < va + data.length then s
    else
      match s.tickets.find? mine with
      | some t => if t.denied = some true then { s with tickets := s.tickets.filter fun x => x.num != t.num } else s
      | none =>
        match peerPlaces pid z (data.length / z) va data s [] with
        | .ok t l => l.foldl (fun s x => placeWrite p.rcd x.1 x.2.1 x.2.2.1 x.2.2.2 s) t
        | .stop t => t
        | .host t a lvl => newTicket { num := 0, pid := pid, lid := 0, va := a, kind := 1, lvl := lvl, party := .port die port,
                                       denied := none } t

/-- BURST_RECEIVE (22 R429; 23 R454): a port learns about a burst it sent, or takes one from its peer, unless its CRC is wrong. -/
def execBurstReceive (die port : Nat) (e : BurstIn) (s : State) : Host.Outcome State Fault Refusal :=
  .next (
    let at_ (n : Nat) (f : Burst → State) : State := match burstAt die port n s with
      | some b => f b
      | none => s
    match e with
    | .acked n => at_ n fun b => burstAcked die port n b s
    | .refused n => at_ n fun b => burstRefused die port n b s
    | .peerFault n code detail addr => at_ n fun b => burstFaulted die port n b code detail addr s
    | .arrived pid va data ok =>
      if ok = true ∧ va % 32 = 0 ∧ data.length % 32 = 0 ∧ data.length ≤ 4096 then peerWrite die port pid 32 va data s else s
    | .arrivedFlag pid va x => if va % 8 = 0 then peerWrite die port pid 8 va (leBytes 8 x.toNat) s else s)

end Sys2Proof.Machine
end

