-- ==== Sys2Proof/Machine/Bus.lean ====
section
/-! DEFINITION. The counting bus (chapter 23): the optical sum commands, and the frames that carry their blocks. -/
namespace Sys2Proof.Machine

/-! ## Commands and their fields (23 R444, R445) -/

/-- GRP. -/
def Cmd.grp (m : Cmd) : Nat := m.field 132 4
/-- SEQ. -/
def Cmd.opSeq (m : Cmd) : Nat := m.field 116 16
/-- SFMT. -/
def Cmd.sfmt (m : Cmd) : Nat := m.field 112 4
/-- DFMT. -/
def Cmd.dfmt (m : Cmd) : Nat := m.field 110 2
/-- NPL. -/
def Cmd.npl (m : Cmd) : Nat := m.field 104 6
/-- ROOT. -/
def Cmd.root (m : Cmd) : Bool := bitOf m.tcw.toNat 100
/-- OSUMB. -/
def Cmd.isSumb (m : Cmd) : Bool := m.opc == 0x21
/-- OMAX. -/
def Cmd.isMax (m : Cmd) : Bool := m.opc == 0x22
/-- OBCAST. -/
def Cmd.isBcast (m : Cmd) : Bool := m.opc == 0x23

/-- The bytes of a source element (23 R444). -/
def Cmd.srcBytes (m : Cmd) : Nat :=
  match m.sfmt with
  | 0 => 1 | 1 => 2 | 2 => 4 | 3 => 8 | 4 => 4 | 5 => 8 | _ => 2

/-- The format of a floating-point source element (23 R444). -/
def Cmd.srcFmt (m : Cmd) : FFmt :=
  match m.sfmt with
  | 4 => .f32 | 5 => .f64 | _ => .bf16

/-- The bytes of a destination element (23 R444, R445). -/
def Cmd.dstBytes (m : Cmd) : Nat := if m.isMax || m.isBcast then m.srcBytes else 4 * 2 ^ m.dfmt

/-- E, from the block of the start (23 R445). -/
def Cmd.elems (m : Cmd) : Nat := blkAt (leValue m.blk) 16 4

/-- The elements that an operation carries: all but OMAX carry the count element (23 R442). -/
def Cmd.carried (m : Cmd) : Nat := if m.isMax then m.elems else m.elems + 1

/-- The tile command word meets R444, and NPL and the source width fit the levels (23 R446). -/
def sumFieldsOk (m : Cmd) (levels : Nat) : Bool :=
  m.field 0 100 == 0 &&
    (match m.opc with
     | 0x20 => decide (m.sfmt ≤ 2) && decide (m.dfmt ≤ 1) && m.npl == 0 && m.field 101 3 == 0 && !m.root &&
         decide (8 * m.srcBytes + 4 * levels ≤ 64)
     | 0x21 => decide (4 ≤ m.sfmt) && decide (m.sfmt ≤ 6) && decide (m.dfmt ≤ 1) && decide (2 ≤ m.npl) && decide (m.npl ≤ 60) &&
         decide (m.field 101 3 ≤ 5) && !m.root && decide (m.npl + 4 * levels ≤ 64)
     | 0x22 => decide (m.sfmt ≤ 3) && m.dfmt == 0 && m.npl == 0 && m.field 101 3 == 0 && !m.root
     | _ => decide (m.sfmt ≤ 3) && m.dfmt == 0 && m.npl == 0 && m.field 101 3 == 0)

/-- The parameter block meets R445. -/
def sumBlockOk (m : Cmd) (x : Nat) : Bool :=
  blkAt x 0 8 % m.srcBytes == 0 && blkAt x 8 8 % m.dstBytes == 0 && blkAt x 16 4 != 0 &&
    decide (blkAt x 16 4 * m.srcBytes ≤ 2 ^ 18) && blkAt x 20 100 == 0

/-! ## Blocks (23 R434, R442) -/

/-- The plane width of the up blocks of a level (23 R442). -/
def Cmd.upWidth (m : Cmd) (lvl : Nat) : Nat :=
  if m.isMax then 8 * m.srcBytes else (if m.isSumb then m.npl else 8 * m.srcBytes) + 4 * (lvl - 1)

/-- The widest planes of an operation: those of its down blocks, where it has any (23 R442). -/
def Cmd.wideWidth (m : Cmd) (levels : Nat) : Nat := if levels = 1 then m.upWidth 1 else m.upWidth (levels + 1)

/-- H: the first data slot (23 R434). -/
def headSlots (sumb : Bool) (d : Nat) : Nat := if sumb then 17 + 12 * d else 17

/-- Ew: the most slots a plane may take in a frame, so that N + 2 ≤ 4,015 at the widest planes (23 R434). -/
def Cmd.ew (m : Cmd) (levels d : Nat) : Nat :=
  (4001 - d - headSlots m.isSumb d) / (m.wideWidth levels + if m.isMax then 1 else 0)

/-- The elements of a full block (23 R434). -/
def Cmd.blockLen (m : Cmd) (levels : Nat) (p : SumPort) : Nat := p.lambda * m.ew levels p.ddly

/-- The elements of the block that begins at element `i`. -/
def Cmd.blockAt (m : Cmd) (levels : Nat) (p : SumPort) (i : Nat) : Nat := Nat.min (m.blockLen levels p) (m.carried - i)

/-- OMAX needs Ew' of at least D in every block, so in the last one (23 R439). -/
def maxFits (m : Cmd) (levels : Nat) (p : SumPort) : Bool :=
  let b := m.blockLen levels p
  let last := if b = 0 then 0 else (m.elems - 1) % b + 1
  decide (p.ddly ≤ ceilDiv last p.lambda)

/-! ## Groups and commands of a die (23 R430, R446) -/

/-- A group of a partition at the sum port of a die. -/
def groupAt (die pid grp : Nat) (s : State) : Option Group :=
  (opticsOf die s).sum.groups.find? fun g => g.pid == pid && g.rcd.grp == grp

/-- The optical sum commands of the cores of a die, with their cores. -/
def dieSums (die : Nat) (s : State) : List (Nat × Cmd) :=
  ((((allCores s).filter fun x => dieOf x.1 s == die).map fun x => (vecGet x.2.queues 2).map fun m => (x.1, m)) ++
    s.launches.map fun l => ((l.held.filter fun h => dieOf h.core s == die).map fun h =>
      (vecGet h.saved.queues 2).map fun m => (h.core, m)).flatten).flatten

/-- The source of a command has been read: it is ready (23 R447). -/
def Cmd.isReady (m : Cmd) : Bool := m.running && nth 0 m.aux 0 == 1

/-- An operation number lies behind another, modulo 2^16 (23 R447). -/
def seqPast (x y : Nat) : Bool := decide (32768 ≤ (x + 65536 - y) % 65536)

/-- The operation of a group with a number, at a sum port. -/
def SumPort.opOf (p : SumPort) (grp seq : Nat) : Option BusOp := p.ops.find? fun o => o.grp == grp && o.seq == seq

/-- The sum port of a die changed by `f`. -/
def modSum (die : Nat) (f : SumPort → SumPort) (s : State) : State := modOptics die (fun o => { o with sum := f o.sum }) s

/-- An operation of a sum port set. -/
def SumPort.setOp (o : BusOp) (p : SumPort) : SumPort :=
  if (p.opOf o.grp o.seq).isSome then { p with ops := modWhere (fun x => x.grp == o.grp && x.seq == o.seq) (fun _ => o) p.ops }
  else { p with ops := p.ops ++ [o] }

/-! ## Start, source and end of a command (23 R445 to R447) -/

/-- PCOUNT and PMASK of a participant mask in a completion (23 R446). -/
def withMask (mask : Option Nat) (x : Completion) : Completion :=
  match mask with
  | none => x
  | some k => { x with pcount := popcount 16 k, pmask := k }

/-- LATE (23 R435, R446). -/
def lateOf (m : Cmd) (mask : Option Nat) : Completion := withMask mask (m.completion 1 m.units)

/-- The mask that the port saw of a past operation (23 R446). -/
def Group.seenMask (g : Group) (seq : Nat) : Option Nat := (g.seen.find? fun x => x.1 == seq).map fun x => x.2

/-- The start of an optical sum command (23 R445 to R447, R449). -/
def sumStart (c _cq : Nat) (m : Cmd) (s : State) : Chunk :=
  let die := dieOf c s
  let p := (opticsOf die s).sum
  match groupAt die m.pid m.grp s with
  | none => .bad
  | some g =>
    if lmLimit c m s < m.pblk + 128 ∨ p.level ≠ 1 ∨ sumFieldsOk m g.rcd.levels = false then .bad
    else
      tileRead c c m.pblk 128 m s fun x t =>
        let m1 := { m with blk := leBytes 128 x, aux := [0, 0, 0], pos := 0, acc := [] }
        if sumBlockOk m x = false ∨ (m.isMax = true ∧ maxFits m1 g.rcd.levels p = false) ∨
            (m.isSumb = true ∧ m.rm = .sr ∧ blkAt x 16 4 ≠ m.srCount) ∨
            ((dieSums die t).any fun y => y.2.running && y.2.pid == m.pid && y.2.grp == m.grp && y.2.opSeq == m.opSeq) = true then .bad
        else if p.wmax = 0 then .go t { m1 with opEnd := some (m.completion 0x51 0) }
        else if seqPast m.opSeq g.nextSeq then .go t { m1 with opEnd := some (lateOf m (g.seenMask m.opSeq)) }
        else .go t m1

/-- Source elements read in ascending address order (23 R447). -/
def readSrc (c cq : Nat) (m : Cmd) : Nat → Nat → List Nat → State → (List Nat → State → Chunk) → Chunk
  | 0, _, acc, s, f => f acc.reverse s
  | n + 1, i, acc, s, f =>
    match cmdRead c cq m m.srcBytes m.srcBytes (w64 (blkAt (leValue m.blk) 0 8 + i * m.srcBytes)) s with
    | .val b t => readSrc c cq m n (i + 1) (leValue b :: acc) t f
    | .fault t code detail addr => .fault t code detail addr
    | .wait t => .wait t
    | .err loc => .err loc

/-- The command's operation has gone on without it: it is past, or its mask is fixed (23 R435, R447). -/
def lateNow (c : Nat) (m : Cmd) (s : State) : Option Completion :=
  let p := (opticsOf (dieOf c s) s).sum
  match groupAt (dieOf c s) m.pid m.grp s with
  | none => none
  | some g =>
    if seqPast m.opSeq g.nextSeq then some (lateOf m (g.seenMask m.opSeq))
    else
      match p.opOf m.grp m.opSeq with
      | none => none
      | some o => if o.mask.isSome ∧ o.cmd.isNone then some (lateOf m o.mask) else none

/-- A source fault ends a command before it is ready: its result words and its completion are still to be written (23 R445, R447). -/
def sourceEnd (c : Nat) (m : Cmd) (r : Chunk) (s : State) : Chunk :=
  match r with
  | .fault t code detail addr =>
    .go (countCmdRefused c m code detail addr t)
      { m with opEnd := some { m.completion 0x20 m.units with faddr := addr, fcode := code, fdetail := detail } }
  | .err loc => .go (engineData c m loc s) { m with opEnd := some (m.completion 0x30 m.units) }
  | .go _ _ | .ends _ _ _ | .at_ _ _ _ _ | .bad | .wait _ | .with_ _ _ _ => r

/-- The next elements of the source; a command that turns ready after its mask is fixed is LATE. -/
def sumRead (c cq : Nat) (m : Cmd) (s : State) : Chunk :=
  let n := Nat.min (4096 / m.srcBytes) (m.elems - m.pos)
  sourceEnd c m (readSrc c cq m n m.pos [] s fun xs t =>
    let m1 := { m with acc := m.acc ++ xs, pos := m.pos + n }
    if m1.pos < m.elems then .go t m1
    else .go t { m1 with aux := [1, nth 0 m.aux 1, nth 0 m.aux 2], opEnd := lateNow c m t }) s

/-- Results written to DST; the first fault is kept, and ends the command after its operation (23 R447). -/
def sumWrites (c cq : Nat) (m : Cmd) : List (Word × List Byte) → Option Cause → State → (List (Word × List Byte) → Option Cause → State → Chunk) → Chunk
  | [], flt, s, f => f [] flt s
  | (a, d) :: l, flt, s, f =>
    match cmdCheck c cq m a d s with
    | .ok w t => sumWrites c cq m l flt (cmdWrite m.pid w t) f
    | .fault t code detail addr =>
      sumWrites c cq m l (if flt.isSome then flt else some { code := code, detail := detail, val := addr })
        (countCmdRefused c m code detail addr t) f
    | .wait t => f ((a, d) :: l) flt t
    | .err loc => sumWrites c cq m l (if flt.isSome then flt else some { code := 0x86, detail := 0, val := loc }) s f

/-- The completion of a command whose operation has ended `x` and whose writes met `flt` (23 R446, R447). -/
def sumEnd (m : Cmd) (x : Completion) : Completion :=
  let y := { x with units := m.units }
  match m.flt with
  | none => y
  | some e =>
    if x.status = 0 ∨ x.status = 0x50 then
      if e.code = 0x86 then { y with status := 0x30 }
      else { y with status := 0x20, faddr := e.val, fcode := e.code, fdetail := e.detail }
    else y

/-- The machine error of a write that was lost is recorded with its command (19 R374). -/
def sumError (c : Nat) (m : Cmd) (s : State) : State :=
  match m.flt with
  | some e => if e.code = 0x86 then engineData c m e.val s else s
  | none => s

/-- The result words, then the end, once the operation is over and every result has been written (23 R441, R445). -/
def sumFinish (c : Nat) (m : Cmd) (s : State) : Chunk :=
  match m.opEnd with
  | none => .go s m
  | some x => if m.out.isEmpty then
    resultKey c m s fun key t => .with_ (sumError c m (land key (leBytes 4 (nth 0 m.aux 1) ++ leBytes 4 0) 0 t)) m (sumEnd m x)
    else .go s m

/-- What an optical sum command does next: it reads its source, or writes the results that have come and ends (23 R441, R447). -/
def sumStep (c cq : Nat) (m : Cmd) (s : State) : Chunk :=
  if m.opEnd.isNone ∧ nth 0 m.aux 0 = 0 then sumRead c cq m s
  else
    sumWrites c cq m m.out m.flt s fun l flt t =>
      if l.isEmpty then sumFinish c { m with out := l, flt := flt } t
      else .wait (modCmd c cq m.seq (fun y => { y with out := l, flt := flt }) t)

/-- OSUM (23 R448). -/
def execOsum (core cq n : Nat) (s : State) : Host.Outcome State Fault Refusal := .next (runCmd 0x20 core cq n sumStart sumStep s)
/-- OSUMB (23 R449). -/
def execOsumb (core cq n : Nat) (s : State) : Host.Outcome State Fault Refusal := .next (runCmd 0x21 core cq n sumStart sumStep s)
/-- OMAX (23 R450). -/
def execOmax (core cq n : Nat) (s : State) : Host.Outcome State Fault Refusal := .next (runCmd 0x22 core cq n sumStart sumStep s)
/-- OBCAST (23 R451). -/
def execObcast (core cq n : Nat) (s : State) : Host.Outcome State Fault Refusal := .next (runCmd 0x23 core cq n sumStart sumStep s)

end Sys2Proof.Machine
end

