-- ==== Sys2Proof/Machine/BusFrames.lean ====
section
/-! DEFINITION. The frames of a segment of the counting bus (23 R432 to R442): presence, ground pass, planes, checks, replays,
notices and calibration, as one sum port of the package meets them. -/
namespace Sys2Proof.Machine

/-! ## Elements (23 R436, R438, R442, R448 to R451) -/

/-- The value of an element of a level with the exponent of its block, where the planes were `w` wide: negative, and magnitude
m × 2^e (23 R438). -/
def scaleOf (e w : Nat) : Int := (e : Int) - 1023 - w + 2

/-- Eb of a magnitude m × 2^q (23 R438); beyond 11 bits the manual states none, and the value is free. -/
def biased (m : Nat) (q : Int) (s : State) : Nat :=
  if m = 0 then 0
  else
    let x : Int := q + ((bitLen m - 1 : Nat) : Int) + 1023
    if 2046 < x then (Config.freeWord s.free).toNat % 2048 else (max 1 x).toNat

/-- Eb of a source element (23 R438). -/
def ebSource (f : FFmt) (x : Nat) (s : State) : Nat :=
  match fdecode f x with
  | .nan _ => 2047
  | .inf _ => 2047
  | .fin _ m e => biased m e s

/-- Eb of a partial sum of a level (23 R442). -/
def ebPartial (w : Nat) (x : Int × Nat) (s : State) : Nat :=
  if x.2 = 2047 then 2047 else if x.2 = 0 then 0 else biased x.1.natAbs (scaleOf x.2 w) s

/-- A magnitude m × 2^q scaled for block exponent `e` and planes of `w` bits, rounded and clamped (23 R438). -/
def mantissa (mode : Rnd) (neg : Bool) (m : Nat) (q : Int) (w e draw : Nat) : Int :=
  if e = 0 ∨ e = 2047 then 0
  else
    let r := (roundAt mode neg m (q + w - 2 - ((e : Int) - 1023)) 0 draw).1
    let top : Int := (2 ^ (w - 1) : Nat)
    if neg then max (-(r : Int)) (-top) else min (r : Int) (top - 1)

/-- What a level-1 writer sends for element `i` (23 R436, R438, R442, R448 to R451). -/
def sendSource (m : Cmd) (e i : Nat) : Int :=
  let x := nth 0 m.acc i
  if i = m.elems ∧ m.isMax = false then 1
  else if m.isSumb then
    (match fdecode m.srcFmt x with
     | .nan _ => 0
     | .inf _ => 0
     | .fin neg k q => mantissa m.rm neg k q m.npl e (if m.rm = .sr then cmdDraw m i else 0))
  else if m.isMax then (x : Int)
  else if m.isBcast && !m.root then 0 else signedOf (8 * m.srcBytes) x

/-- What a delegate sends at a level for element `i`, from the sums `up` of the level below, whose planes were `w0` wide
(23 R442). -/
def sendPartial (m : Cmd) (up : List (Int × Nat)) (w0 w e i : Nat) : Int :=
  let x := nth (0, 0) up i
  if m.isSumb ∧ i ≠ m.elems then mantissa .rne (decide (x.1 < 0)) x.1.natAbs (scaleOf x.2 w0) w e 0 else x.1

/-- The bytes of a result, and whether it was clamped (23 R438, R448 to R451): the sum of the top level with its exponent. -/
def resultOf (m : Cmd) (levels : Nat) (x : Int × Nat) : List Byte × Bool :=
  let n := m.dstBytes
  if m.isSumb then
    let f : FFmt := if m.dfmt = 0 then .f32 else .f64
    let r := if x.2 = 2047 then f.canonNaN
      else if x.2 = 0 then 0
      else (roundFloat f .rne (decide (x.1 < 0)) x.1.natAbs (scaleOf x.2 (m.upWidth levels)) 0).1
    (leBytes n r, false)
  else if m.opc = 0x20 ∧ m.dfmt = 0 then
    let y : Int := max (-2147483648) (min x.1 2147483647)
    (leBytes n (wrapOf 32 y), decide (y ≠ x.1))
  else (leBytes n (wrapOf (8 * n) x.1), false)

/-! ## The slots of a frame (23 R434 to R439) -/

/-- The layout of a frame: plane width, Ew', first data slot, data lanes, D, elements, and OMAX. -/
structure Layout where
  w : Nat
  ewp : Nat
  h : Nat
  lam : Nat
  d : Nat
  n : Nat
  mx : Bool
  deriving DecidableEq, Repr

/-- The difference that the detector makes in a slot. -/
def slotDiff (o : BusObs) (slot lane : Nat) : Int :=
  o.noise.foldl (fun a x => if x.1 = slot ∧ x.2.1 = lane then a + x.2.2 else a) 0

/-- The count that the port's detector reports where `n` writers light. -/
def slotCount (o : BusObs) (slot lane n : Nat) : Nat := ((n : Int) + slotDiff o slot lane).toNat

/-- Slot of element `k` of a block in plane `p`, counted from the first data slot (23 R434). -/
def Layout.planeSlot (g : Layout) (p k : Nat) : Nat := g.h + (g.w - 1 - p) * g.ewp + k / g.lam

/-- The first check slot. -/
def Layout.checkBase (g : Layout) : Nat := g.h + g.w * g.ewp + if g.mx then g.ewp else 0

/-- The NAK slot N (23 R434). -/
def Layout.nakSlot (g : Layout) : Nat := g.checkBase + 12 + g.d

/-- The signed rebuild of element `k` from the counts of its planes, where the writers send `vs` (23 R436). -/
def planeSum (g : Layout) (o : BusObs) (vs : List Int) (k : Nat) : Int :=
  let cnt (p : Nat) : Int := slotCount o (g.planeSlot p k) (1 + k % g.lam) ((vs.filter fun v => bitOf (wrapOf g.w v) p).length)
  (List.range (g.w - 1)).foldl (fun a p => a + cnt p * (2 ^ p : Nat)) 0 - cnt (g.w - 1) * (2 ^ (g.w - 1) : Nat)

/-- One plane of OMAX: the writers still in contention, the first of them the port's own where `own` (23 R439). -/
def maxPlane (g : Layout) (o : BusObs) (own : Bool) (k p : Nat) (x : List (Nat × Bool) × Nat) : List (Nat × Bool) × Nat :=
  let exact := (x.1.filter fun v => v.2 && bitOf v.1 p).length
  let seen := slotCount o (g.planeSlot p k) (1 + k % g.lam) exact
  let drop (mine : Bool) (v : Nat × Bool) : Nat × Bool :=
    if (if mine then seen else exact) = 0 ∨ bitOf v.1 p = true then v else (v.1, false)
  let l := match x.1 with
    | [] => []
    | v :: vs => drop own v :: vs.map (drop false)
  (l, if seen = 0 then x.2 else x.2 + 2 ^ p)

/-- The maximum of element `k`, its winner count, and the winner flag of each writer (23 R439). -/
def planeMax (g : Layout) (o : BusObs) (own : Bool) (vs : List Int) (k : Nat) : Nat × Nat × List Nat :=
  let x := (List.range g.w).reverse.foldl (fun a p => maxPlane g o own k p a) (vs.map fun v => (v.toNat, true), 0)
  let flags := x.1.map fun v => if v.2 then 1 else 0
  (x.2, slotCount o (g.h + g.w * g.ewp + k / g.lam) (1 + k % g.lam) (sumList flags), flags)

/-- The check of a lane: the counts of its check planes against a sum, where the writers send `ks` (23 R437). -/
def checkLane (g : Layout) (o : BusObs) (lane : Nat) (ks : List Nat) (sum : Int) : Bool :=
  let cnt (b : Nat) : Nat := slotCount o (g.checkBase + (11 - b)) (1 + lane) ((ks.filter fun k => bitOf k b).length)
  decide (((List.range 12).foldl (fun a b => a + cnt b * 2 ^ b) 0) % 4096 = wrapOf 12 sum)

/-- The elements of a block on a lane. -/
def Layout.onLane (g : Layout) (lane : Nat) : List Nat := (List.range g.n).filter fun k => k % g.lam == lane

/-- A sum of integers. -/
def sumInt (l : List Int) : Int := l.foldl (fun a x => a + x) 0

/-- The data of a frame as the port rebuilds it: the values, and whether every lane passes (23 R436, R437, R439). -/
def dataOf (g : Layout) (o : BusObs) (own : Bool) (ws : List (List Int)) : List Int × Bool :=
  let col (k : Nat) : List Int := ws.map fun w => nth 0 w k
  if g.mx then
    let xs := genList g.n fun k => planeMax g o own (col k) k
    let lanes := (List.range g.lam).all fun l =>
      let ks := genList ws.length fun i => sumList ((g.onLane l).map fun k => nth 0 (nth (0, 0, []) xs k).2.2 i) % 4096
      checkLane g o l ks (sumList ((g.onLane l).map fun k => (nth (0, 0, []) xs k).2.1) : Nat)
    (xs.map fun x => (x.1 : Int), lanes && xs.all fun x => x.2.1 != 0)
  else
    let xs := genList g.n fun k => planeSum g o (col k) k
    (xs, (List.range g.lam).all fun l =>
      checkLane g o l (ws.map fun w => wrapOf 12 (sumInt ((g.onLane l).map fun k => nth 0 w k)))
        (sumInt ((g.onLane l).map fun k => nth 0 xs k)))

/-- One interval of the ground pass (23 R438): the writers that are still in, the port's own first where `own`, and the exponent
so far. -/
def groundStep (d : Nat) (o : BusObs) (own : Bool) (x : List (Nat × Bool) × Nat) (b : Nat) : List (Nat × Bool) × Nat :=
  let exact := (x.1.filter fun v => v.2 && bitOf v.1 b).length
  let seen := slotCount o (17 + (10 - b) * d) 0 exact
  let drop (mine : Bool) (v : Nat × Bool) : Nat × Bool :=
    if (if mine then seen else exact) = 0 ∨ bitOf v.1 b = true then v else (v.1, false)
  let l := match x.1 with
    | [] => []
    | v :: vs => drop own v :: vs.map (drop false)
  (l, if seen = 0 then x.2 else x.2 + 2 ^ b)

/-- GroundPass (23 R438), as the port follows its counts. -/
def groundPass (d : Nat) (o : BusObs) (own : Bool) (ebs : List Nat) : Nat :=
  ((List.range 11).reverse.foldl (groundStep d o own) (ebs.map fun e => (e, true), 0)).2

/-! ## Operations (23 R435, R440 to R442, R447) -/

/-- An operation before any of its blocks. -/
def BusOp.fresh (grp seq lvl : Nat) : BusOp :=
  { grp := grp, seq := seq, lvl := lvl, cmd := none, joined := false, waits := 0, expired := false, mask := none, down := false,
    done := 0, sub := 0, lim := 0, subSum := [], subExp := none, exp := none, fails := 0, up := [], res := [], gone := false }

/-- The operation of a group with a number, at the sum port of the package that serves a level of the group for a partition. -/
def opAtLevel (pid grp seq lvl : Nat) (s : State) : Option BusOp :=
  ((List.range 8).find? fun d => (opticsOf d s).sum.level == lvl && (groupAt d pid grp s).isSome).bind fun d =>
    (opticsOf d s).sum.opOf grp seq

/-- The operation of the level below, where this package's port is its segment's delegate and takes part in it (23 R442). -/
def lowerOp (pid : Nat) (o : BusOp) (s : State) : Option BusOp :=
  let d := (List.range 8).find? fun d => (opticsOf d s).sum.level + 1 == o.lvl && (groupAt d pid o.grp s).isSome
  match d with
  | none => none
  | some d => if (opticsOf d s).sum.pidx = 0 then ((opticsOf d s).sum.opOf o.grp o.seq).filter fun x => x.joined else none

/-- The ready command of the operation at a level-1 port, not LATE (23 R435, R447). -/
def readyCmd (die : Nat) (g : Group) (s : State) : Option (Nat × Cmd) :=
  (dieSums die s).find? fun x =>
    x.2.pid == g.pid && x.2.grp == g.rcd.grp && x.2.opSeq == g.nextSeq && x.2.isReady && x.2.opEnd.isNone

/-- The group of a sum port goes on to its next operation (23 R447). -/
def nextOp (die : Nat) (g : Group) (s : State) : State :=
  let mine (x : Group) : Bool := x.pid == g.pid && x.rcd.grp == g.rcd.grp
  modSum die (fun p => { p with groups := modWhere mine (fun x => { x with nextSeq := (x.nextSeq + 1) % 65536 }) p.groups }) s

/-- A port keeps the mask that it saw of an operation that has ended (23 R446). -/
def keepMask (die : Nat) (g : Group) (o : BusOp) (s : State) : State :=
  let mine (x : Group) : Bool := x.pid == g.pid && x.rcd.grp == g.rcd.grp
  match o.mask with
  | none => s
  | some k => modSum die (fun p => { p with groups := modWhere mine (fun x => { x with seen := insertKey o.seq k x.seen }) p.groups }) s

/-- The operations of every level with a number taken off the sum ports that serve the group for the partition. -/
def dropOps (pid grp seq : Nat) (s : State) : State :=
  (List.range 8).foldl (fun s d =>
    match groupAt d pid grp s with
    | none => s
    | some _ => modSum d (fun p => { p with ops := p.ops.filter fun o => !(o.grp == grp && o.seq == seq) }) s) s

/-- The command of an operation learns how that ended. -/
def tellCmd (o : BusOp) (st : Nat) (s : State) : State :=
  match o.cmd with
  | none => s
  | some (c, m) =>
    if o.joined ∨ st = 0x51 then
      modCmd c 2 m.seq (fun y => { y with opEnd := some (withMask o.mask (y.completion (if st = 0 ∧ nth 0 y.aux 2 = 1 then 0x50 else st) 0)) }) s
    else s

/-- An operation has ended at a port, with its last notice (23 R441): a level-1 port tells its command; a higher one keeps the
final values for the level below. -/
def endOp (die : Nat) (g : Group) (o : BusOp) (s : State) : State :=
  let s1 := nextOp die g (keepMask die g o s)
  if o.lvl = 1 then dropOps g.pid o.grp o.seq (tellCmd o 0 s1) else modSum die (SumPort.setOp { o with gone := true }) s1

/-- An operation ends with BUS_FAIL at every port of the package (23 R433, R440). -/
def failOp (g : Group) (seq : Nat) (s : State) : State :=
  let s1 := (List.range 8).foldl (fun s d =>
    match groupAt d g.pid g.rcd.grp s with
    | none => s
    | some x =>
      match (opticsOf d s).sum.opOf g.rcd.grp seq with
      | none => s
      | some o =>
        if x.nextSeq = seq then nextOp d x (keepMask d x o (if o.lvl = 1 then tellCmd o 0x51 s else s)) else s) s
  dropOps g.pid g.rcd.grp seq s1

/-- A frame in which a port sends or receives the operation of a command: 4,096 units of class O (23 R452). -/
def chargeFrame (c : Nat) (m : Cmd) (s : State) : State := chargeCmd 3 4096 m (modCmd c 2 m.seq (Cmd.addUnits 4096) s)

/-- A failed block counts in FAILRUN; the third in a row makes the port propose a lower limit (23 R440). -/
def countFailure (die : Nat) (s : State) : State :=
  let p := (opticsOf die s).sum
  if p.failrun = 2 then
    modSum die (fun p => { p with failrun := 0, proposal := some (Nat.min (p.proposal.getD 15) (p.wmax - 1)) })
      { s with fw := { s.fw with notices := s.fw.notices + 1 } }
  else modSum die (fun p => { p with failrun := p.failrun + 1 }) s

/-- A block is sent again from its first subset frame, with the exponent `e` of its ground pass; the twelfth failure in a row at a
limit of 1 ends the operation (23 R440). -/
def replay (die : Nat) (g : Group) (o : BusOp) (e : Nat) (s : State) : State :=
  let n := if o.lim = 1 then o.fails + 1 else 0
  if n = 12 then failOp g o.seq s else modSum die (SumPort.setOp { o with sub := 0, subSum := [], subExp := none, exp := o.exp.or (o.subExp.or (some e)), fails := n }) s

/-- The results of elements from `i` on go to the command, which writes them (23 R441, R442). -/
def giveResults (levels i : Nat) (xs : List (Int × Nat)) (o : BusOp) (s : State) : State :=
  match o.cmd with
  | none => s
  | some (c, m) =>
    let rs := (List.range xs.length).filterMap fun k =>
      if i + k < m.elems then
        let r := resultOf m levels (nth (0, 0) xs k)
        some ((w64 (blkAt (leValue m.blk) 8 8 + (i + k) * m.dstBytes), r.1), r.2)
      else none
    let total := if m.isMax = false ∧ m.elems < i + xs.length then wrapOf 32 (nth (0, 0) xs (m.elems - i)).1 else 0
    modCmd c 2 m.seq (fun y => { y with
      out := y.out ++ rs.map fun r => r.1
      aux := [1, nth 0 y.aux 1 + total, if rs.any fun r => r.2 then 1 else nth 0 y.aux 2] }) s

/-- The port index of the segment head: the lowest one present (23 R441). -/
def headOf (mask : Nat) : Nat := trailingZeros 16 mask

/-- A block has passed at the port (23 R441, R442): its values join those of the level, results are given, and the operation goes
on to its next block, to its down blocks, or to its end. -/
def passBlock (die : Nat) (g : Group) (o : BusOp) (m : Cmd) (final : Bool) (xs : List (Int × Nat)) (s : State) : State :=
  let top := o.lvl == g.rcd.levels
  let settled := o.down || top
  let o1 := { o with
    done := o.done + xs.length, sub := 0, subSum := [], subExp := none, exp := none, fails := 0
    up := if o.down then o.up else o.up ++ xs
    res := if settled then o.res ++ xs else o.res }
  let s1 := if o.lvl = 1 ∧ settled = true ∧ o.joined = true then giveResults g.rcd.levels o.done xs o s else s
  if o1.done < m.carried then modSum die (SumPort.setOp o1) s1
  else if settled = false then modSum die (SumPort.setOp { o1 with down := true, done := 0 }) s1
  else if final ∨ (o.joined = true ∧ headOf (o.mask.getD 0) = (opticsOf die s).sum.pidx) then endOp die g o1 s1
  else modSum die (SumPort.setOp o1) s1

/-- The limit that a block is sent under: that in force at its first subset frame (23 R440). -/
def BusOp.limit (o : BusOp) (p : SumPort) : Nat := if o.sub = 0 then p.wmax else o.lim

/-- A subset frame of a block: its data as the port rebuilds them, added to those of the earlier subsets (23 R436 to R440). `ws`
holds the present writers in ascending order of port index, with their exponents and elements; `e` is the block's exponent, and
`bad` says that presence has failed. -/
def carryFrame (die : Nat) (g : Group) (o : BusOp) (c : Nat) (m : Cmd) (lay : Layout) (obs : BusObs) (e : Nat) (bad : Bool)
    (ws : List (Nat × List Int)) (s : State) : State :=
  let p := (opticsOf die s).sum
  let lim := o.limit p
  let part := (ws.drop (o.sub * lim)).take lim
  let ok0 := part.filter fun x => !o.down || x.1 == 0
  let order := (ok0.filter fun x => x.1 == p.pidx) ++ ok0.filter fun x => x.1 != p.pidx
  let dat := dataOf lay obs (order.any fun x => x.1 == p.pidx) (order.map fun x => x.2)
  let empty := o.down && ok0.isEmpty
  let fail := bad || (m.isSumb && (match o.subExp with
    | some x => x != e
    | none => false)) || (!dat.2 && !(empty && lay.mx))
  let last := decide (ws.length ≤ (o.sub + 1) * lim)
  let s1 := chargeFrame c m (if fail then countFailure die s
    else if last then modSum die (fun p => { p with failrun := 0 }) s else s)
  let nak := slotCount obs lay.nakSlot 0 ((if fail then 1 else 0) + obs.nak)
  let o1 := { o with lim := lim }
  if nak ≠ 0 ∨ fail = true then replay die g o1 e s1
  else
    let old := if o.subSum.isEmpty then genList lay.n fun _ => (0 : Int) else o.subSum
    let sums := (old.zip dat.1).map fun x => if lay.mx then max x.1 x.2 else x.1 + x.2
    if last = false then
      modSum die (SumPort.setOp { o1 with sub := o.sub + 1, subSum := sums, subExp := some e }) s1
    else passBlock die g o1 m obs.final (sums.map fun x => (x, if m.isSumb then e else 0)) s1

/-- The writers that the roll call of a frame names, as a mask (23 R434, R435). -/
def rollCall (obs : BusObs) (present : List Nat) : Nat :=
  (List.range 16).foldl (fun a k => if slotCount obs (1 + k) 0 (if present.contains k then 1 else 0) = 0 then a else a + 2 ^ k) 0

/-- The port indices of a mask in ascending order. -/
def membersOf (mask : Nat) : List Nat := (List.range 16).filter fun k => bitOf mask k

/-- Presence of a frame (23 R435, R440): the roll call's mask, whether the presence slot counted any writer, whether presence has failed,
and whether it is above the registered participants. -/
structure Presence where
  roll : Nat
  lit : Bool
  bad : Bool
  above : Bool

/-- Presence in subset frame `sub` at a limit, where some writers light, judged by a group and by the mask once that is fixed (23 R435,
R440). -/
def judge (obs : BusObs) (present : List Nat) (sub lim nreg : Nat) (mask : Option Nat) : Presence :=
  let roll := rollCall obs present
  let part (l : List Nat) : List Nat := (l.drop (sub * lim)).take lim
  let cnt := slotCount obs 0 0 (part present).length
  let above := decide (nreg < popcount 16 roll) || decide (nreg < cnt)
  { roll := roll, lit := decide (0 < cnt), above := above
    bad := cnt != (part (membersOf (mask.getD roll))).length || above || (match mask with
      | some k => k != roll
      | none => false) }

/-- The frames of a group that have passed since the first in which a writer lit, with this one (23 R435). -/
def BusOp.waited (o : BusOp) (lit : Bool) : Nat := if o.mask.isNone ∧ (0 < o.waits ∨ lit = true) then o.waits + 1 else o.waits

/-- A first block is offered again, since not all have come and the straggle wait runs on (23 R435). -/
def BusOp.offers (o : BusOp) (g : Group) (q : Presence) : Bool :=
  o.mask.isNone && !q.bad && decide (popcount 16 q.roll < g.rcd.nreg) && !o.expired && decide (o.waits < g.rcd.stw)

/-- Firmware hears of presence above registration (23 R435). -/
def noteAbove (q : Presence) (s : State) : State :=
  if q.above then { s with fw := { s.fw with notices := s.fw.notices + 1 } } else s

/-- One frame of a group in which writers are present (23 R435, R440): presence is judged, the participant mask is fixed, and the
block's data are carried. -/
def runFrame (die : Nat) (g : Group) (o : BusOp) (c : Nat) (m : Cmd) (mine : Bool) (obs : BusObs) (s : State) : State :=
  let p := (opticsOf die s).sum
  let others := obs.writers.filter fun w => w.pidx != p.pidx && decide (w.pidx < 16)
  let present := membersOf ((others.map fun w => w.pidx).foldl (fun a k => a ||| 2 ^ k) (if mine then 2 ^ p.pidx else 0))
  let lim := o.limit p
  let n := m.blockAt g.rcd.levels p o.done
  let w := if o.down then m.upWidth (g.rcd.levels + 1) else m.upWidth o.lvl
  let lay : Layout := { w := w, ewp := ceilDiv n p.lambda, h := headSlots m.isSumb p.ddly, lam := p.lambda, d := p.ddly, n := n, mx := m.isMax }
  let q := judge obs present o.sub lim g.rcd.nreg o.mask
  let o0 := { o with cmd := if mine then o.cmd.or (some (c, m)) else o.cmd, waits := o.waited q.lit }
  if o.offers g q then
    chargeFrame c m (modSum die (SumPort.setOp o0) s)
  else
    let o1 := if o.mask.isNone ∧ q.bad = false then { o0 with mask := some q.roll, joined := mine } else o0
    let s1 := noteAbove q s
    let low := lowerOp g.pid o s
    let high := (opAtLevel g.pid o.grp o.seq (o.lvl + 1) s).map fun x => x.res
    let w0 := m.upWidth (o.lvl - 1)
    let elem (e i : Nat) : Int :=
      if o.down then (nth (0, 0) (high.getD []) i).1
      else match low with
        | some x => sendPartial m x.up w0 w e i
        | none => sendSource m e i
    let ebAt (i : Nat) : Nat :=
      if i = m.elems then 0
      else if o.down then (nth (0, 0) (high.getD []) i).2
      else match low with
        | some x => ebPartial w0 (nth (0, 0) x.up i) s
        | none => ebSource m.srcFmt (nth 0 m.acc i) s
    let myEb := (List.range n).foldl (fun a k => Nat.max a (ebAt (o.done + k))) 0
    let sendsEb (k : Nat) : Bool := !o.down || k == 0
    let ebs := (if mine && sendsEb p.pidx then [myEb] else []) ++ (others.filter fun x => sendsEb x.pidx).map fun x => x.eb
    let ground := groundPass p.ddly obs (mine && sendsEb p.pidx) ebs
    let first := o.done == 0 && !o.down
    let e := if m.isSumb = false then 0 else if first then ground else o.exp.getD ground
    let ws := present.map fun k =>
      if k = p.pidx then (k, genList n fun i => elem e (o.done + i))
      else (k, ((others.find? fun x => x.pidx == k).map fun x => x.elems).getD [])
    carryFrame die g o1 c m lay obs e q.bad ws s1

/-- A port that takes no part in an operation follows it to its last notice. -/
def followFrame (die : Nat) (g : Group) (o : BusOp) (obs : BusObs) (s : State) : State :=
  if obs.final then endOp die g o s else s

/-- A frame of an operation in which the port has no ready command and no mask yet: it counts and judges presence like every receiver
(23 R435). -/
def watchFrame (die : Nat) (g : Group) (o : BusOp) (obs : BusObs) (s : State) : State :=
  let present := membersOf ((obs.writers.map fun w => w.pidx).foldl (fun a k => a ||| 2 ^ k) 0)
  let q := judge obs present 0 (opticsOf die s).sum.wmax g.rcd.nreg none
  let o0 := { o with waits := o.waited q.lit }
  if present.isEmpty then (if 0 < o.waits then modSum die (SumPort.setOp o0) s else s)
  else if q.bad then noteAbove q (countFailure die (modSum die (SumPort.setOp o0) s))
  else if o.offers g q then modSum die (SumPort.setOp o0) s
  else
    let o1 := { o0 with mask := some q.roll }
    if obs.final then endOp die g o1 s else modSum die (SumPort.setOp o1) s

/-- A frame of a group at a sum port (23 R432, R435, R442). -/
def groupFrame (die : Nat) (g : Group) (obs : BusObs) (s : State) : State :=
  let p := (opticsOf die s).sum
  let o := (p.opOf g.rcd.grp g.nextSeq).getD (BusOp.fresh g.rcd.grp g.nextSeq p.level)
  let low := lowerOp g.pid o s
  let src : Option (Nat × Cmd) := if o.lvl = 1 then o.cmd.or (readyCmd die g s) else o.cmd.or (low.bind fun x => x.cmd)
  match src with
  | none =>
    if o.mask.isSome then followFrame die g o obs s else watchFrame die g o obs s
  | some (c, m) =>
    if o.mask.isSome ∧ o.joined = false ∧ o.lvl = 1 then followFrame die g o obs s
    else if m.carried ≤ o.done then followFrame die g o obs s
    else
      let need := o.done + m.blockAt g.rcd.levels p o.done
      let covered := match low with
        | some x => decide (need ≤ x.up.length)
        | none => o.lvl == 1
      let mine := if o.down then o.joined else (o.mask.isNone || o.joined) && covered
      let held := match opAtLevel g.pid o.grp o.seq (o.lvl + 1) s with
        | some x => decide (need ≤ x.res.length)
        | none => false
      let runs := if o.down then (if p.pidx = 0 then held else obs.writers.any fun w => w.pidx == 0)
        else mine || !obs.writers.isEmpty
      if runs then runFrame die g o c m mine obs s
      else if o.mask.isNone ∧ 0 < o.waits then modSum die (SumPort.setOp { o with waits := o.waits + 1 }) s
      else s

/-- SEGMENT_FRAME (23 R432, R434): the next frame of a sum port's segment, unless it is a calibration frame; the frames are dealt
out to the group slots in turn. -/
def execSegmentFrame (die : Nat) (obs : BusObs) (s : State) : Host.Outcome State Fault Refusal :=
  .next (
    let p := (opticsOf die s).sum
    if p.frame % 64 = 63 then s
    else
      let s1 := modSum die (fun p => { p with frame := p.frame + 1, slotK := p.slotK + 1 }) s
      tickFree (match nth? p.groups (p.slotK % (p.grpmax + 1)) with
        | none => s1
        | some g => if p.wmax = 0 then s1 else groupFrame die g obs s1))

/-- STRAGGLE_EXPIRY (23 R435): the straggle wait of the operation of a group has passed; its next frame fixes the mask. -/
def execStraggleExpiry (die grp : Nat) (s : State) : Host.Outcome State Fault Refusal :=
  .next (
    let p := (opticsOf die s).sum
    match p.groups.find? fun g => g.rcd.grp == grp with
    | none => s
    | some g =>
      match p.opOf grp g.nextSeq with
      | none => s
      | some o => if o.mask.isNone ∧ g.rcd.stw ≤ o.waits then modSum die (SumPort.setOp { o with expired := true }) s else s)

/-! ## Calibration (23 R432, R433, R440) -/

/-- Every operation in progress at a sum port, and every command of its die that has started, ends with BUS_FAIL (23 R433, R446). -/
def outOfService (die : Nat) (s : State) : State :=
  let p := (opticsOf die s).sum
  let s1 := p.groups.foldl (fun s g => if (p.opOf g.rcd.grp g.nextSeq).isSome then failOp g g.nextSeq s else s) s
  (dieSums die s1).foldl (fun s x =>
    if x.2.running && x.2.opEnd.isNone then
      modCmd x.1 2 x.2.seq (fun y => { y with opEnd := some (y.completion 0x51 0) }) s
    else s) s1

/-- CALIBRATION_FRAME (23 R432, R433, R440; 22 R424): the port's levels, trims and D are measured, the proposals are taken, and
retired lanes of the sum port are replaced. -/
def execCalibrationFrame (die : Nat) (cal : CalIn) (s : State) : Host.Outcome State Fault Refusal :=
  .next (
    let p := (opticsOf die s).sum
    if p.frame % 64 ≠ 63 then s
    else
      let cap := (p.proposal.toList ++ cal.proposals).foldl Nat.min p.cap
      let wmax := if cal.held then Nat.min (Nat.min 15 cal.wmax) cap else 0
      let fell := decide (wmax < p.wmax)
      let q : SumPort := { p with
        frame := p.frame + 1, cap := cap, wmax := wmax, proposal := none
        ddly := if 1 ≤ cal.ddly ∧ cal.ddly ≤ 255 then cal.ddly else p.ddly
        lowered := if fell then (p.lowered + 1) % 65536 else p.lowered }
      let s1 := modOptics die (fun o => (retiredLanes true o).foldl (replaceLane 1 3) { o with sum := q })
        { s with fw := { s.fw with notices := if fell then s.fw.notices + 1 else s.fw.notices } }
      if wmax = 0 then outOfService die s1 else s1)

end Sys2Proof.Machine
end

