-- ==== Sys2Proof/Machine/Enqueue.lean ====
section
/-! DEFINITION. ENQ, ENQV and the trigger counter instructions (15 R318, R324, R325; 12 R273, R277; 16 R351; 17 R353;
23 R449). -/
namespace Sys2Proof.Machine

/-! ## Building a command -/

/-- The command that a tile command word gives at enqueue (15 R318). -/
def cmdOf (w : BitVec 256) (byEnqv : Bool) (idx : List Nat) (g : Nat) (s : State) : Cmd :=
  { tcw := w, byEnqv := byEnqv, idx := idx, gen := g, tid := s.tid, pid := myPid s, lid := myLid s, priv := s.ts.priv,
    f := isF s, seq := s.seq, after := openAccesses s,
    pred := none, predSt := none, fired := false, started := false, pos := 0, aux := [], units := 0, blk := [], blkEnq := [],
    acc := [], reads := [], writes := [], locks := [], lockCopy := [],
    srKey := (s.ts.srseed.toNat, s.ts.rankid.toNat % 2 ^ 16, s.ts.tsid.toNat), srBase := s.ts.srctr.toNat, srCount := 0, rm := .rne,
    ticket := none, out := [], flt := none, opEnd := none, fin := none, ord := none }

/-- The class of a command agrees with its opcode, so that its chapter's rules for the enqueue apply. -/
def Cmd.isOp (m : Cmd) (lo hi : Nat) : Bool := decide (lo ≤ m.opc) && decide (m.opc ≤ hi) && m.cls == m.opc / 16

/-- The enqueue's reads of its parameter block must wait for a retired operation of its own thread set on it (12 R261, 17 R353,
23 R449). -/
def blockWaits (m : Cmd) (s : State) : Bool :=
  (m.isOp 0x10 0x15 || m.isOp 0x21 0x21) && decide (m.pblk + 128 ≤ (if isF s then 0x100000 else 0xFC000)) &&
    (match ownAt .load 128 (w64 m.pblk) s with
     | .mem t key _ _ _ => (List.range 16).any fun k => mustWait (key + 8 * k) 8 t
     | .wait _ => true
     | .const _ | .event _ _ | .fw _ _ | .fault _ _ _ | .merr _ _ => false)

/-- The parameter block as the enqueue reads it; none where it cannot be read then (17 R353, 23 R449). -/
def blockAtEnq (m : Cmd) (s : State) : Option Nat :=
  if m.pblk + 128 ≤ (if isF s then 0x100000 else 0xFC000) then
    match ownAt .load 128 (w64 m.pblk) s with
    | .mem t key _ _ _ => if (readError key 128 t).isSome then none else some (leValue (readOwn key 128 t))
    | .const _ | .event _ _ | .fw _ _ | .fault _ _ _ | .wait _ | .merr _ _ => none
  else none

/-- COUNT of the parameter block of an OSUMB as the enqueue reads it; 0 where it cannot be read then (23 R449). -/
def countAtEnq (m : Cmd) (s : State) : Nat :=
  if m.pblk + 128 ≤ (if isF s then 0x100000 else 0xFC000) then
    match ownAt .load 4 (w64 (m.pblk + 16)) s with
    | .mem t key _ _ _ => if (readError key 4 t).isSome then 0 else leValue (readOwn key 4 t)
    | .const _ | .event _ _ | .fw _ _ | .fault _ _ _ | .wait _ | .merr _ _ => 0
  else 0

/-- The windows of a command, whose block the enqueue has read: two lists, to read and to write (15 R327; 16 R351; 17 R358). -/
def cmdWindows (m : Cmd) (blk : Option Nat) (s : State) : List Window × List Window :=
  if m.isOp 0x01 0x03 then tileWindows s.here m s
  else if m.isOp 0x10 0x15 then
    (match blk with
     | some x => xferWindows s.here x m s
     | none => ([], []))
  else ([], [])

/-- The rounding mode that a command's enqueue fixes: ORM of a tile command (16 R349), RM of OSUMB (23 R444). -/
def enqMode (m : Cmd) (s : State) : Rnd :=
  if m.isOp 0x01 0x03 then ormMode m.orm s else if m.isOp 0x21 0x21 then rndOfCode (m.field 101 3) else .rne

/-- The draws that a command's enqueue reserves (16 R351, 23 R449). -/
def enqDraws (m : Cmd) (rm : Rnd) (s : State) : Nat :=
  if m.isOp 0x01 0x03 then tileDraws m rm
  else if m.isOp 0x21 0x21 ∧ rm = .sr then countAtEnq m s
  else 0

/-- A command with what its enqueue fixes (15 R318, R326, R327). -/
def prepared (m : Cmd) (s : State) : Cmd :=
  let blk := blockAtEnq m s
  let w := cmdWindows m blk s
  let rm := enqMode m s
  let regs := if m.isOp 0x01 0x03 ∧ tileOk s.here m s then m.scaleRegs else []
  { m with blkEnq := (blk.map (leBytes 128)).getD [], reads := w.1, writes := w.2, rm := rm, srCount := enqDraws m rm s, locks := regs,
           lockCopy := regs.map fun r => (r, vecGet s.ts.v r) }

/-! ## ENQ and ENQV (15 R318) -/

/-- A command's chain predecessor: the command that its thread set enqueued last on the same queue, with the status it ended
with, if it has (15 R314). -/
def withPred (cq : Nat) (m : Cmd) (s : State) : Cmd :=
  match s.core.lastCmd.find? fun x => x.1 == cq * 8 + s.tid with
  | some (_, q, st) => { m with pred := some q, predSt := st }
  | none => m

/-- A command joins its queue (15 R318): its trigger condition is evaluated, and its locks are set. -/
def append (cq : Nat) (m : Cmd) (s : State) : State :=
  let n := m.trg
  let fired := n == 0 || m.unarmed || trgFired (s.core.counter s.tid n) m.thr
  let m1 := { withPred cq m s with fired := fired }
  let k := s.core.modQueue cq fun l => l ++ [m1]
  useDraws m.srCount
    { s with core := { k with lastCmd := insertKey (cq * 8 + s.tid) (m.seq, none) k.lastCmd },
             ts := { s.ts with locks := m.locks.foldl (fun b r => b ||| (1#32 <<< r)) s.ts.locks }, seq := s.seq + 1 }

/-- Enq of R318 on a word that has been read; EVAL of STALE_PALETTE is `ev` (12 R273). -/
def enqWord (w : BitVec 256) (byEnqv : Bool) (idx : List Nat) (ev : Word) (s : State) : Eff :=
  let e := bitsOf w.toNat 240 4
  if !s.ts.palHold.isEmpty then .hold s .stalled
  else if palOk e s = false then .trap 0x24 0 ev
  else
    let m0 := cmdOf w byEnqv idx (palGen e s) s
    let m := prepared m0 s
    let cq := queueFor s.tid m.cls
    let full := decide (queueCap cq ≤ (vecGet s.core.queues cq).length)
    let noWin := decide (96 < windowCount s + m.reads.length + m.writes.length)
    keepPal e (if full || noWin || blockWaits m0 s then .hold s .stalled else .ok (append cq m s))

/-- The word of an ENQ: the one that it read when it issued, or read now and kept (15 R318). -/
def takeWord (off : Word) (s : State) (f : Nat → State → Eff) : Eff :=
  match s.ts.enqWord with
  | some x => f x s
  | none => loadEff (ownLoad 32 32 off s) s fun x t => f x { t with ts := { t.ts with enqWord := some x } }

/-- ENQ (15 R318). -/
def execEnq (a : Reg) (s : State) : Host.Outcome State Fault Refusal :=
  .next (execUse (useA a) s fun t =>
    takeWord (getS a t) t fun x u => enqWord (BitVec.ofNat 256 x) false [] (getS a t) u)

/-- The value of a vector register, through its stream slot where it is bound (06 R158). -/
def peekV (n : VReg) (s : State) : VWord :=
  match boundSlot (.v n) s with
  | none => getV n s
  | some i =>
    if (badRead i s).isSome then 0
    else
      match popOne i (.v n) s with
      | .ok t => getV n t
      | .fault _ _ | .wait _ | .merr _ _ => 0

/-- ENQV reads its two index registers (15 R318). -/
def enqvIdx (a : VReg) (s : State) : Bool :=
  let x := bitsOf (peekV a s).toNat 248 8
  x == 0x12 || x == 0x13

/-- The 16 lanes of a vector register. -/
def lanes (x : VWord) : List Nat := genList 16 fun k => bitsOf x.toNat (32 * k) 32

/-- ENQV (15 R318). -/
def execEnqv (a : VReg) (s : State) : Host.Outcome State Fault Refusal :=
  .next (
    let b := a + 1
    let c := a + 2
    let ix := enqvIdx a s
    let u : Use := { len := 4, a := some (.v a), b := none, more := if ix then [.v b, .v c] else [], w := none }
    execUse u s fun t =>
      enqWord ((getV a t).setWidth 256) true (if ix then lanes (getV b t) ++ lanes (getV c t) else []) 0 t)

/-! ## Trigger counters (15 R325) -/

/-- A counter that the context does not have: ILLEGAL with DETAIL 2 in a reserve bank (20 R397). -/
def noCounter (n : Nat) (s : State) : Bool := isBank s && decide (8 ≤ n)

/-- Counter `n` of the focused context. -/
def myCounter (n : Nat) (s : State) : Nat := s.core.counter s.tid n

/-- Counter `n` of the focused context set (15 R324). -/
def putCounter (n v : Nat) (s : State) : State :=
  { s with core := s.core.setCounter s.tid n v, ts := noteTrg n (v % 2 ^ 32) s.ts }

/-- The word of a trigger instruction (15 R325). -/
def trgWord (op f n a d : Nat) : Raw := .i (op * 2 ^ 12 + f * 2 ^ 6 + n) a d 0x3C

/-- TRGADD (15 R325): a release on p1 of the thread set's earlier writes. -/
def execTrgadd (t : BitVec 6) (a : Reg) (s : State) : Host.Outcome State Fault Refusal :=
  .next (if noCounter t.toNat s then finish useNone s (illegal 2 (trgWord 0 0 t.toNat a.toNat 0))
    else execUse (useA a) s fun u =>
      if drained (true, true) u then .ok (putCounter t.toNat (myCounter t.toNat u + (getS a u).toNat % 2 ^ 32) u)
      else .hold u .stalled)

/-- A command of the focused context is armed on counter `n` and has not fired (15 R325). -/
def armedUnfired (n : Nat) (s : State) : Bool :=
  (trgQueues s.tid).any fun q => (vecGet s.core.queues q).any fun m => m.trg == n && !m.fired

/-- Trgset (15 R325). -/
def trgsetEff (f : Bool) (n : Nat) (d : Reg) (v : Nat) (s : State) : Eff :=
  if armedUnfired n s && !f then .ok (setS d 1 s)
  else if drained (true, true) s then .ok (setS d 0 (putCounter n v s)) else .hold s .stalled

/-- TRGSET (15 R325). -/
def execTrgset (f : Bool) (t : BitVec 6) (d a : Reg) (s : State) : Host.Outcome State Fault Refusal :=
  .next (if noCounter t.toNat s then finish useNone s (illegal 2 (trgWord 1 f.toNat t.toNat a.toNat d.toNat))
    else execUse (useAD d a) s fun u => trgsetEff f t.toNat d ((getS a u).toNat % 2 ^ 32) u)

/-- TRGWAIT (15 R325): it returns at the first instant at which its condition holds, so the state keeps whether it has. -/
def trgwaitEff (n h : Nat) (s : State) : Eff :=
  if s.ts.trgWait = some (n, h, true) ∨ trgFired (myCounter n s) h then .ok s
  else .hold { s with ts := { s.ts with trgWait := some (n, h, false) } } .waiting

/-- TRGWAIT (15 R325). -/
def execTrgwait (t : BitVec 6) (a : Reg) (s : State) : Host.Outcome State Fault Refusal :=
  .next (if noCounter t.toNat s then finish useNone s (illegal 2 (trgWord 2 0 t.toNat a.toNat 0))
    else execUse (useA a) s fun u => trgwaitEff t.toNat ((getS a u).toNat % 2 ^ 32) u)

/-- TRGGET (15 R325). -/
def execTrgget (t : BitVec 6) (d : Reg) (s : State) : Host.Outcome State Fault Refusal :=
  .next (if noCounter t.toNat s then finish useNone s (illegal 2 (trgWord 3 0 t.toNat 0 d.toNat))
    else execUse (useD d) s fun u => .ok (setS d (w64 (myCounter t.toNat u)) u))

end Sys2Proof.Machine
end

