-- ==== Sys2Proof/Machine/Crypto.lean ====
section
/-! DEFINITION. SHA-256 and ECDSA P-256, as their standards define them (00 R2, 25 R463; log entry 9). -/
namespace Sys2Proof.Machine

/-- Bytes as a big-endian number. -/
def beValue (l : List Byte) : Nat := l.foldl (fun a b => 256 * a + b.toNat) 0

/-- A number as `n` big-endian bytes. -/
def beBytes (n v : Nat) : List Byte := (leBytes n v).reverse

/-! ## SHA-256

A hash value and the working variables of a round are eight words, the first of them at the head of a list. -/

/-- The eight words of the hash value that a digest begins with, one after another. -/
def shaStart : Nat := 0x6a09e667bb67ae853c6ef372a54ff53a510e527f9b05688c1f83d9ab5be0cd19

/-- The sixty-four words that the rounds add, one after another, the first round's foremost. -/
def shaAdds : Nat := 0x428a2f9871374491b5c0fbcfe9b5dba53956c25b59f111f1923f82a4ab1c5ed5d807aa9812835b01243185be550c7dc372be5d7480deb1fe9bdc06a7c19bf174e49b69c1efbe47860fc19dc6240ca1cc2de92c6f4a7484aa5cb0a9dc76f988da983e5152a831c66db00327c8bf597fc7c6e00bf3d5a7914706ca63511429296727b70a852e1b21384d2c6dfc53380d13650a7354766a0abb81c2c92e92722c85a2bfe8a1a81a664bc24b8b70c76c51a3d192e819d6990624f40e3585106aa07019a4c1161e376c082748774c34b0bcb5391c0cb34ed8aa4a5b9cca4f682e6ff3748f82ee78a5636f84c878148cc7020890befffaa4506cebbef9a3f7c67178f2

/-- Word `i` of `n` words that stand one after another in a number. -/
def wordOf (n x i : Nat) : W32 := BitVec.ofNat 32 (bitsOf x (32 * (n - 1 - i)) 32)

/-- A word taken three times, each turned right by another distance. -/
def turned (i j k : Nat) (x : W32) : W32 := (x.rotateRight i ^^^ x.rotateRight j) ^^^ x.rotateRight k

/-- A round of the compression, given the sum of its constant and its word of the message. -/
def shaRound (x : List W32) (q : W32) : List W32 :=
  let v (i : Nat) : W32 := nth 0 x i
  let chosen := v 6 ^^^ (v 4 &&& (v 5 ^^^ v 6))
  let most := (v 0 &&& (v 1 ||| v 2)) ||| (v 1 &&& v 2)
  let t := turned 6 11 25 (v 4) + chosen + v 7 + q
  (turned 2 13 22 (v 0) + most + t) :: x.take 3 ++ (v 3 + t) :: (x.drop 4).take 3

/-- The message words of a block with `n` more of them; the newest word is the head. -/
def shaWords : Nat → List W32 → List W32
  | 0, l => l
  | n + 1, l =>
    let old := nth 0 l 14
    let new := nth 0 l 1
    let a := (old.rotateRight 7 ^^^ old.rotateRight 18) ^^^ old >>> 3
    let b := (new.rotateRight 17 ^^^ new.rotateRight 19) ^^^ new >>> 10
    shaWords n ((nth 0 l 15 + a + nth 0 l 6 + b) :: l)

/-- The hash value after one more block, which stands as a number of 512 bits. -/
def shaBlock (x : List W32) (b : Nat) : List W32 :=
  let ws := shaWords 48 ((List.range 16).map fun i => wordOf 16 b (15 - i))
  let y := (List.range 64).foldl (fun y i => shaRound y (wordOf 64 shaAdds i + nth 0 ws (63 - i))) x
  List.zipWith (fun a b => a + b) x y

/-- What follows a message of `n` bytes up to whole blocks: a one bit, zeros, and its length in bits. -/
def shaTail (n : Nat) : List Byte := 0x80 :: (leBytes ((119 - n % 64) % 64) 0 ++ beBytes 8 (8 * n))

/-- SHA-256 of a message. -/
def sha256 (m : List Byte) : List Byte :=
  let all := m ++ shaTail m.length
  let last := (List.range (all.length / 64)).foldl (fun y i => shaBlock y (beValue ((all.drop (64 * i)).take 64)))
    ((List.range 8).map (wordOf 8 shaStart))
  last.flatMap fun w => beBytes 4 w.toNat

/-! ## P-256 and ECDSA -/

/-- The field prime. -/
def p256P : Nat := 2 ^ 256 - 2 ^ 224 + 2 ^ 192 + 2 ^ 96 - 1
/-- The order of the base point. -/
def p256N : Nat := 0xFFFFFFFF00000000FFFFFFFFFFFFFFFFBCE6FAADA7179E84F3B9CAC2FC632551
/-- The coefficient b; a is −3. -/
def p256B : Nat := 0x5AC635D8AA3A93E7B3EBBD55769886BC651D06B0CC53B0F63BCE3C3E27D2604B
/-- The base point. -/
def p256G : Nat × Nat :=
  (0x6B17D1F2E12C4247F8BCE6E563A440F277037D812DEB33A0F4A13945D898C296,
   0x4FE342E2FE1A7F9B8EE7EB4A7C0F9E162BCE33576B315ECECBB6406837BF51F5)

/-- x^e modulo m, for an exponent of 256 bits. -/
def powMod (x e m : Nat) : Nat :=
  (List.range 256).reverse.foldl (fun a i => let q := a * a % m; if bitOf e i then q * x % m else q) 1

/-- The inverse of x modulo a prime. -/
def invMod (x m : Nat) : Nat := powMod x (m - 2) m

/-- The third point of a line of slope k through points of first coordinates x and u, the first of which has second coordinate y. -/
def p256Third (k x y u : Nat) : Nat × Nat :=
  let z := (k * k + 2 * p256P - x - u) % p256P
  (z, (k * (x + p256P - z) + p256P - y) % p256P)

/-- The sum of two points; the point at infinity is none. -/
def p256Add : Option (Nat × Nat) → Option (Nat × Nat) → Option (Nat × Nat)
  | none, q => q
  | some p, none => some p
  | some (x, y), some (u, v) =>
    if x = u then
      (if (y + v) % p256P = 0 then none
       else some (p256Third ((3 * x * x + p256P - 3) * invMod (2 * y) p256P % p256P) x y u))
    else some (p256Third ((v + p256P - y) * invMod ((u + p256P - x) % p256P) p256P % p256P) x y u)

/-- A point multiplied by a number of 256 bits. -/
def p256Mul (k : Nat) (q : Nat × Nat) : Option (Nat × Nat) :=
  (List.range 256).reverse.foldl (fun r i => let d := p256Add r r; if bitOf k i then p256Add d (some q) else d) none

/-- A point lies on the curve. -/
def p256On (q : Nat × Nat) : Bool :=
  decide (q.1 < p256P) && decide (q.2 < p256P) && (q.2 * q.2) % p256P == (q.1 * q.1 * q.1 + (p256P - 3) * q.1 + p256B) % p256P

/-- ECDSA verification of a signature (r, s) over a digest, under a public key. -/
def ecdsaOk (key : Nat × Nat) (digest r s : Nat) : Bool :=
  p256On key && decide (1 ≤ r) && decide (r < p256N) && decide (1 ≤ s) && decide (s < p256N) &&
    (let w := invMod s p256N
     match p256Add (p256Mul (digest * w % p256N) p256G) (p256Mul (r * w % p256N) key) with
     | none => false
     | some q => q.1 % p256N == r)

/-- The ECDSA signature over a digest with a private key and a nonce: r and s. -/
def ecdsaSign (key nonce digest : Nat) : Nat × Nat :=
  let r := match p256Mul nonce p256G with
    | none => 0
    | some q => q.1 % p256N
  (r, invMod nonce p256N * ((digest + r * key) % p256N) % p256N)

/-- The 64 bytes, r then s, of the ECDSA P-256 signature with SHA-256 over a message. -/
def signWith (key nonce : Nat) (msg : List Byte) : List Byte :=
  let x := ecdsaSign key nonce (beValue (sha256 msg))
  beBytes 32 x.1 ++ beBytes 32 x.2

/-- The 64 bytes of a signature, r then s, are a valid ECDSA P-256 signature with SHA-256 over a message, under a public key of 64
bytes, x then y. -/
def signedBy (key msg sig : List Byte) : Bool :=
  ecdsaOk (beValue (key.take 32), beValue (key.drop 32)) (beValue (sha256 msg)) (beValue (sig.take 32)) (beValue (sig.drop 32))

end Sys2Proof.Machine
end

