-- ==== Sys2Proof/Machine/Firmware.lean ====
section
/-! DEFINITION. Firmware (chapter 25): configuration table, boot, column map, roles and their recovery, hand-over, attestation,
profiles, temperatures and background work. -/
namespace Sys2Proof.Machine

/-! ## The configuration table (25 R463) -/

/-- A field of the table: `n` bytes from byte `lo`. -/
def tableField (t : List Byte) (lo n : Nat) : Nat := leValue ((t.drop lo).take n)

/-- PROW of an entry of ROLEMAP. -/
def roleRow (t : List Byte) (i : Nat) : Nat := tableField t (33 + 4 * i) 1

/-- PCOL of an entry of ROLEMAP. -/
def roleCol (t : List Byte) (i : Nat) : Nat := tableField t (34 + 4 * i) 1

/-- An entry of ROLEMAP as role code, router and mirror. -/
def tableRole (t : List Byte) (i : Nat) : Nat × Nat × Nat :=
  (tableField t (32 + 4 * i) 1, roleRow t i * 68 + roleCol t i, tableField t (35 + 4 * i) 1)

/-- The entries of ROLEMAP in use. -/
def usedRoles (t : List Byte) : List Nat := (List.range 64).filter fun i => (tableRole t i).1 != 0

/-- The die of a router (08 R173). -/
def routerDie (n : Nat) : Nat := n % 68 / 17 + 4 * (n / 68 / 16)

/-- An entry of ROLEMAP meets R463: an assigned code, a core of the firmware column, and for a front end or an admission role a
mirror on another die. -/
def roleOk (t : List Byte) (i : Nat) : Bool :=
  let r := tableRole t i
  decide (r.1 ≤ 8) && decide (roleRow t i < 32) && decide (roleCol t i < 68) && (fwCols t).contains (roleCol t i) &&
    (decide (2 < r.1) || (decide (r.2.2 < 64) && (tableRole t r.2.2).1 != 0 && routerDie (tableRole t r.2.2).2.1 != routerDie r.2.1))

/-- The entries of ROLEMAP that are not in use, and the last 3 bytes of each entry of SUMPORTS, are zero. -/
def tableZeros (t : List Byte) : Bool :=
  (List.range 64).all (fun i => (tableRole t i).1 != 0 || tableField t (32 + 4 * i) 4 == 0) &&
    (List.range 8).all fun d => tableField t (293 + 8 * d) 3 == 0

/-- The fields of the table meet R463. -/
def tableFieldsOk (t : List Byte) : Bool :=
  let w := tableField t 12 1
  t.length == 448 && tableField t 0 4 == 0x47544358 && tableField t 8 4 == 448 && decide (1 ≤ w) && decide (w ≤ 4) &&
    decide (tableField t 13 1 ≤ 2) && tableField t 14 2 == 0 && tableField t 20 12 == 0 && tableField t 358 26 == 0 &&
    (List.range 4).all (fun i => if i < w then decide (tableField t (16 + i) 1 < 68) else tableField t (16 + i) 1 == 0xFF) &&
    decide (fwCols t).Nodup && tableZeros t && (usedRoles t).all (roleOk t)

/-- Step 1 of R464: SIG over SHA-256 of bytes 0 to 383, and the SVN. -/
def tableOk (t : List Byte) : Bool :=
  tableFieldsOk t && sha256 Config.publicKey == Config.fusedKey && signedBy Config.publicKey (t.take 384) (t.drop 384) && decide (Config.fusedSvn ≤ tableField t 4 4)

/-- Step 4 of R464: the image's own signature under the same key, and its SVN against the table's. -/
def imageOk (t img : List Byte) : Bool :=
  signedBy Config.publicKey (Config.imageCovered img) (Config.imageSig img) && decide (tableField t 4 4 ≤ Config.imageSvn img)

/-! ## The column map (25 R465) -/

/-- The physical columns outside FWCOLS. -/
def tenantCols (t : List Byte) : List Nat := (List.range 68).filter fun c => !(fwCols t).contains c

/-- The columns outside FWCOLS that hold a failed core. -/
def failedCols (t : List Byte) (failed : List Nat) : List Nat := (tenantCols t).filter fun c => failed.any fun n => n % 68 == c

/-- The physical columns of logical columns 0 to 63, where no more columns have failed than there are spares (25 R465). -/
def columnMap (t : List Byte) (bad : List Nat) : Option (List Nat) :=
  let left := (tenantCols t).filter fun c => !bad.contains c
  if left.length < 64 then none else some (left.take 64)

/-! ## Roles on their cores (25 R464 step 5, R466) -/

/-- The core of a router of the firmware column (log entry 2). -/
def fwCore (n : Nat) : Nat := 2048 + n

/-- ROLE of a role map entry (25 R466). -/
def roleWord (idx code : Nat) : Word := w64 (code + idx * 256)

/-- A core loaded with an image, its constant bank included. -/
def loadImage (img : List Byte) (c : Nat) (s : State) : State :=
  land (constKey c 0) ((Config.imageConsts img).map fun w => leBytes 4 w.toNat).flatten 0 (land (lmKey c (Config.imageBase img)) img 0 s)

/-- A core with no role: its thread sets have ended. -/
def idleCore (k : Core) : Core :=
  { Core.reset with fwctl := k.fwctl, corr := k.corr, entropyBad := k.entropyBad, selfTested := k.selfTested }

/-- A role started at F on a core that holds its image: on thread set 0, at the entry of the image. -/
def startRole (img : List Byte) (idx code c : Nat) (s : State) : State :=
  let k := idleCore (getCore c s)
  let t := { ThreadSet.reset 0 with pc := BitVec.ofNat 20 (Config.imageEntry img / 4 * 4), status := 1, run := .ready, coord := w64 (coordOf c) }
  setCore c { k with role := roleWord idx code, tsets := vecSet k.tsets 0 t } { s with fw := { s.fw with erred := s.fw.erred.filter fun x => x != c } }

/-! ## Boot (25 R464, R465, R470) -/

/-- The sum port of a die as SUMPORTS has it, on the lanes of WL 0 to Λ (25 R463; 23 R431; 22 R425). -/
def bootOptics (t : List Byte) (d : Nat) (o : Optics) : Optics :=
  let a := 288 + 8 * d
  let lam := tableField t (a + 4) 1
  let o1 := { o with sum := { o.sum with segid := tableField t a 2, level := tableField t (a + 2) 1, pidx := tableField t (a + 3) 1, lambda := lam } }
  let o2 := { o1 with lanes := modWhere (fun l => l.st != 0 && decide (l.wl ≤ lam)) (fun l => { l with st := 1, port := 3 }) o1.lanes }
  o2.modPort 3 fun p => { p with cfg := w64 (1024 + lam + 1) }

/-- The boot ROM stops and waits in recovery, for a table or for an image (25 R465, R470). -/
def stopBoot (forTable : Bool) (s : State) : State := { s with fw := { s.fw with recovery := true, waitTable := forTable } }

/-- Step 5 of R464: the image is loaded into every core that ROLEMAP names, and each role starts at F. -/
def startFirmware (t img : List Byte) (cols : List Nat) (s : State) : State :=
  let rs := (usedRoles t).map fun i => { idx := i, code := (tableRole t i).1, core := fwCore (tableRole t i).2.1, mirror := (tableRole t i).2.2 : Role }
  let s1 := rs.foldl (fun s r => startRole img r.idx r.code r.core (loadImage img r.core s)) s
  { s1 with
    optics := vecGen 8 fun d => bootOptics t d (vecGet s1.optics d)
    fw := { s1.fw with
      table := t, image := img, incoming := [], booted := true, recovery := false, waitTable := false, colMap := cols,
      profile := tableField t 13 1, roles := rs
      standby := (rs.filter fun r => r.code == 8).map fun r => r.core } }

/-- Steps 1 to 5 of R464 with a table and an image, where self-test has found the failed cores. -/
def bootWith (t img : List Byte) (bad : Bool) (s : State) : State :=
  if tableOk t = false then stopBoot true s
  else
    match columnMap t (failedCols t s.fw.failed) with
    | none => stopBoot true s
    | some cols =>
      if (usedRoles t).any fun i => s.fw.failed.contains (tableRole t i).2.1 then stopBoot true s
      else
        let s1 := { s with fw := { s.fw with table := t } }
        if bad || !imageOk t img then stopBoot false s1 else startFirmware t img cols s1

/-- The machine as power-on leaves it: host memory and the module flash keep what they hold. -/
def powerOn (s : State) : State :=
  { State.reset with
    mem := s.mem.filter fun c => isHostPa c.1
    agenda := s.agenda, free := s.free, tick := s.tick
    fw := { Firmware.reset with flashTable := s.fw.flashTable, flash := s.fw.flash, flashBad := s.fw.flashBad } }

/-- BOOT (25 R464): power-on, with the routers whose cores fail self-test. -/
def execBoot (failed : List Nat) (s : State) : Host.Outcome State Fault Refusal :=
  .next (
    let t := powerOn s
    bootWith t.fw.flashTable t.fw.flash t.fw.flashBad { t with fw := { t.fw with failed := failed } })

/-- HOST_CONFIGURATION_TABLE (25 R465, R470): in recovery, the boot ROM verifies a table from the host and boots with it. -/
def execHostConfigurationTable (table : List Byte) (s : State) : Host.Outcome State Fault Refusal :=
  .next (if s.fw.recovery = true ∧ s.fw.booted = false ∧ s.gwerid = .up then
    (if s.fw.fromHost then bootWith table s.fw.incoming false s else bootWith table s.fw.flash s.fw.flashBad s)
  else s)

/-- RECOVERY_IMAGE (25 R470): in recovery, the boot ROM verifies an image from the host and runs it. -/
def execRecoveryImage (img : List Byte) (s : State) : Host.Outcome State Fault Refusal :=
  .next (if s.fw.recovery = true ∧ s.fw.booted = false ∧ s.gwerid = .up then
    let s1 := { s with fw := { s.fw with incoming := img, fromHost := true } }
    if s.fw.waitTable then s1 else bootWith s.fw.table img false s1
  else s)

/-! ## Column remap (25 R465) -/

/-- The physical place of a core. -/
def placeOf (m : List Nat) (c : Nat) : Nat := if c < 2048 then rowOf c * 68 + nth 0 m (colOf c) else c - 2048

/-- The core that a physical place is under a column map. -/
def coreAtPlace (m : List Nat) (n : Nat) : Nat := if m.contains (n % 68) then n / 68 * 64 + m.idxOf (n % 68) else 2048 + n

/-- A memory key moved with its core. -/
def moveKey (f : Nat → Nat) (k : Nat) : Nat :=
  if k < 2 ^ 48 then k
  else if k < 2 ^ 49 then lmKey (f (lmCore k)) (lmOff k)
  else if k < 2 ^ 50 then sliceKey (f ((k - 2 ^ 49) / 2 ^ 19)) ((k - 2 ^ 49) % 2 ^ 19)
  else constKey (f ((k - 2 ^ 50) / 2 ^ 12)) ((k - 2 ^ 50) % 2 ^ 12)

/-- The cores of the mesh renamed: each physical core keeps its memory and its state, but its caches are emptied. -/
def renameCores (f : Nat → Nat) (s : State) : State :=
  let cs := (allCores s).map fun x => (f x.1, { x.2 with l1 := [], amoLines := [] })
  let here := f s.here
  { s with
    here := here
    core := { s.core with l1 := [], amoLines := [] }
    cores := (cs.filter fun x => x.1 != here).foldl (fun l x => insertKey x.1 x.2 l) []
    mem := (s.mem.filter fun c => decide (2 ^ 48 ≤ c.1)).foldl (fun m c => memSet (moveKey f c.1) c.2 m)
      (s.mem.filter fun c => decide (c.1 < 2 ^ 48))
    bad := s.bad.map fun w => moveKey f (w * 8) / 8
    soft := s.soft.map fun w => moveKey f (w * 8) / 8
    l1bad := [], l1soft := [], l2 := [], tlb := [], dir := [] }

/-- The cores of a lost logical column leave every partition, whose capacities fall (25 R465; 09 R218). -/
def loseColumn (l : Nat) (s : State) : State :=
  let drop (p : Partition) : Partition :=
    { p with
      capFell := p.capFell || p.rcd.cores.any fun c => colOf c == l
      rcd := { p.rcd with cores := p.rcd.cores.filter fun c => colOf c != l } }
  { s with parts := s.parts.map drop, dir := [], l2 := s.l2.filter fun x => colOf x.home != l, fw := { s.fw with lostCols := s.fw.lostCols ++ [l] } }

/-- The role's core may not be used again. -/
def coreLost (c : Nat) (s : State) : Bool := s.fw.failed.contains (c - 2048)

/-- A firmware core fails for good (25 R465): its thread sets stop, and its router is one of those that may not be used. -/
def failCore (c : Nat) (s : State) : State :=
  setCore c (idleCore (getCore c s)) { s with fw := { s.fw with
    failed := if coreLost c s then s.fw.failed else s.fw.failed ++ [c - 2048]
    erred := if s.fw.erred.contains c then s.fw.erred else c :: s.fw.erred } }

/-- COLUMN_REMAP (25 R465): at a partition quiesce point, a failed column gives way to a spare, or is lost where none is left. A number from
2048 on is a core of a firmware column that fails while it runs: ROLE_RECOVERY then sees to the roles that it had. -/
def execColumnRemap (pcol : Nat) (s : State) : Host.Outcome State Fault Refusal :=
  .next (if 2048 ≤ pcol then
    if s.fw.booted = true ∧ (fwCols s.fw.table).contains ((pcol - 2048) % 68) = true then failCore pcol s else s
  else if s.fw.booted = true ∧ quiesced s = true ∧ s.fw.colMap.contains pcol = true then
    let failed := s.fw.failed ++ [pcol]
    let old := s.fw.colMap
    let l := old.idxOf pcol
    if s.fw.lostCols.contains l then s
    else
      match columnMap s.fw.table (failedCols s.fw.table failed) with
      | none => loseColumn l s
      | some m =>
        let t := renameCores (fun c => coreAtPlace m (placeOf old c)) { s with fw := { s.fw with failed := failed, colMap := m } }
        t.parts.foldl (fun s p => p.rcd.cores.foldl (passCore p.rcd.pid) s) t
  else s)

/-! ## Roles (25 R467, R468) -/

/-- A partition is halted: its queues go to HALTED, and its launches that have not started get records with OUTCOME HALTED
(25 R468). -/
def haltPartition (s : State) (p : Partition) : State :=
  let s1 := (List.range 64).foldl (fun s q => haltQueue p.rcd q s) (modPart p.rcd.pid (fun x => { x with halted := true }) s)
  (s1.launches.filter fun l => l.pid == p.rcd.pid && decide (l.lid < 2 ^ 32) &&
      (l.st == .admitted || l.st == .placed || l.st == .multicast)).foldl (fun s l => endLaunch l 4 s) s1

/-- The cores of the standby entries (25 R463): the first in `standby` is taken next. -/
def standbyCores (s : State) : List Nat := s.fw.standby.filter fun c => !s.fw.erred.contains c && !coreLost c s

/-- A standby core no longer stands by: it is to run a role. -/
def takeStandby (c : Nat) (s : State) : State :=
  { s with fw := { s.fw with standby := s.fw.standby.filter (fun x => x != c), roles := s.fw.roles.filter fun r => !(r.code == 8 && r.core == c) } }

/-- The entry that stands by on core `c` stands by on core `d` (25 R469). -/
def swapStandby (c d : Nat) (rs : List Role) : List Role := modWhere (fun x => x.code == 8 && x.core == c) (fun x => { x with core := d }) rs

/-- A core that no role runs on any more; where it stands by from now on, ROLE names its entry. -/
def leaveRole (c : Nat) (s : State) : State :=
  let w := match s.fw.roles.find? fun r => r.code == 8 && r.core == c with
    | some r => roleWord r.idx 8
    | none => 0
  setCore c { idleCore (getCore c s) with role := w } s

/-- A role runs on a core from now on. -/
def seatRole (img : List Byte) (r : Role) (c mirror : Nat) (s : State) : State :=
  let t := startRole img r.idx r.code c (loadImage img c s)
  { t with fw := { t.fw with roles := modWhere (fun x => x.idx == r.idx) (fun x => { x with core := c, mirror := mirror }) t.fw.roles } }

/-- The passed roles return to the old image's cores, and the new image is discarded (25 R469). -/
def abortHandover (s : State) : State :=
  let gone := s.fw.erred.filter fun c => coreLost c s
  let s1 := s.fw.passed.reverse.foldl (fun s x =>
    match s.fw.roles.find? fun r => r.idx == x.1 with
    | none => s
    | some r =>
      let t := seatRole s.fw.image r x.2 r.mirror s
      leaveRole r.core { t with fw := { t.fw with
        standby := r.core :: t.fw.standby.filter (fun c => c != x.2), roles := swapStandby x.2 r.core t.fw.roles } }) s
  { s1 with fw := { s1.fw with phase := .none, incoming := [], passed := [], erred := gone ++ s1.fw.erred.filter fun c => !gone.contains c } }

/-- Both copies of a role's state are lost: every partition whose queues it served halts (25 R468; log entry 53). -/
def bothLost (r : Role) (s : State) : State :=
  (s.parts.filter fun p => Config.roleServes r.idx p.rcd.pid).foldl haltPartition s

/-- A front end or an admission role moves to its mirror (25 R467): to the role there, or to a standby core, which then runs it. -/
def moveToMirror (r m : Role) (s : State) : State :=
  let s1 := setCore r.core (idleCore (getCore r.core s)) { s with fw := { s.fw with erred := s.fw.erred.filter fun c => c != r.core } }
  if m.code = 8 then seatRole s1.fw.image r m.core 0xFF (takeStandby m.core s1)
  else { s1 with fw := { s1.fw with roles := modWhere (fun x => x.idx == r.idx) (fun x => { x with core := m.core, mirror := 0xFF }) s1.fw.roles } }

/-- A machine error at F has struck a role's core (25 R467, R468): a front end or an admission role moves to its mirror, or where
that is lost too the partitions that it served halt; any other role restarts on its core, or where that has failed on a standby
core, but a standby core that has failed is no longer one (25 R465). -/
def recoverRole (r : Role) (s : State) : State :=
  if r.code ≤ 2 then
    match s.fw.roles.find? fun x => x.idx == r.mirror with
    | none => bothLost r s
    | some m => if s.fw.erred.contains m.core then bothLost r s else moveToMirror r m s
  else if coreLost r.core s = false then seatRole s.fw.image r r.core r.mirror s
  else if r.code = 8 then takeStandby r.core s
  else
    match standbyCores s with
    | [] => s
    | c :: _ => seatRole s.fw.image r c r.mirror (takeStandby c s)

/-- ROLE_RECOVERY (25 R465, R467 to R469): a role struck by a machine error, or whose core has failed, is recovered; an error
before the commit point of a hand-over aborts that first. -/
def execRoleRecovery (idx : Nat) (s : State) : Host.Outcome State Fault Refusal :=
  .next (match s.fw.roles.find? fun r => r.idx == idx with
    | none => s
    | some r =>
      if s.fw.erred.contains r.core = false then s
      else
        let s1 := if s.fw.phase = .loading ∨ s.fw.phase = .passing then abortHandover s else s
        match s1.fw.roles.find? fun x => x.idx == idx with
        | none => s1
        | some x => if s1.fw.erred.contains x.core then recoverRole x s1 else s1)

/-! ## Hand-over (25 R469, R470) -/

/-- The role that passes next. -/
def nextRole (s : State) : Option Role := s.fw.roles.find? fun r => r.code != 8 && !(s.fw.passed.any fun x => x.1 == r.idx)

/-- The next role passes to a standby core, whose old core becomes standby; after the last one the token passes (25 R469). -/
def passRole (s : State) : State :=
  match nextRole s with
  | none => { s with fw := { s.fw with phase := .committed, image := s.fw.incoming, incoming := [], passed := [], fromHost := false } }
  | some r =>
    match s.fw.standby with
    | [] => s
    | c :: cs =>
      let t := seatRole s.fw.incoming r c r.mirror s
      leaveRole r.core { t with fw := { t.fw with
        standby := cs ++ [r.core], passed := t.fw.passed ++ [(r.idx, r.core)], roles := swapStandby c r.core t.fw.roles } }

/-- IMAGE_HANDOVER (25 R469): a new image is verified, is loaded into the standby cores, and takes the roles one at a time; a machine
error at F that has not been recovered aborts it. -/
def execImageHandover (img : List Byte) (s : State) : Host.Outcome State Fault Refusal :=
  .next (if s.fw.booted = false then s
  else
    match s.fw.phase with
    | .none =>
      if s.gwerid = .up ∧ s.fw.erred = [] ∧ imageOk s.fw.table img = true ∧ Config.imageSvn s.fw.image ≤ Config.imageSvn img then
        { s with fw := { s.fw with phase := .loading, incoming := img } }
      else s
    | .loading =>
      if s.fw.erred ≠ [] then abortHandover s
      else
        let t := s.fw.standby.foldl (fun s c => loadImage s.fw.incoming c s) s
        { t with fw := { t.fw with phase := .passing, passed := [] } }
    | .passing => if s.fw.erred ≠ [] then abortHandover s else passRole s
    | .committed => s)

/-- HANDOVER_ABORT (25 R469): before the commit point, the roles that have passed return. -/
def execHandoverAbort (s : State) : Host.Outcome State Fault Refusal :=
  .next (if s.fw.phase = .loading ∨ s.fw.phase = .passing then abortHandover s else s)

/-- FLASH_WRITE (25 R470): the image in force goes to the flash slot, after a commit point or, for a recovery image, when the host
asks for it; an interrupted write leaves a slot that the next boot refuses. -/
def execFlashWrite (interrupted : Bool) (s : State) : Host.Outcome State Fault Refusal :=
  .next (if s.fw.booted = true ∧ (s.fw.phase = .committed ∨ (s.fw.fromHost = true ∧ s.fw.phase = .none)) then
    { s with fw := { s.fw with flash := s.fw.image, flashBad := interrupted, phase := .none, fromHost := false } }
  else s)

/-! ## Attestation (25 R471) -/

/-- PHASE of a report. -/
def HandPhase.code : HandPhase → Nat
  | .none => 0 | .loading => 1 | .passing => 2 | .committed => 3

/-- Bytes 0 to 127 of a report. -/
def reportBody (nonce : Word) (s : State) : List Byte :=
  let inm := if s.fw.phase = .loading ∨ s.fw.phase = .passing then sha256 s.fw.incoming else leBytes 32 0
  leBytes 4 s.fw.phase.code ++ leBytes 4 (Config.imageSvn s.fw.image) ++ sha256 s.fw.image ++ inm ++
    sha256 (s.fw.table.take 384) ++ leBytes 8 nonce.toNat ++ leBytes 8 s.time ++ leBytes 8 0

/-- ATTESTATION_REQUEST (25 R471): the attestation role answers with a signed report. -/
def execAttestationRequest (nonce : Word) (s : State) : Host.Outcome State Fault Refusal :=
  .next (if roleRuns 7 s = true ∧ s.gwerid = .up then
    let b := reportBody nonce s
    { s with fw := { s.fw with report := b ++ signWith Config.attestKey (Config.attestNonce b) b } }
  else s)

/-! ## Profiles and temperatures (25 R472, R473) -/

/-- The firmware profile may become `p` now: on host request, but no faster than a temperature has asked for. -/
def profileOk (p : Nat) (s : State) : Bool :=
  match s.fw.wantProfile with
  | none => true
  | some q => decide (q ≤ p)

/-- PROFILE_CHANGE (25 R472): at a partition quiesce point the core clock changes; a slower one lowers every capacity. -/
def execProfileChange (p : BitVec 2) (s : State) : Host.Outcome State Fault Refusal :=
  .next (if s.fw.booted = true ∧ quiesced s = true ∧ profileOk p.toNat s = true then
    let slower := decide (s.fw.profile < p.toNat)
    { s with
      fw := { s.fw with profile := p.toNat, wantProfile := none }
      parts := s.parts.map fun x => { x with capFell := x.capFell || slower } }
  else s)

/-- A launch holds a core of a die. -/
def holdsDie (die : Nat) (l : Launch) (s : State) : Bool := (heldCores l s).any fun c => dieOf c s == die

/-- A launch that holds a core of a tripped die is marked for eviction, with its record; one that has only its position there gives
that up (25 R473, 19 R374). -/
def tripLaunch (die : Nat) (s : State) (l : Launch) : State :=
  if l.st = .placed ∧ (l.cores.any fun c => dieOf c s == die) = true then modLaunch l.pid l.lid (fun x => { x with st := .admitted }) s
  else if holdsDie die l s then
    killLaunch l.pid l.lid 3 (writeFault l.pid { kind := 3, code := 0x88, detail := 0, tsid := 0, lid := l.lid, addr := w64 die,
                                                 coord := 0, pc := 0 } s)
  else s

/-- Telemetry reads the correction counters of a die's cores (11 R258; 25 R474). -/
def readCounters (die : Nat) (s : State) : State :=
  if roleRuns 4 s then
    { s with fw := { s.fw with counts := (allCores s).foldl (fun m x => if dieOf x.1 s = die then insertKey x.1 x.2.corr m else m) s.fw.counts } }
  else s

/-- TEMPERATURE_REPORT (25 R473, R474): telemetry reads the sensor and the correction counters of the die. Above TWARN the profile is to fall by a step; above TTRIP the die's clocks stop and its launches
are evicted; a tripped die comes back below TWARN. -/
def execTemperatureReport (die temp : Nat) (s : State) : Host.Outcome State Fault Refusal :=
  .next (if s.fw.booted = false then s
  else
    let warn := tableField s.fw.table 356 1
    let trip := tableField s.fw.table 357 1
    let want := if warn < temp then some (Nat.min 2 (s.fw.profile + 1)) else s.fw.wantProfile
    let s1 := readCounters die { s with fw := { s.fw with temps := setNth s.fw.temps die temp, wantProfile := want } }
    if trip < temp ∧ s.fw.tripped.contains die = false then
      s1.launches.foldl (tripLaunch die) { s1 with fw := { s1.fw with tripped := die :: s1.fw.tripped } }
    else if temp < warn then { s1 with fw := { s1.fw with tripped := s1.fw.tripped.filter fun d => d != die } }
    else s1)

/-! ## Restart and scrubbing (25 R466, R474) -/

/-- RESTART (25 R466): a thread set halted by HALT goes on at the HALT address + 4, under the check of R26 (05 R131); one that a
machine error has stopped does not. -/
def execRestart (core tid : Nat) (s : State) : Host.Outcome State Fault Refusal :=
  .next (if s.fw.booted = true ∧ (getTs core tid s).run = .halted ∧ s.fw.erred.contains core = false then
    focusOn s.here s.tid (advance 4 (setRun .ready (focusOn core tid s)))
  else s)

/-- SCRUBBING (25 R474, 11 R258): the word at a key of local memory, home slices or HBM is read, and a single-bit error of it is
corrected and counted. -/
def execScrubbing (key : Nat) (s : State) : Host.Outcome State Fault Refusal :=
  .next (if isHostPa key then s else correct (key / 8 * 8) 8 s)

end Sys2Proof.Machine
end

