-- ==== Sys2Proof/Machine/Preempt.lean ====
section
/-! DEFINITION. Pre-emption and resume of a core (19 R380 to R386). -/
namespace Sys2Proof.Machine

/-- A launch is to have a core that another holds: it has been placed there, or it was pre-empted there and goes before the
occupant (09 R216, 19 R385). -/
def wantsCore (c : Nat) (o l : Launch) : Bool :=
  l.pid == o.pid && l.kill.isNone &&
    ((l.st == .placed && inRect l.row0 l.col0 l.lgh l.lgw c) ||
      (l.held.any (fun h => h.core == c) && l.lid != o.lid && decide (l.due < o.due)))

/-- PREEMPT (19 R381, R383, R384): a message stops thread sets 0–3 of a core that another launch is to have, once a save frame
has been taken from the partition's pool. -/
def execPreempt (core : Nat) (s : State) : Host.Outcome State Fault Refusal :=
  .next (
    let k := getCore core s
    match k.owner with
    | none => s
    | some o =>
      match launchOf o.1 o.2 s, partOf o.1 s with
      | some l, some p =>
        (match p.freeFrames with
         | [] => s
         | f :: fs =>
           if l.st ≠ .running ∨ l.kill.isSome ∨ l.pen = true ∨ k.pre ≠ .none ∨ s.launches.any (wantsCore core l) = false then s
           else modCore core (fun x => { x with pre := .asked f }) (modPart o.1 (fun q => { q with freeFrames := fs }) s))
      | _, _ => s)

/-- A thread set as a frame keeps it: its lock bits are free, since locked registers have moved to operand buffers (15 R326),
and its stream slots are to fetch again. -/
def savedTs (t : ThreadSet) : ThreadSet :=
  { t with locks := 0, fbuf := [], slots := vecGen 8 fun k => (vecGet t.slots k).refetch (vecGet t.slots k).pos }

/-- What a frame keeps of a core beyond the layouts of R381 and R382. -/
def savedCore (k : Core) : Core :=
  { k with
    tsets := vecGen 7 fun t => if t < 4 then savedTs (vecGet k.tsets t) else ThreadSet.reset t
    queues := vecGen 8 fun q => if q < 4 then ((vecGet k.queues q).filter fun m => m.tid != 6).map fun m => { m with locks := [] } else []
    lent := [], pre := .none, spill := [] }

/-- The frame of a core written (19 R381 to R383). -/
def coreFrame (p : PartRec) (f c : Nat) (s : State) : State :=
  let k := getCore c s
  let s1 := [0, 1, 2, 3].foldl (fun s t => writeItems (frameKey p f (0xB00 * t)) (recordItems false (vecGet k.tsets t)) s) s
  let s2 := if k.mctx.getLsbD 63 then
      [0, 1, 2, 3].foldl (fun s i => land (frameKey p f (0x2C00 + 0x1000 * i)) (accBytes (vecGet k.accs i)) 0 s) s1
    else s1
  let s3 := copyImage (lmKey c 0) (frameKey p f 0x8000) (2 ^ 20) { s2 with mem := memZero (frameKey p f 0x6C00) 0x1400 s2.mem }
  ((List.range k.spill.length).zip k.spill).foldl (fun s x => spillWrite p.pid f x.1 x.2.2 s) s3

/-- The write slots of thread sets 0–3 of a core have drained: no appended element is still to be performed but where it waits for
a window (06 R164, 15 R327). -/
def slotsDrained (c : Nat) (s : State) : Bool :=
  s.pend.all fun p => !(p.core == c && decide (p.tid < 4) && p.slot.isSome) || p.windowHeld s

/-- PREEMPTIBLE_POINT (19 R380, R383): every thread set has met its bound, the write slots and the matrix unit have drained; waits are abandoned,
penumbra contexts leave, and the core's state goes to its frame. -/
def execPreemptiblePoint (core : Nat) (s : State) : Host.Outcome State Fault Refusal :=
  .next (
    let k := getCore core s
    match k.pre, k.owner with
    | .asked f, some o =>
      (match launchOf o.1 o.2 s, partOf o.1 s with
       | some l, some p =>
         if l.kill.isSome ∨ !k.matq.isEmpty ∨ slotsDrained core s = false ∨ coreRetiring core s = true then s
         else
           let s1 := evictAll core 2 ([0, 1, 2, 3].foldl (fun s t => abandonAt core t s) s)
           let s2 := coreFrame p.rcd f core s1
           let x := getCore core s2
           modLaunch l.pid l.lid (fun y => { y with held := y.held ++ [{ core := core, frame := f, saved := savedCore x, spill := x.spill }] })
             (setCore core (leaveCore x) s2)
       | _, _ => s)
    | _, _ => s)

/-- The spill entries of a frame, as its memory has them (19 R381, R386). -/
def spillRead (p : PartRec) (h : Held) (m : List Host.Cell) : List (Nat × InboxEntry) :=
  ((List.range h.spill.length).zip h.spill).map fun x =>
    (x.2.1, { x.2.2 with data := memRead m (if x.2.2.kind = 3 then 32 else 64) (spillKey p h.frame x.1) })

/-- A core's state read back from its frame (19 R385); reserve banks, slice context 6 and what no launch owns stay. -/
def restoredCore (p : PartRec) (l : Launch) (h : Held) (k : Core) (m : List Host.Cell) : Core :=
  let v := h.saved
  { v with
    tsets := vecGen 7 fun t =>
      if t < 4 then readRecord false (frameKey p h.frame (0xB00 * t)) m (vecGet v.tsets t) else vecGet k.tsets t
    accs := vecGen 4 fun i => if v.mctx.getLsbD 63 then accRead (frameKey p h.frame (0x2C00 + 0x1000 * i)) m else vecGen 1024 fun _ => 0
    bank := k.bank, bankTrg := k.bankTrg
    queues := vecGen 8 fun q => if q < 4 then vecGet v.queues q ++ sliceCmds (vecGet k.queues q) else vecGet k.queues q
    lastCmd := (v.lastCmd.filter fun x => decide (x.1 % 8 < 4)) ++ k.lastCmd
    inbox := vecGen 7 fun t => if t < 4 then vecGet v.inbox t else vecGet k.inbox t
    spill := spillRead p h m, l1 := k.l1, lent := k.lent,
    fwctl := fwctlOwner (some l.pid) k.fwctl, meloc := k.meloc, role := k.role, corr := k.corr, entropyBad := k.entropyBad,
    selfTested := k.selfTested, owner := some (l.pid, l.lid), pre := .none, resumed := true, sliceTurn := false }

/-- A pre-empted core of a launch can be given back: nothing holds or reserves it, no retired operation of another launch is still
to be performed in its local memory, and no launch that goes before is to have it (08 R178; 09 R216; 19 R377, R385). -/
def resumable (l : Launch) (h : Held) (s : State) : Bool :=
  let k := getCore h.core s
  k.owner.isNone && k.lent.isEmpty && pendClear h.core s && clocked s h.core && !reserved h.core s &&
    !(s.launches.any fun x => x.pid == l.pid && x.lid != l.lid && x.kill.isNone && x.held.any (fun y => y.core == h.core) &&
      !edfFirst l x)

/-- A machine error struck the part of a frame that a resume reads (19 R374). -/
def frameError (p : PartRec) (h : Held) (s : State) : Option Nat :=
  match frameBad (frameKey p h.frame 0) 0x6C00 s with
  | some off => some off
  | none => (frameBad (frameKey p h.frame 0x8000) (2 ^ 20 + 64 * h.spill.length) s).map fun off => 0x8000 + off

/-- RESUME (19 R385, R386): one pre-empted core of a launch is read back, and its spill queue is delivered. -/
def execResume (pid lid : Nat) (s : State) : Host.Outcome State Fault Refusal :=
  .next (match launchOf pid lid s, partOf pid s with
    | some l, some p =>
      if l.st ≠ .running ∨ l.kill.isSome then s
      else
        (match l.held.find? fun h => resumable l h s with
         | none => s
         | some h =>
           match frameError p.rcd h s with
           | some off => saveLost l h.core off s
           | none =>
             let s1 := setCore h.core (restoredCore p.rcd l h (getCore h.core s) s.mem) s
             let s2 := copyImage (frameKey p.rcd h.frame 0x8000) (lmKey h.core 0) (2 ^ 20) s1
             drainSpill h.core (freeFrame pid h.frame
               (modLaunch pid lid (fun y => { y with held := y.held.filter fun x => x.core != h.core }) s2)))
    | _, _ => s)

end Sys2Proof.Machine
end

