-- ==== Sys2Proof/Machine/Scalar.lean ====
section
/-! DEFINITION. Integer scalar instructions (05 R108 to R112). -/
namespace Sys2Proof.Machine

/-! ## The operations (05 R108, R109) -/

/-- Bits 127:64 of the signed product. -/
def mulhW (x y : Word) : Word := w64i (x.toInt * y.toInt / (2 ^ 64 : Int))
/-- Bits 127:64 of the unsigned product. -/
def mulhuW (x y : Word) : Word := w64 (x.toNat * y.toNat / 2 ^ 64)
/-- DIV (05 R109). -/
def divW (x y : Word) : Word := if y = 0 then 0xFFFFFFFFFFFFFFFF else w64i (x.toInt.tdiv y.toInt)
/-- DIVU (05 R109). -/
def divuW (x y : Word) : Word := if y = 0 then 0xFFFFFFFFFFFFFFFF else w64 (x.toNat / y.toNat)
/-- REM (05 R109). -/
def remW (x y : Word) : Word := if y = 0 then x else w64i (x.toInt.tmod y.toInt)
/-- REMU (05 R109). -/
def remuW (x y : Word) : Word := if y = 0 then x else w64 (x.toNat % y.toNat)
/-- The shift amount b[5:0]. -/
def shAmt (y : Word) : Nat := y.toNat % 64
/-- SRA. -/
def sraW (x : Word) (n : Nat) : Word := x.sshiftRight n
/-- Signed minimum. -/
def minW (x y : Word) : Word := if x.toInt ≤ y.toInt then x else y
/-- Signed maximum. -/
def maxW (x y : Word) : Word := if y.toInt ≤ x.toInt then x else y
/-- Unsigned minimum. -/
def minuW (x y : Word) : Word := if x.toNat ≤ y.toNat then x else y
/-- Unsigned maximum. -/
def maxuW (x y : Word) : Word := if y.toNat ≤ x.toNat then x else y
/-- 1 or 0. -/
def boolW (b : Bool) : Word := if b then 1 else 0
/-- Leading zero bits; 64 for 0. -/
def clzW (x : Word) : Word := w64 (64 - bitLen x.toNat)
/-- Trailing zero bits; 64 for 0. -/
def ctzW (x : Word) : Word := w64 (trailingZeros 64 x.toNat)
/-- One bits. -/
def popcW (x : Word) : Word := w64 (popcount 64 x.toNat)

/-- d := f a b with operand b a register or literal (05 R108). -/
def alu (f : Word → Word → Word) (d a : Reg) (b : OpB) (s : State) : State :=
  execUse (useABD d a b) s fun t => .ok (setS d (f (getS a t) (intB b t)) t)

/-- d := f a (05 R108, R110). -/
def alu1 (f : Word → Word) (d a : Reg) (s : State) : State :=
  execUse (useAD d a) s fun t => .ok (setS d (f (getS a t)) t)

/-- d := a op k for a constant-bank entry extended to 64 bits (02 R45, 05 R112). -/
def aluK (signed : Bool) (f : Word → Word → Word) (d a : Reg) (k : BitVec 10) (s : State) : State :=
  execUse (useAD d a) s fun t =>
    constEff k t fun c t => .ok (setS d (f (getS a t) (if signed then sext64 c else zext64 c)) t)

/-- ADD (05 R108). -/
def execAdd (d a : Reg) (b : OpB) (s : State) : Host.Outcome State Fault Refusal := .next (alu (fun x y => x + y) d a b s)
/-- SUB (05 R108). -/
def execSub (d a : Reg) (b : OpB) (s : State) : Host.Outcome State Fault Refusal := .next (alu (fun x y => x - y) d a b s)
/-- MUL (05 R108). -/
def execMul (d a : Reg) (b : OpB) (s : State) : Host.Outcome State Fault Refusal := .next (alu (fun x y => x * y) d a b s)
/-- MULH (05 R108). -/
def execMulh (d a : Reg) (b : OpB) (s : State) : Host.Outcome State Fault Refusal := .next (alu mulhW d a b s)
/-- MULHU (05 R108). -/
def execMulhu (d a : Reg) (b : OpB) (s : State) : Host.Outcome State Fault Refusal := .next (alu mulhuW d a b s)
/-- DIV (05 R109). -/
def execDiv (d a : Reg) (b : OpB) (s : State) : Host.Outcome State Fault Refusal := .next (alu divW d a b s)
/-- DIVU (05 R109). -/
def execDivu (d a : Reg) (b : OpB) (s : State) : Host.Outcome State Fault Refusal := .next (alu divuW d a b s)
/-- REM (05 R109). -/
def execRem (d a : Reg) (b : OpB) (s : State) : Host.Outcome State Fault Refusal := .next (alu remW d a b s)
/-- REMU (05 R109). -/
def execRemu (d a : Reg) (b : OpB) (s : State) : Host.Outcome State Fault Refusal := .next (alu remuW d a b s)
/-- AND (05 R108). -/
def execAnd (d a : Reg) (b : OpB) (s : State) : Host.Outcome State Fault Refusal := .next (alu (fun x y => x &&& y) d a b s)
/-- OR (05 R108). -/
def execOr (d a : Reg) (b : OpB) (s : State) : Host.Outcome State Fault Refusal := .next (alu (fun x y => x ||| y) d a b s)
/-- XOR (05 R108). -/
def execXor (d a : Reg) (b : OpB) (s : State) : Host.Outcome State Fault Refusal := .next (alu (fun x y => x ^^^ y) d a b s)
/-- SHL (05 R108). -/
def execShl (d a : Reg) (b : OpB) (s : State) : Host.Outcome State Fault Refusal :=
  .next (alu (fun x y => x <<< shAmt y) d a b s)
/-- SHR (05 R108). -/
def execShr (d a : Reg) (b : OpB) (s : State) : Host.Outcome State Fault Refusal :=
  .next (alu (fun x y => x >>> shAmt y) d a b s)
/-- SRA (05 R108). -/
def execSra (d a : Reg) (b : OpB) (s : State) : Host.Outcome State Fault Refusal :=
  .next (alu (fun x y => sraW x (shAmt y)) d a b s)
/-- ROTL (05 R108). -/
def execRotl (d a : Reg) (b : OpB) (s : State) : Host.Outcome State Fault Refusal :=
  .next (alu (fun x y => x.rotateLeft (shAmt y)) d a b s)
/-- MIN (05 R108). -/
def execMin (d a : Reg) (b : OpB) (s : State) : Host.Outcome State Fault Refusal := .next (alu minW d a b s)
/-- MAX (05 R108). -/
def execMax (d a : Reg) (b : OpB) (s : State) : Host.Outcome State Fault Refusal := .next (alu maxW d a b s)
/-- MINU (05 R108). -/
def execMinu (d a : Reg) (b : OpB) (s : State) : Host.Outcome State Fault Refusal := .next (alu minuW d a b s)
/-- MAXU (05 R108). -/
def execMaxu (d a : Reg) (b : OpB) (s : State) : Host.Outcome State Fault Refusal := .next (alu maxuW d a b s)
/-- SLT (05 R108). -/
def execSlt (d a : Reg) (b : OpB) (s : State) : Host.Outcome State Fault Refusal :=
  .next (alu (fun x y => boolW (decide (x.toInt < y.toInt))) d a b s)
/-- SLTU (05 R108). -/
def execSltu (d a : Reg) (b : OpB) (s : State) : Host.Outcome State Fault Refusal :=
  .next (alu (fun x y => boolW (decide (x.toNat < y.toNat))) d a b s)
/-- CLZ (05 R108). -/
def execClz (d a : Reg) (s : State) : Host.Outcome State Fault Refusal := .next (alu1 clzW d a s)
/-- CTZ (05 R108). -/
def execCtz (d a : Reg) (s : State) : Host.Outcome State Fault Refusal := .next (alu1 ctzW d a s)
/-- POPC (05 R108). -/
def execPopc (d a : Reg) (s : State) : Host.Outcome State Fault Refusal := .next (alu1 popcW d a s)
/-- LEA.1 (05 R108). -/
def execLea1 (d a : Reg) (b : OpB) (s : State) : Host.Outcome State Fault Refusal := .next (alu (fun x y => x + y * 1) d a b s)
/-- LEA.2 (05 R108). -/
def execLea2 (d a : Reg) (b : OpB) (s : State) : Host.Outcome State Fault Refusal := .next (alu (fun x y => x + y * 2) d a b s)
/-- LEA.4 (05 R108). -/
def execLea4 (d a : Reg) (b : OpB) (s : State) : Host.Outcome State Fault Refusal := .next (alu (fun x y => x + y * 4) d a b s)
/-- LEA.8 (05 R108). -/
def execLea8 (d a : Reg) (b : OpB) (s : State) : Host.Outcome State Fault Refusal := .next (alu (fun x y => x + y * 8) d a b s)

/-! ## Immediates (02 R43, 05 R110, R111) -/

/-- ADDI (05 R110). -/
def execAddi (d a : Reg) (imm : BitVec 15) (s : State) : Host.Outcome State Fault Refusal :=
  .next (alu1 (fun x => x + sext64 imm) d a s)
/-- ANDI (05 R110). -/
def execAndi (d a : Reg) (imm : BitVec 15) (s : State) : Host.Outcome State Fault Refusal :=
  .next (alu1 (fun x => x &&& sext64 imm) d a s)
/-- ORI (05 R110). -/
def execOri (d a : Reg) (imm : BitVec 15) (s : State) : Host.Outcome State Fault Refusal :=
  .next (alu1 (fun x => x ||| zext64 imm) d a s)
/-- XORI (05 R110). -/
def execXori (d a : Reg) (imm : BitVec 15) (s : State) : Host.Outcome State Fault Refusal :=
  .next (alu1 (fun x => x ^^^ zext64 imm) d a s)
/-- SLTI (05 R110). -/
def execSlti (d a : Reg) (imm : BitVec 15) (s : State) : Host.Outcome State Fault Refusal :=
  .next (alu1 (fun x => boolW (decide (x.toInt < (sext64 imm).toInt))) d a s)
/-- SHLI (05 R110). -/
def execShli (d a : Reg) (n : BitVec 6) (s : State) : Host.Outcome State Fault Refusal :=
  .next (alu1 (fun x => x <<< n.toNat) d a s)
/-- SHRI (05 R110). -/
def execShri (d a : Reg) (n : BitVec 6) (s : State) : Host.Outcome State Fault Refusal :=
  .next (alu1 (fun x => x >>> n.toNat) d a s)
/-- SRAI (05 R110). -/
def execSrai (d a : Reg) (n : BitVec 6) (s : State) : Host.Outcome State Fault Refusal :=
  .next (alu1 (fun x => sraW x n.toNat) d a s)

/-- EXTS: a[pos+width−1:pos] sign-extended; the field holds width − 1 (02 R43). -/
def extsW (x : Word) (w p : BitVec 6) : Word := w64i (signedOf (w.toNat + 1) (x.toNat / 2 ^ p.toNat))
/-- EXTZ: a[pos+width−1:pos] zero-extended (02 R43). -/
def extzW (x : Word) (w p : BitVec 6) : Word := w64 (bitsOf x.toNat p.toNat (w.toNat + 1))
/-- INS: a[width−1:0] in d[pos+width−1:pos], the other bits of d kept (02 R43). -/
def insW (old x : Word) (w p : BitVec 6) : Word := setField old p.toNat (w.toNat + 1) x.toNat

/-- EXTS (02 R43, 05 R110). -/
def execExts (d a : Reg) (w p : BitVec 6) (s : State) : Host.Outcome State Fault Refusal :=
  .next (alu1 (fun x => extsW x w p) d a s)
/-- EXTZ (02 R43, 05 R110). -/
def execExtz (d a : Reg) (w p : BitVec 6) (s : State) : Host.Outcome State Fault Refusal :=
  .next (alu1 (fun x => extzW x w p) d a s)
/-- INS reads d as a source (02 R43, 05 R110). -/
def execIns (d a : Reg) (w p : BitVec 6) (s : State) : Host.Outcome State Fault Refusal :=
  .next (execUse { useAD d a with more := [.s d] } s fun t => .ok (setS d (insW (getS d t) (getS a t) w p) t))

/-- SEL: d := a if c ≠ 0, else b (05 R111). -/
def execSel (d c a : Reg) (b : OpB) (s : State) : Host.Outcome State Fault Refusal :=
  .next (execUse { useABD d a b with more := [.s c] } s fun t =>
    .ok (setS d (if getS c t = 0 then intB b t else getS a t) t))

/-- LDHI: imm20 × 4,096 as a 32-bit value, sign-extended (05 R111). -/
def execLdhi (d : Reg) (imm : BitVec 20) (s : State) : Host.Outcome State Fault Refusal :=
  .next (execUse (useD d) s fun t => .ok (setS d (sext64 (BitVec.ofNat 32 (imm.toNat * 4096))) t))

/-! ## Constant-bank forms (05 R112) -/

/-- ADD.K (05 R112). -/
def execAddK (d a : Reg) (k : BitVec 10) (s : State) : Host.Outcome State Fault Refusal :=
  .next (aluK true (fun x y => x + y) d a k s)
/-- SUB.K (05 R112). -/
def execSubK (d a : Reg) (k : BitVec 10) (s : State) : Host.Outcome State Fault Refusal :=
  .next (aluK true (fun x y => x - y) d a k s)
/-- MUL.K (05 R112). -/
def execMulK (d a : Reg) (k : BitVec 10) (s : State) : Host.Outcome State Fault Refusal :=
  .next (aluK true (fun x y => x * y) d a k s)
/-- AND.K (05 R112). -/
def execAndK (d a : Reg) (k : BitVec 10) (s : State) : Host.Outcome State Fault Refusal :=
  .next (aluK true (fun x y => x &&& y) d a k s)
/-- OR.K (05 R112). -/
def execOrK (d a : Reg) (k : BitVec 10) (s : State) : Host.Outcome State Fault Refusal :=
  .next (aluK false (fun x y => x ||| y) d a k s)
/-- XOR.K (05 R112). -/
def execXorK (d a : Reg) (k : BitVec 10) (s : State) : Host.Outcome State Fault Refusal :=
  .next (aluK false (fun x y => x ^^^ y) d a k s)
/-- MIN.K (05 R112). -/
def execMinK (d a : Reg) (k : BitVec 10) (s : State) : Host.Outcome State Fault Refusal :=
  .next (aluK true minW d a k s)
/-- MAX.K (05 R112). -/
def execMaxK (d a : Reg) (k : BitVec 10) (s : State) : Host.Outcome State Fault Refusal :=
  .next (aluK true maxW d a k s)

end Sys2Proof.Machine
end

