-- ==== Sys2Proof/Machine/ScalarFp.lean ====
section
/-! DEFINITION. Scalar floating-point instructions (05 R113 to R120). None of them traps on an arithmetic condition (R107). -/
namespace Sys2Proof.Machine

/-- A rounding operation d := a op b (05 R114): its mode resolved, its draw consumed, its flags accrued. -/
def fbin (op : FFmt → Rnd → FVal → FVal → Nat → Nat × FFlags) (z : Prec) (r : Rnd) (d a : Reg) (b : OpB) (s : State) :
    State :=
  execUse (useABD d a b) s fun t =>
    let f := precFmt z
    let m := resolveRm r t
    let y := fpB z b t
    .ok (deliver d m (op f m (fdecode f (precBits z (getS a t))) (fdecode f y.1) (drawFor m 0 t)) y.2 t)

/-- A rounding operation with a constant-bank entry as operand b, under STATUS.RM (05 R120). -/
def fbinK (op : FFmt → Rnd → FVal → FVal → Nat → Nat × FFlags) (z : Prec) (d a : Reg) (k : BitVec 10) (s : State) : State :=
  execUse (useAD d a) s fun t =>
    let f := precFmt z
    let m := rmOf t
    constEff k t fun c t =>
    let y := fpConst z c.toNat
    .ok (deliver d m (op f m (fdecode f (precBits z (getS a t))) (fdecode f y.1) (drawFor m 0 t)) y.2 t)

/-- FSUB as an addition of the negated operand (05 R114). -/
def fsubV (f : FFmt) (m : Rnd) (x y : FVal) (draw : Nat) : Nat × FFlags := faddV f m x y.neg draw

/-- A fused operation d := a × b + d (05 R115), with operand b and its flags given. -/
def fusedBody (z : Prec) (m : Rnd) (d a : Reg) (y : Nat × FFlags) (t : State) : Eff :=
  let f := precFmt z
  .ok (deliver d m (ffmaV f m (fdecode f (precBits z (getS a t))) (fdecode f y.1) (fdecode f (precBits z (getS d t)))
    (drawFor m 0 t)) y.2 t)

/-- FMIN and FMAX (05 R116). They set no flag of their own; a widened literal sets those of its widening (02 R39). -/
def fminmaxS (isMax : Bool) (z : Prec) (d a : Reg) (b : OpB) (s : State) : State :=
  execUse (useABD d a b) s fun t =>
    let y := fpB z b t
    .ok (setS d (w64 (fminmax (precFmt z) isMax (precBits z (getS a t)) y.1)) (accrue y.2 t))

/-- An operation on the bits of one FP operand that sets no flag (05 R116). -/
def funary (op : FFmt → Nat → Nat) (z : Prec) (d a : Reg) (s : State) : State :=
  execUse (useAD d a) s fun t => .ok (setS d (w64 (op (precFmt z) (precBits z (getS a t)))) t)

/-- FCMP (05 R117). -/
def fcmp (ordered : Bool) (rel : FVal → FVal → Bool) (z : Prec) (d a : Reg) (b : OpB) (s : State) : State :=
  execUse (useABD d a b) s fun t =>
    let f := precFmt z
    let y := fpB z b t
    let u := fdecode f (precBits z (getS a t))
    let v := fdecode f y.1
    .ok (setS d (if rel u v then 1 else 0) (accrue (cmpFlags ordered u v ||| y.2) t))

/-- A conversion from one FP format to another (05 R118); `exact` forms ignore rm and consume no draw (04 R93). -/
def fcvtFF (exact : Bool) (src dst : FFmt) (r : Rnd) (d a : Reg) (s : State) : State :=
  execUse (useAD d a) s fun t =>
    let m := if exact then .rne else resolveRm r t
    .ok (deliver d m (convertFloat dst m (fdecode src ((getS a t).toNat % 2 ^ src.width)) (drawFor m 0 t)) 0 t)

/-- A conversion from an integer of n bits (05 R118). -/
def fcvtIF (exact signed : Bool) (n : Nat) (dst : FFmt) (r : Rnd) (d a : Reg) (s : State) : State :=
  execUse (useAD d a) s fun t =>
    let m := if exact then .rne else resolveRm r t
    let x : Int := if signed then signedOf n (getS a t).toNat else ((getS a t).toNat % 2 ^ n : Nat)
    .ok (deliver d m (intToFloat dst m x (drawFor m 0 t)) 0 t)

/-- A saturating conversion to an integer of n bits; 32-bit results are sign-extended (04 R97, 05 R118). -/
def fcvtFI (signed : Bool) (n : Nat) (src : FFmt) (r : Rnd) (d a : Reg) (s : State) : State :=
  execUse (useAD d a) s fun t =>
    let m := resolveRm r t
    let v := floatToInt n signed true m (fdecode src ((getS a t).toNat % 2 ^ src.width)) (drawFor m 0 t)
    .ok (deliver d m (wrapOf 64 (signedOf n (wrapOf n v.1)), v.2) 0 t)

/-- FADD (05 R114). -/
def execFadd (z : Prec) (r : Rnd) (d a : Reg) (b : OpB) (s : State) : Host.Outcome State Fault Refusal :=
  .next (fbin faddV z r d a b s)
/-- FSUB (05 R114). -/
def execFsub (z : Prec) (r : Rnd) (d a : Reg) (b : OpB) (s : State) : Host.Outcome State Fault Refusal :=
  .next (fbin fsubV z r d a b s)
/-- FMUL (05 R114). -/
def execFmul (z : Prec) (r : Rnd) (d a : Reg) (b : OpB) (s : State) : Host.Outcome State Fault Refusal :=
  .next (fbin fmulV z r d a b s)
/-- FDIV (05 R114). -/
def execFdiv (z : Prec) (r : Rnd) (d a : Reg) (b : OpB) (s : State) : Host.Outcome State Fault Refusal :=
  .next (fbin fdivV z r d a b s)
/-- FSQRT (05 R114). -/
def execFsqrt (z : Prec) (r : Rnd) (d a : Reg) (s : State) : Host.Outcome State Fault Refusal :=
  .next (execUse (useAD d a) s fun t =>
    let m := resolveRm r t
    .ok (deliver d m (fsqrtV (precFmt z) m (fdecode (precFmt z) (precBits z (getS a t))) (drawFor m 0 t)) 0 t))
/-- FMIN (05 R116). -/
def execFmin (z : Prec) (d a : Reg) (b : OpB) (s : State) : Host.Outcome State Fault Refusal :=
  .next (fminmaxS false z d a b s)
/-- FMAX (05 R116). -/
def execFmax (z : Prec) (d a : Reg) (b : OpB) (s : State) : Host.Outcome State Fault Refusal :=
  .next (fminmaxS true z d a b s)
/-- FABS (05 R116). -/
def execFabs (z : Prec) (d a : Reg) (s : State) : Host.Outcome State Fault Refusal :=
  .next (funary (fun f x => x % 2 ^ (f.width - 1)) z d a s)
/-- FNEG (05 R116). -/
def execFneg (z : Prec) (d a : Reg) (s : State) : Host.Outcome State Fault Refusal :=
  .next (funary (fun f x => x ^^^ 2 ^ (f.width - 1)) z d a s)
/-- FCLASS (05 R116). -/
def execFclass (z : Prec) (d a : Reg) (s : State) : Host.Outcome State Fault Refusal :=
  .next (funary (fclassBits) z d a s)
/-- FCMP.eq (05 R117). -/
def execFcmpEq (z : Prec) (d a : Reg) (b : OpB) (s : State) : Host.Outcome State Fault Refusal :=
  .next (fcmp false (FVal.eq) z d a b s)
/-- FCMP.lt (05 R117). -/
def execFcmpLt (z : Prec) (d a : Reg) (b : OpB) (s : State) : Host.Outcome State Fault Refusal :=
  .next (fcmp true (FVal.lt) z d a b s)
/-- FCMP.le (05 R117). -/
def execFcmpLe (z : Prec) (d a : Reg) (b : OpB) (s : State) : Host.Outcome State Fault Refusal :=
  .next (fcmp true (fun x y => x.lt y || x.eq y) z d a b s)
/-- FCMP.un (05 R117). -/
def execFcmpUn (z : Prec) (d a : Reg) (b : OpB) (s : State) : Host.Outcome State Fault Refusal :=
  .next (fcmp false (fun x y => x.isNaN || y.isNaN) z d a b s)
/-- FFMA (05 R115). -/
def execFfma (z : Prec) (r : Rnd) (d a : Reg) (b : OpB) (s : State) : Host.Outcome State Fault Refusal :=
  .next (execUse (withMore (useABD d a b) [.s d]) s fun t => fusedBody z (resolveRm r t) d a (fpB z b t) t)
/-- FCVT: f32 from f64 (05 R118). -/
def execFcvtSD (r : Rnd) (d a : Reg) (s : State) : Host.Outcome State Fault Refusal :=
  .next (fcvtFF false .f64 .f32 r d a s)
/-- FCVT: f64 from f32 (05 R118). -/
def execFcvtDS (r : Rnd) (d a : Reg) (s : State) : Host.Outcome State Fault Refusal :=
  .next (fcvtFF true .f32 .f64 r d a s)
/-- FCVT: f32 from f16 (05 R118). -/
def execFcvtSH (r : Rnd) (d a : Reg) (s : State) : Host.Outcome State Fault Refusal :=
  .next (fcvtFF true .f16 .f32 r d a s)
/-- FCVT: f16 from f32 (05 R118). -/
def execFcvtHS (r : Rnd) (d a : Reg) (s : State) : Host.Outcome State Fault Refusal :=
  .next (fcvtFF false .f32 .f16 r d a s)
/-- FCVT: f32 from bf16 (05 R118). -/
def execFcvtSBf (r : Rnd) (d a : Reg) (s : State) : Host.Outcome State Fault Refusal :=
  .next (fcvtFF true .bf16 .f32 r d a s)
/-- FCVT: bf16 from f32 (05 R118). -/
def execFcvtBfS (r : Rnd) (d a : Reg) (s : State) : Host.Outcome State Fault Refusal :=
  .next (fcvtFF false .f32 .bf16 r d a s)
/-- FCVT: f32 from a signed 32-bit integer (05 R118). -/
def execFcvtSW (r : Rnd) (d a : Reg) (s : State) : Host.Outcome State Fault Refusal :=
  .next (fcvtIF false true 32 .f32 r d a s)
/-- FCVT: f32 from a unsigned 32-bit integer (05 R118). -/
def execFcvtSWu (r : Rnd) (d a : Reg) (s : State) : Host.Outcome State Fault Refusal :=
  .next (fcvtIF false false 32 .f32 r d a s)
/-- FCVT: f32 from a signed 64-bit integer (05 R118). -/
def execFcvtSL (r : Rnd) (d a : Reg) (s : State) : Host.Outcome State Fault Refusal :=
  .next (fcvtIF false true 64 .f32 r d a s)
/-- FCVT: f32 from a unsigned 64-bit integer (05 R118). -/
def execFcvtSLu (r : Rnd) (d a : Reg) (s : State) : Host.Outcome State Fault Refusal :=
  .next (fcvtIF false false 64 .f32 r d a s)
/-- FCVT: f64 from a signed 32-bit integer (05 R118). -/
def execFcvtDW (r : Rnd) (d a : Reg) (s : State) : Host.Outcome State Fault Refusal :=
  .next (fcvtIF true true 32 .f64 r d a s)
/-- FCVT: f64 from a unsigned 32-bit integer (05 R118). -/
def execFcvtDWu (r : Rnd) (d a : Reg) (s : State) : Host.Outcome State Fault Refusal :=
  .next (fcvtIF true false 32 .f64 r d a s)
/-- FCVT: f64 from a signed 64-bit integer (05 R118). -/
def execFcvtDL (r : Rnd) (d a : Reg) (s : State) : Host.Outcome State Fault Refusal :=
  .next (fcvtIF false true 64 .f64 r d a s)
/-- FCVT: f64 from a unsigned 64-bit integer (05 R118). -/
def execFcvtDLu (r : Rnd) (d a : Reg) (s : State) : Host.Outcome State Fault Refusal :=
  .next (fcvtIF false false 64 .f64 r d a s)
/-- FCVT: a signed 32-bit integer from f32 (05 R118). -/
def execFcvtWS (r : Rnd) (d a : Reg) (s : State) : Host.Outcome State Fault Refusal :=
  .next (fcvtFI true 32 .f32 r d a s)
/-- FCVT: a unsigned 32-bit integer from f32 (05 R118). -/
def execFcvtWuS (r : Rnd) (d a : Reg) (s : State) : Host.Outcome State Fault Refusal :=
  .next (fcvtFI false 32 .f32 r d a s)
/-- FCVT: a signed 64-bit integer from f32 (05 R118). -/
def execFcvtLS (r : Rnd) (d a : Reg) (s : State) : Host.Outcome State Fault Refusal :=
  .next (fcvtFI true 64 .f32 r d a s)
/-- FCVT: a unsigned 64-bit integer from f32 (05 R118). -/
def execFcvtLuS (r : Rnd) (d a : Reg) (s : State) : Host.Outcome State Fault Refusal :=
  .next (fcvtFI false 64 .f32 r d a s)
/-- FCVT: a signed 32-bit integer from f64 (05 R118). -/
def execFcvtWD (r : Rnd) (d a : Reg) (s : State) : Host.Outcome State Fault Refusal :=
  .next (fcvtFI true 32 .f64 r d a s)
/-- FCVT: a unsigned 32-bit integer from f64 (05 R118). -/
def execFcvtWuD (r : Rnd) (d a : Reg) (s : State) : Host.Outcome State Fault Refusal :=
  .next (fcvtFI false 32 .f64 r d a s)
/-- FCVT: a signed 64-bit integer from f64 (05 R118). -/
def execFcvtLD (r : Rnd) (d a : Reg) (s : State) : Host.Outcome State Fault Refusal :=
  .next (fcvtFI true 64 .f64 r d a s)
/-- FCVT: a unsigned 64-bit integer from f64 (05 R118). -/
def execFcvtLuD (r : Rnd) (d a : Reg) (s : State) : Host.Outcome State Fault Refusal :=
  .next (fcvtFI false 64 .f64 r d a s)
/-- FLI.s: imm20 × 4,096 (02 R49, 05 R119). -/
def execFliS (d : Reg) (imm : BitVec 20) (s : State) : Host.Outcome State Fault Refusal :=
  .next (execUse (useD d) s fun t => .ok (setS d (w64 (imm.toNat * 4096)) t))
/-- FLI.d: imm20 × 2^44 (02 R49, 05 R119). -/
def execFliD (d : Reg) (imm : BitVec 20) (s : State) : Host.Outcome State Fault Refusal :=
  .next (execUse (useD d) s fun t => .ok (setS d (w64 (imm.toNat * 2 ^ 44)) t))
/-- FADD.K (05 R120). -/
def execFaddK (z : Prec) (d a : Reg) (k : BitVec 10) (s : State) : Host.Outcome State Fault Refusal :=
  .next (fbinK faddV z d a k s)
/-- FSUB.K (05 R120). -/
def execFsubK (z : Prec) (d a : Reg) (k : BitVec 10) (s : State) : Host.Outcome State Fault Refusal :=
  .next (fbinK fsubV z d a k s)
/-- FMUL.K (05 R120). -/
def execFmulK (z : Prec) (d a : Reg) (k : BitVec 10) (s : State) : Host.Outcome State Fault Refusal :=
  .next (fbinK fmulV z d a k s)
/-- FFMA.K (05 R120). -/
def execFfmaK (z : Prec) (d a : Reg) (k : BitVec 10) (s : State) : Host.Outcome State Fault Refusal :=
  .next (execUse (withMore (useAD d a) [.s d]) s fun t =>
    constEff k t fun c t => fusedBody z (rmOf t) d a (fpConst z c.toNat) t)

end Sys2Proof.Machine
end

