-- ==== Sys2Proof/Machine/Vector.lean ====
section
/-! DEFINITION. Element helpers and the vector instructions of majors 0x40 to 0x4E (06 R133 to R149; 02 R55 to R57; 04 R79, R88,
R93 to R100). -/
namespace Sys2Proof.Machine

/-! ## Elements (06 R133, R134; 01 R14) -/

/-- The width of an element in bytes (06 R133). -/
def vWidth (t : VTy) : Nat :=
  match t with
  | .i8 => 1
  | .i16 | .f16 | .bf16 => 2
  | .i32 | .f32 => 4
  | .i64 | .f64 => 8

/-- The elements of a register (06 R133). -/
def vCount (t : VTy) : Nat := 64 / vWidth t

/-- The floating-point format of an F type; none for an I type (02 R55). -/
def vFmt (t : VTy) : Option FFmt :=
  match t with
  | .i8 | .i16 | .i32 | .i64 => none
  | .f16 => some .f16
  | .bf16 => some .bf16
  | .f32 => some .f32
  | .f64 => some .f64

/-- Element i of a register, for elements of w bytes. -/
def elem (w i : Nat) (x : VWord) : Nat := bitsOf x.toNat (8 * w * i) (8 * w)

/-- The elements of a register, element 0 first. -/
def elems (w : Nat) (x : VWord) : List Nat := (List.range (64 / w)).map fun i => elem w i x

/-- The value of a list of elements, element 0 in the lowest bits. -/
def packNat (w : Nat) : List Nat → Nat
  | [] => 0
  | x :: xs => x % 2 ^ (8 * w) + 2 ^ (8 * w) * packNat w xs

/-- A register of a list of elements. -/
def pack (w : Nat) (l : List Nat) : VWord := BitVec.ofNat 512 (packNat w l)

/-- Element i is active under a predicate (01 R14). -/
def active (m : Word) (w i : Nat) : Bool := bitOf m.toNat (i * w)

/-- The elements of a result in ascending order: an active element takes `op i k`, with k draws consumed before it, and
consumes `dr` draws; an inactive one is kept (06 R134, 04 R93). -/
def vrun (act : Nat → Bool) (dr : Nat) (op : Nat → Nat → Nat × FFlags) (keep : Nat → Nat) : List Nat → Nat → List Nat × FFlags × Nat
  | [], k => ([], 0, k)
  | i :: is, k =>
    if act i then
      let r := op i k
      let x := vrun act dr op keep is (k + dr)
      (r.1 :: x.1, r.2 ||| x.2.1, x.2.2)
    else
      let x := vrun act dr op keep is k
      (keep i :: x.1, x.2.1, x.2.2)

/-- A vector result delivered: the register, the flags and the draws (06 R134, R135). -/
def vdeliver (w : Nat) (d : VReg) (r : List Nat × FFlags × Nat) (s : State) : State :=
  accrue r.2.1 (useDraws r.2.2 (setV d (pack w r.1) s))

/-- An element-wise effect on vd under a predicate (06 R134). -/
def velem (t : VTy) (m : Word) (d : VReg) (dr : Nat) (op : Nat → Nat → Nat × FFlags) (s : State) : State :=
  let w := vWidth t
  vdeliver w d (vrun (active m w) dr op (fun i => elem w i (getV d s)) (List.range (vCount t)) 0) s

/-- The registers of vd := va op vb. -/
def useVVV (d a b : VReg) : Use := { len := 4, a := some (.v a), b := some (.v b), more := [], w := some (.v d) }
/-- The registers of vd := op va. -/
def useVV (d a : VReg) : Use := { len := 4, a := some (.v a), b := none, more := [], w := some (.v d) }
/-- The registers of vd := va op s[b]. -/
def useVVS (d a : VReg) (b : Reg) : Use := { len := 4, a := some (.v a), b := some (.s b), more := [], w := some (.v d) }

/-! ## Element operations (06 R138, R139) -/

/-- An integer element operation: the element's width in bits, and both elements. -/
abbrev IOp := Nat → Nat → Nat → Nat
/-- A floating-point element operation: format, rounding mode, both encodings and the draw. -/
abbrev FOp := FFmt → Rnd → Nat → Nat → Nat → Nat × FFlags

/-- An integer operation on the signed readings, wrapped (04 R79). -/
def iSigned (f : Int → Int → Int) : IOp := fun n x y => wrapOf n (f (signedOf n x) (signedOf n y))
/-- An integer operation on the signed readings, clamped (04 R79). -/
def iClampS (f : Int → Int → Int) : IOp := fun n x y =>
  let r := f (signedOf n x) (signedOf n y)
  let hi : Int := (2 ^ (n - 1) : Nat) - 1
  let lo : Int := -(2 ^ (n - 1) : Nat)
  wrapOf n (if hi < r then hi else if r < lo then lo else r)
/-- An integer operation on the unsigned readings, clamped (04 R79). -/
def iClampU (f : Int → Int → Int) : IOp := fun n x y =>
  let r := f (x : Int) (y : Int)
  let hi : Int := (2 ^ n : Nat) - 1
  wrapOf n (if hi < r then hi else if r < 0 then 0 else r)

/-- a + b (06 R138). -/
def iAdd : IOp := fun n x y => (x + y) % 2 ^ n
/-- a − b. -/
def iSub : IOp := fun n x y => (x + 2 ^ n - y) % 2 ^ n
/-- The low bits of a × b. -/
def iMul : IOp := fun n x y => x * y % 2 ^ n
/-- The quotient, truncated; all ones for b = 0. -/
def iDiv : IOp := fun n x y => if y = 0 then 2 ^ n - 1 else wrapOf n ((signedOf n x).tdiv (signedOf n y))
/-- The unsigned quotient; all ones for b = 0. -/
def iDivU : IOp := fun n x y => if y = 0 then 2 ^ n - 1 else x / y
/-- The signed minimum. -/
def iMin : IOp := fun n x y => if signedOf n x ≤ signedOf n y then x else y
/-- The signed maximum. -/
def iMax : IOp := fun n x y => if signedOf n y ≤ signedOf n x then x else y
/-- The unsigned minimum. -/
def iMinU : IOp := fun _ x y => if x ≤ y then x else y
/-- The unsigned maximum. -/
def iMaxU : IOp := fun _ x y => if y ≤ x then x else y
/-- The high bits of the signed product (06 R138). -/
def iMulHi : IOp := fun n x y => wrapOf n (signedOf n x * signedOf n y / ((2 ^ n : Nat) : Int))
/-- The high bits of the unsigned product. -/
def iMulHiU : IOp := fun n x y => x * y / 2 ^ n
/-- a shifted left by b[log2 n − 1:0]. -/
def iShl : IOp := fun n x y => x * 2 ^ (y % n) % 2 ^ n
/-- a shifted right, zero fill. -/
def iShr : IOp := fun n x y => x / 2 ^ (y % n)
/-- a shifted right, sign fill. -/
def iSra : IOp := fun n x y => wrapOf n (signedOf n x / ((2 ^ (y % n) : Nat) : Int))

/-- The rounded sum (05 R114). -/
def fAdd : FOp := fun f m x y k => faddV f m (fdecode f x) (fdecode f y) k
/-- The rounded difference. -/
def fSub : FOp := fun f m x y k => faddV f m (fdecode f x) (fdecode f y).neg k
/-- The rounded product. -/
def fMul : FOp := fun f m x y k => fmulV f m (fdecode f x) (fdecode f y) k
/-- The rounded quotient. -/
def fDiv : FOp := fun f m x y k => fdivV f m (fdecode f x) (fdecode f y) k
/-- FMIN (05 R116). -/
def fMin : FOp := fun f _ x y _ => (fminmax f false x y, 0)
/-- FMAX (05 R116). -/
def fMax : FOp := fun f _ x y _ => (fminmax f true x y, 0)

/-- The draws that each element of a rounding operation consumes in STATUS.RM (04 R93). -/
def vDraws (rounds : Bool) (t : VTy) (s : State) : Nat :=
  if rounds && (vFmt t).isSome then drawCount (rmOf s) else 0

/-- One element of an operation that has an integer and a floating-point form. -/
def vop2 (t : VTy) (fi : IOp) (ff : FOp) (s : State) (x y k : Nat) : Nat × FFlags :=
  match vFmt t with
  | none => (fi (8 * vWidth t) x y, 0)
  | some f => ff f (rmOf s) x y (drawFor (rmOf s) k s)

/-- vd := va op vb on active elements (06 R138). -/
def vbin (rounds : Bool) (fi : IOp) (ff : FOp) (t : VTy) (q : QReg) (d a b : VReg) (s : State) : State :=
  execUse (useVVV d a b) s fun s =>
    let w := vWidth t
    .ok (velem t (getQ q s) d (vDraws rounds t s) (fun i k => vop2 t fi ff s (elem w i (getV a s)) (elem w i (getV b s)) k) s)

/-- vd := va op vb bit by bit, on encodings of every type (06 R138). -/
def vbits (f : Nat → Nat → Nat) (t : VTy) (q : QReg) (d a b : VReg) (s : State) : State :=
  vbin false (fun _ x y => f x y) (fun _ _ x y _ => (f x y, 0)) t q d a b s

/-- vd := op va on active elements. -/
def vun (fi : Nat → Nat → Nat) (t : VTy) (q : QReg) (d a : VReg) (s : State) : State :=
  execUse (useVV d a) s fun s =>
    let w := vWidth t
    .ok (velem t (getQ q s) d 0 (fun i _ => (fi (8 * w) (elem w i (getV a s)), 0)) s)

/-- |a| of an I type; the sign bit cleared for an F type (06 R138). -/
def vabsElem (t : VTy) (n x : Nat) : Nat :=
  match vFmt t with
  | none => wrapOf n ((signedOf n x).natAbs : Int)
  | some _ => x % 2 ^ (n - 1)

/-- One element of a fused operation a × b ± c (06 R139). -/
def vfmaElem (sub : Bool) (t : VTy) (s : State) (x y z k : Nat) : Nat × FFlags :=
  let n := 8 * vWidth t
  match vFmt t with
  | none => (if sub then (x * y + 2 ^ n - z) % 2 ^ n else (x * y + z) % 2 ^ n, 0)
  | some f =>
    let c := if sub then (fdecode f z).neg else fdecode f z
    ffmaV f (rmOf s) (fdecode f x) (fdecode f y) c (drawFor (rmOf s) k s)

/-- vd := va × vb ± vd on active elements (06 R139). -/
def vfused (sub : Bool) (t : VTy) (q : QReg) (d a b : VReg) (s : State) : State :=
  execUse (withMore (useVVV d a b) [.v d]) s fun s =>
    let w := vWidth t
    .ok (velem t (getQ q s) d (vDraws true t s)
      (fun i k => vfmaElem sub t s (elem w i (getV a s)) (elem w i (getV b s)) (elem w i (getV d s)) k) s)

/-- The broadcast value of a 32-bit literal or constant (02 R56). -/
def broadcast (t : VTy) (x : W32) : Nat × FFlags :=
  match vFmt t with
  | none => (wrapOf (8 * vWidth t) (signedOf 32 x.toNat), 0)
  | some f => convertFloat f .rne (fdecode .f32 x.toNat) 0

/-- vd := va × c on active elements, with the flags of the broadcast (06 R140). -/
def vmulConst (t : VTy) (m : Word) (d a : VReg) (c : Nat × FFlags) (s : State) : State :=
  let w := vWidth t
  accrue c.2 (velem t m d (vDraws true t s) (fun i k => vop2 t iMul fMul s (elem w i (getV a s)) c.1 k) s)

/-- vd := va × c + vd on active elements, with the flags of the broadcast (06 R140). -/
def vfmaConst (t : VTy) (m : Word) (d a : VReg) (c : Nat × FFlags) (s : State) : State :=
  let w := vWidth t
  accrue c.2 (velem t m d (vDraws true t s)
    (fun i k => vfmaElem false t s (elem w i (getV a s)) c.1 (elem w i (getV d s)) k) s)

/-- The literal form of a `Use`. -/
def withLit (u : Use) : Use := { u with len := 8 }

/-! ## Compare, select and predicates (06 R141 to R143) -/

/-- The relations of VCMP. -/
inductive VRel where
  | eq | ne | lt | le | ltu | leu | un
  deriving DecidableEq, Repr

/-- A relation between two elements, with the flags it sets (06 R141). -/
def vrel (r : VRel) (t : VTy) (x y : Nat) : Bool × FFlags :=
  let n := 8 * vWidth t
  match vFmt t with
  | none =>
    (match r with
     | .eq => x == y
     | .ne => x != y
     | .lt => decide (signedOf n x < signedOf n y)
     | .le => decide (signedOf n x ≤ signedOf n y)
     | .ltu => decide (x < y)
     | .leu => decide (x ≤ y)
     | .un => false, 0)
  | some f =>
    let u := fdecode f x
    let v := fdecode f y
    (match r with
     | .eq => (u.eq v, cmpFlags false u v)
     | .ne => (!u.eq v, cmpFlags false u v)
     | .lt => (u.lt v, cmpFlags true u v)
     | .le => (u.lt v || u.eq v, cmpFlags true u v)
     | .un => (u.isNaN || v.isNaN, cmpFlags false u v)
     | .ltu | .leu => (false, 0))

/-- The mask and the flags of a comparison, over the elements of a list (06 R141). -/
def vcmpMask (w : Nat) (act : Nat → Bool) (op : Nat → Bool × FFlags) : List Nat → Nat × FFlags
  | [] => (0, 0)
  | i :: is =>
    let x := vcmpMask w act op is
    if act i then
      let r := op i
      ((if r.1 then (2 ^ w - 1) * 2 ^ (i * w) else 0) + x.1, r.2 ||| x.2)
    else x

/-- VCMP (06 R141). -/
def vcmp (r : VRel) (t : VTy) (q d : QReg) (a b : VReg) (s : State) : State :=
  execUse { len := 4, a := some (.v a), b := some (.v b), more := [], w := none } s fun s =>
    let w := vWidth t
    let x := vcmpMask w (active (getQ q s) w) (fun i => vrel r t (elem w i (getV a s)) (elem w i (getV b s))) (List.range (vCount t))
    .ok (accrue x.2 (setQ d (w64 x.1) s))

/-- A predicate operation (06 R143). -/
def qop (f : Word → Word → Word) (d a b : QReg) (s : State) : State :=
  finish useNone s (.ok (setQ d (f (getQ a s) (getQ b s)) s))

/-! ## Conversion (06 R144) -/

/-- The value of a conversion between integer types (04 R99). -/
def convI (n m : Nat) (sat : Bool) (x : Nat) : Nat :=
  let r := signedOf n x
  let hi : Int := (2 ^ (m - 1) : Nat) - 1
  let lo : Int := -(2 ^ (m - 1) : Nat)
  wrapOf m (if sat && decide (hi < r) then hi else if sat && decide (r < lo) then lo else r)

/-- Convert (06 R144). -/
def vconv (src dst : VTy) (sat : Bool) (mode : Rnd) (draw x : Nat) : Nat × FFlags :=
  let n := 8 * vWidth src
  let m := 8 * vWidth dst
  match vFmt src, vFmt dst with
  | some f, some g => convertFloat g mode (fdecode f x) draw
  | some f, none =>
    let r := floatToInt m true sat mode (fdecode f x) draw
    (wrapOf m r.1, r.2)
  | none, some g => intToFloat g mode (signedOf n x) draw
  | none, none => (convI n m sat x, 0)

/-- A conversion form that rounds (04 R93). -/
def vconvRounds (src dst : VTy) : Bool :=
  match src, dst with
  | .i8, _ => false
  | .i16, .f32 | .i16, .f64 | .i32, .f64 => false
  | .f16, .f32 | .f16, .f64 | .bf16, .f32 | .bf16, .f64 | .f32, .f64 => false
  | _, .i8 | _, .i16 | _, .i32 | _, .i64 => (vFmt src).isSome
  | _, .f16 | _, .bf16 | _, .f32 | _, .f64 => true

/-- VCVT (06 R144). -/
def vcvt (sat : Bool) (src t : VTy) (q : QReg) (d a : VReg) (s : State) : State :=
  execUse (useVV d a) s fun s =>
    let wd := vWidth t
    let ws := vWidth src
    let n := Nat.min (64 / ws) (64 / wd)
    let dr := if vconvRounds src t then drawCount (rmOf s) else 0
    let r := vrun (fun i => decide (i < n) && active (getQ q s) wd i) dr
      (fun i k => vconv src t sat (rmOf s) (drawFor (rmOf s) k s) (elem ws i (getV a s)))
      (fun i => if i < n then elem wd i (getV d s) else 0) (List.range (64 / wd)) 0
    .ok (vdeliver wd d r s)

/-! ## Rearrangement (06 R145) -/

/-- vd[i] := f i on active elements, with no flag and no draw. -/
def vplace (t : VTy) (q : QReg) (d : VReg) (f : Nat → Nat) (s : State) : State := velem t (getQ q s) d 0 (fun i _ => (f i, 0)) s

/-- An element widened into a scalar register (06 R145). -/
def widen (t : VTy) (unsigned : Bool) (x : Nat) : Word :=
  match vFmt t with
  | none => if unsigned then w64 x else w64i (signedOf (8 * vWidth t) x)
  | some _ => w64 x

/-! ## Reductions and scans (06 R146, R147; 04 R100) -/

/-- The combining operations of VRED and VSCAN. -/
inductive VComb where
  | add | min | max | minu | maxu | and | or | xor
  deriving DecidableEq, Repr

/-- The identity of an operation (04 R100). -/
def combId (c : VComb) (t : VTy) : Nat :=
  let n := 8 * vWidth t
  match vFmt t with
  | some f =>
    (match c with
     | .add => f.signBits true
     | .min => f.infBits false
     | .max => f.infBits true
     | .minu | .maxu | .and | .or | .xor => 0)
  | none =>
    match c with
    | .add | .or | .xor => 0
    | .and | .minu => 2 ^ n - 1
    | .maxu => 0
    | .min => 2 ^ (n - 1) - 1
    | .max => 2 ^ (n - 1)

/-- One combination, with k draws consumed before it. -/
def combOp (c : VComb) (t : VTy) (s : State) (k x y : Nat) : Nat × FFlags :=
  match c with
  | .add => vop2 t iAdd fAdd s x y k
  | .min => vop2 t iMin fMin s x y k
  | .max => vop2 t iMax fMax s x y k
  | .minu => (iMinU (8 * vWidth t) x y, 0)
  | .maxu => (iMaxU (8 * vWidth t) x y, 0)
  | .and => (x &&& y, 0)
  | .or => (x ||| y, 0)
  | .xor => (x ^^^ y, 0)

/-- The draws that one combination consumes. -/
def combDraws (c : VComb) (t : VTy) (s : State) : Nat := vDraws (c == .add) t s

/-- One level of TreeSum (04 R100): the combined pairs, the flags and the draws so far. -/
def treeLevel (op : Nat → Nat → Nat → Nat × FFlags) (dr : Nat) : List Nat → Nat → List Nat × FFlags × Nat
  | x :: y :: l, k =>
    let r := op k x y
    let z := treeLevel op dr l (k + dr)
    (r.1 :: z.1, r.2 ||| z.2.1, z.2.2)
  | [x], k => ([x], 0, k)
  | [], k => ([], 0, k)

/-- TreeSum (04 R100), with `fuel` levels. -/
def treeSum (op : Nat → Nat → Nat → Nat × FFlags) (dr : Nat) : Nat → List Nat → Nat → Nat × FFlags × Nat
  | 0, l, k => (nth 0 l 0, 0, k)
  | fuel + 1, l, k =>
    let a := treeLevel op dr l k
    let b := treeSum op dr fuel a.1 a.2.2
    (b.1, a.2.1 ||| b.2.1, b.2.2)

/-- The elements of va with the inactive ones replaced by an identity (06 R146). -/
def masked (t : VTy) (m : Word) (ident : Nat) (x : VWord) : List Nat :=
  (List.range (vCount t)).map fun i => if active m (vWidth t) i then elem (vWidth t) i x else ident

/-- VRED (06 R146). -/
def vred (c : VComb) (t : VTy) (q : QReg) (d : Reg) (a : VReg) (s : State) : State :=
  execUse { len := 4, a := some (.v a), b := none, more := [], w := some (.s d) } s fun s =>
    let r := treeSum (combOp c t s) (combDraws c t s) 6 (masked t (getQ q s) (combId c t) (getV a s)) 0
    .ok (accrue r.2.1 (useDraws r.2.2 (setS d (widen t (c == .minu || c == .maxu) r.1) s)))

/-- The serial outputs of VSCAN after a first output (06 R147), the flags of those that go to an active element (06 R135; log entry
60), and the draws consumed. -/
def scanFrom (op : Nat → Nat → Nat → Nat × FFlags) (dr y : Nat) : List (Nat × Bool) → Nat → List Nat × FFlags × Nat
  | [], k => ([], 0, k)
  | x :: xs, k =>
    let r := op k y x.1
    let z := scanFrom op dr r.1 xs (k + dr)
    (r.1 :: z.1, (if x.2 then r.2 else 0) ||| z.2.1, z.2.2)

/-- The outputs of an inclusive scan, each operand given with whether its output's element is active (06 R147). -/
def scanIncl (op : Nat → Nat → Nat → Nat × FFlags) (dr : Nat) (l : List (Nat × Bool)) : List Nat × FFlags × Nat :=
  match l with
  | [] => ([], 0, 0)
  | x :: xs =>
    let z := scanFrom op dr x.1 xs 0
    (x.1 :: z.1, z.2.1, z.2.2)

/-- The outputs of .addx (06 R147): 0, then the inclusive scan of all elements but the last, whose outputs stand one element
further up. -/
def scanExcl (op : Nat → Nat → Nat → Nat × FFlags) (dr : Nat) (l : List Nat) (on : List Bool) : List Nat × FFlags × Nat :=
  let z := scanIncl op dr (l.dropLast.zip (on.drop 1))
  (0 :: z.1, z.2.1, z.2.2)

/-- VSCAN (06 R147). -/
def vscan (excl : Bool) (c : VComb) (t : VTy) (q : QReg) (d a : VReg) (s : State) : State :=
  execUse (useVV d a) s fun s =>
    let w := vWidth t
    let x := masked t (getQ q s) (combId c t) (getV a s)
    let op := combOp c t s
    let on := (List.range (vCount t)).map fun i => active (getQ q s) w i
    let r := if excl then scanExcl op (combDraws c t s) x on else scanIncl op (combDraws c t s) (x.zip on)
    let out := (List.range (vCount t)).map fun i => if active (getQ q s) w i then nth 0 r.1 i else elem w i (getV d s)
    .ok (vdeliver w d (out, r.2.1, r.2.2) s)

/-! ## Dot products and bit operations (06 R148, R149) -/

/-- The exact product of two elements of a dot product: NaN operands and 0 × ∞ give a NaN (06 R148). -/
def dotProd (x y : FVal) : FVal := if zeroTimesInf x y || x.isNaN || y.isNaN then .nan false else x.mulExact y

/-- The flag of a product of a dot product (06 R148). -/
def dotFlag (x y : FVal) : FFlags := flagIf (x.isSNaN || y.isSNaN || zeroTimesInf x y) flNV

/-- One lane of VDOT of an F type (06 R148), with k draws consumed before it. -/
def vdotF (f : FFmt) (s : State) (acc a b k : Nat) : Nat × FFlags :=
  let m := rmOf s
  let x (i : Nat) := fdecode f (bitsOf a (16 * i) 16)
  let y (i : Nat) := fdecode f (bitsOf b (16 * i) 16)
  let t := faddV .f32 m (dotProd (x 0) (y 0)) (dotProd (x 1) (y 1)) (drawFor m k s)
  let r := faddV .f32 m (fdecode .f32 acc) (fdecode .f32 t.1) (drawFor m (k + 1) s)
  (r.1, dotFlag (x 0) (y 0) ||| dotFlag (x 1) (y 1) ||| t.2 ||| r.2)

/-- One lane of VDOT of an I type with elements of w bytes (06 R148). -/
def vdotI (unsigned : Bool) (w acc a b : Nat) : Nat :=
  let rd (x i : Nat) : Int := if unsigned then (bitsOf x (8 * w * i) (8 * w) : Int) else signedOf (8 * w) (x / 2 ^ (8 * w * i))
  wrapOf 32 (((List.range (4 / w)).map fun i => rd a i * rd b i).foldl (fun p x => p + x) (acc : Int))

/-- VDOT (06 R148). -/
def vdot (unsigned : Bool) (t : VTy) (q : QReg) (d a b : VReg) (s : State) : State :=
  execUse (withMore (useVVV d a b) [.v d]) s fun s =>
    let op (i k : Nat) : Nat × FFlags :=
      let acc := elem 4 i (getV d s)
      let x := elem 4 i (getV a s)
      let y := elem 4 i (getV b s)
      match vFmt t with
      | none => (vdotI unsigned (vWidth t) acc x y, 0)
      | some f => vdotF f s acc x y k
    .ok (vdeliver 4 d (vrun (active (getQ q s) 4) (2 * vDraws true t s) op (fun i => elem 4 i (getV d s)) (List.range 16) 0) s)

/-- The carry-less product of n bits of a with b (06 R149). -/
def clmul : Nat → Nat → Nat → Nat
  | 0, _, _ => 0
  | n + 1, a, b => (if a % 2 = 1 then b else 0) ^^^ clmul n (a / 2) (2 * b)

/-- VCLMUL (06 R149). -/
def vclmul (h : BitVec 2) (q : QReg) (d a b : VReg) (s : State) : State :=
  execUse (useVVV d a b) s fun s =>
    let lane (j : Nat) : Nat :=
      if active (getQ q s) 16 j then
        clmul 64 (elem 8 (2 * j + h.toNat % 2) (getV a s)) (elem 8 (2 * j + h.toNat / 2) (getV b s))
      else elem 16 j (getV d s)
    .ok (setV d (pack 16 ((List.range 4).map lane)) s)

/-! ## The instructions -/

/-- VADD (06 R138). -/
def execVadd (t : VTy) (q : QReg) (d a b : VReg) (s : State) : Host.Outcome State Fault Refusal :=
  .next (vbin true iAdd fAdd t q d a b s)
/-- VSUB (06 R138). -/
def execVsub (t : VTy) (q : QReg) (d a b : VReg) (s : State) : Host.Outcome State Fault Refusal :=
  .next (vbin true iSub fSub t q d a b s)
/-- VMUL (06 R138). -/
def execVmul (t : VTy) (q : QReg) (d a b : VReg) (s : State) : Host.Outcome State Fault Refusal :=
  .next (vbin true iMul fMul t q d a b s)
/-- VMULH (06 R138). -/
def execVmulh (t : VTy) (q : QReg) (d a b : VReg) (s : State) : Host.Outcome State Fault Refusal :=
  .next (vbin false iMulHi fMul t q d a b s)
/-- VDIV (06 R138). -/
def execVdiv (t : VTy) (q : QReg) (d a b : VReg) (s : State) : Host.Outcome State Fault Refusal :=
  .next (vbin true iDiv fDiv t q d a b s)
/-- VMIN (06 R138). -/
def execVmin (t : VTy) (q : QReg) (d a b : VReg) (s : State) : Host.Outcome State Fault Refusal :=
  .next (vbin false iMin fMin t q d a b s)
/-- VMAX (06 R138). -/
def execVmax (t : VTy) (q : QReg) (d a b : VReg) (s : State) : Host.Outcome State Fault Refusal :=
  .next (vbin false iMax fMax t q d a b s)
/-- VSHL (06 R138). -/
def execVshl (t : VTy) (q : QReg) (d a b : VReg) (s : State) : Host.Outcome State Fault Refusal :=
  .next (vbin false iShl fMul t q d a b s)
/-- VSHR (06 R138). -/
def execVshr (t : VTy) (q : QReg) (d a b : VReg) (s : State) : Host.Outcome State Fault Refusal :=
  .next (vbin false iShr fMul t q d a b s)
/-- VSRA (06 R138). -/
def execVsra (t : VTy) (q : QReg) (d a b : VReg) (s : State) : Host.Outcome State Fault Refusal :=
  .next (vbin false iSra fMul t q d a b s)
/-- VADD.ss (06 R138). -/
def execVaddSs (t : VTy) (q : QReg) (d a b : VReg) (s : State) : Host.Outcome State Fault Refusal :=
  .next (vbin false (iClampS fun x y => x + y) fAdd t q d a b s)
/-- VSUB.ss (06 R138). -/
def execVsubSs (t : VTy) (q : QReg) (d a b : VReg) (s : State) : Host.Outcome State Fault Refusal :=
  .next (vbin false (iClampS fun x y => x - y) fSub t q d a b s)
/-- VADD.us (06 R138). -/
def execVaddUs (t : VTy) (q : QReg) (d a b : VReg) (s : State) : Host.Outcome State Fault Refusal :=
  .next (vbin false (iClampU fun x y => x + y) fAdd t q d a b s)
/-- VSUB.us (06 R138). -/
def execVsubUs (t : VTy) (q : QReg) (d a b : VReg) (s : State) : Host.Outcome State Fault Refusal :=
  .next (vbin false (iClampU fun x y => x - y) fSub t q d a b s)
/-- VMULH.u (06 R138). -/
def execVmulhU (t : VTy) (q : QReg) (d a b : VReg) (s : State) : Host.Outcome State Fault Refusal :=
  .next (vbin false iMulHiU fMul t q d a b s)
/-- VMIN.u (06 R138). -/
def execVminU (t : VTy) (q : QReg) (d a b : VReg) (s : State) : Host.Outcome State Fault Refusal :=
  .next (vbin false iMinU fMin t q d a b s)
/-- VMAX.u (06 R138). -/
def execVmaxU (t : VTy) (q : QReg) (d a b : VReg) (s : State) : Host.Outcome State Fault Refusal :=
  .next (vbin false iMaxU fMax t q d a b s)
/-- VDIV.u (06 R138). -/
def execVdivU (t : VTy) (q : QReg) (d a b : VReg) (s : State) : Host.Outcome State Fault Refusal :=
  .next (vbin false iDivU fDiv t q d a b s)
/-- VAND (06 R138). -/
def execVand (t : VTy) (q : QReg) (d a b : VReg) (s : State) : Host.Outcome State Fault Refusal :=
  .next (vbits (fun x y => x &&& y) t q d a b s)
/-- VOR (06 R138). -/
def execVor (t : VTy) (q : QReg) (d a b : VReg) (s : State) : Host.Outcome State Fault Refusal :=
  .next (vbits (fun x y => x ||| y) t q d a b s)
/-- VXOR (06 R138). -/
def execVxor (t : VTy) (q : QReg) (d a b : VReg) (s : State) : Host.Outcome State Fault Refusal :=
  .next (vbits (fun x y => x ^^^ y) t q d a b s)
/-- VABS (06 R138). -/
def execVabs (t : VTy) (q : QReg) (d a : VReg) (s : State) : Host.Outcome State Fault Refusal :=
  .next (vun (vabsElem t) t q d a s)
/-- VPOPC (06 R149). -/
def execVpopc (t : VTy) (q : QReg) (d a : VReg) (s : State) : Host.Outcome State Fault Refusal :=
  .next (vun popcount t q d a s)
/-- VFMA (06 R139). -/
def execVfma (t : VTy) (q : QReg) (d a b : VReg) (s : State) : Host.Outcome State Fault Refusal :=
  .next (vfused false t q d a b s)
/-- VFMS (06 R139). -/
def execVfms (t : VTy) (q : QReg) (d a b : VReg) (s : State) : Host.Outcome State Fault Refusal :=
  .next (vfused true t q d a b s)
/-- VMUL.L (06 R140). -/
def execVmulL (t : VTy) (q : QReg) (d a : VReg) (l : W32) (s : State) : Host.Outcome State Fault Refusal :=
  .next (execUse (withLit (useVV d a)) s fun s => .ok (vmulConst t (getQ q s) d a (broadcast t l) s))
/-- VFMA.L (06 R140). -/
def execVfmaL (t : VTy) (q : QReg) (d a : VReg) (l : W32) (s : State) : Host.Outcome State Fault Refusal :=
  .next (execUse (withMore (withLit (useVV d a)) [.v d]) s fun s => .ok (vfmaConst t (getQ q s) d a (broadcast t l) s))
/-- VMUL.K (06 R140). -/
def execVmulK (t : VTy) (d a : VReg) (k : BitVec 10) (s : State) : Host.Outcome State Fault Refusal :=
  .next (execUse (useVV d a) s fun s => constEff k s fun c s => .ok (vmulConst t (getQ 0 s) d a (broadcast t c) s))
/-- VFMA.K (06 R140). -/
def execVfmaK (t : VTy) (d a : VReg) (k : BitVec 10) (s : State) : Host.Outcome State Fault Refusal :=
  .next (execUse (withMore (useVV d a) [.v d]) s fun s => constEff k s fun c s => .ok (vfmaConst t (getQ 0 s) d a (broadcast t c) s))
/-- VCMP.eq (06 R141). -/
def execVcmpEq (t : VTy) (q d : QReg) (a b : VReg) (s : State) : Host.Outcome State Fault Refusal :=
  .next (vcmp .eq t q d a b s)
/-- VCMP.ne (06 R141). -/
def execVcmpNe (t : VTy) (q d : QReg) (a b : VReg) (s : State) : Host.Outcome State Fault Refusal :=
  .next (vcmp .ne t q d a b s)
/-- VCMP.lt (06 R141). -/
def execVcmpLt (t : VTy) (q d : QReg) (a b : VReg) (s : State) : Host.Outcome State Fault Refusal :=
  .next (vcmp .lt t q d a b s)
/-- VCMP.le (06 R141). -/
def execVcmpLe (t : VTy) (q d : QReg) (a b : VReg) (s : State) : Host.Outcome State Fault Refusal :=
  .next (vcmp .le t q d a b s)
/-- VCMP.ltu (06 R141). -/
def execVcmpLtu (t : VTy) (q d : QReg) (a b : VReg) (s : State) : Host.Outcome State Fault Refusal :=
  .next (vcmp .ltu t q d a b s)
/-- VCMP.leu (06 R141). -/
def execVcmpLeu (t : VTy) (q d : QReg) (a b : VReg) (s : State) : Host.Outcome State Fault Refusal :=
  .next (vcmp .leu t q d a b s)
/-- VCMP.un (06 R141). -/
def execVcmpUn (t : VTy) (q d : QReg) (a b : VReg) (s : State) : Host.Outcome State Fault Refusal :=
  .next (vcmp .un t q d a b s)
/-- VSEL (06 R142). -/
def execVsel (t : VTy) (q : QReg) (d a b : VReg) (s : State) : Host.Outcome State Fault Refusal :=
  .next (execUse (useVVV d a b) s fun s =>
    let w := vWidth t
    .ok (setV d (pack w ((List.range (vCount t)).map fun i =>
      if active (getQ q s) w i then elem w i (getV a s) else elem w i (getV b s))) s))
/-- VCVT (06 R144). -/
def execVcvt (sat : Bool) (src t : VTy) (q : QReg) (d a : VReg) (s : State) : Host.Outcome State Fault Refusal :=
  .next (vcvt sat src t q d a s)
/-- VPERM (06 R145). -/
def execVperm (t : VTy) (q : QReg) (d a b : VReg) (s : State) : Host.Outcome State Fault Refusal :=
  .next (execUse (useVVV d a b) s fun s =>
    let w := vWidth t
    .ok (vplace t q d (fun i => elem w (elem w i (getV b s) % vCount t) (getV a s)) s))
/-- VSLIDE.up (06 R145). -/
def execVslideUp (t : VTy) (q : QReg) (d a : VReg) (b : Reg) (s : State) : Host.Outcome State Fault Refusal :=
  .next (execUse (useVVS d a b) s fun s =>
    let c := (getS b s).toNat
    .ok (vplace t q d (fun i => if c ≤ i then elem (vWidth t) (i - c) (getV a s) else 0) s))
/-- VSLIDE.dn (06 R145). -/
def execVslideDn (t : VTy) (q : QReg) (d a : VReg) (b : Reg) (s : State) : Host.Outcome State Fault Refusal :=
  .next (execUse (useVVS d a b) s fun s =>
    let c := (getS b s).toNat
    .ok (vplace t q d (fun i => if i + c < vCount t then elem (vWidth t) (i + c) (getV a s) else 0) s))
/-- VBCAST (06 R145). -/
def execVbcast (t : VTy) (q : QReg) (d a : VReg) (b : Reg) (s : State) : Host.Outcome State Fault Refusal :=
  .next (execUse (useVVS d a b) s fun s =>
    .ok (vplace t q d (fun _ => elem (vWidth t) ((getS b s).toNat % vCount t) (getV a s)) s))
/-- VSPLAT (06 R145). -/
def execVsplat (t : VTy) (q : QReg) (d : VReg) (a : Reg) (s : State) : Host.Outcome State Fault Refusal :=
  .next (execUse { len := 4, a := some (.s a), b := none, more := [], w := some (.v d) } s fun s =>
    .ok (vplace t q d (fun _ => (getS a s).toNat % 2 ^ (8 * vWidth t)) s))
/-- VEXT (06 R145). -/
def execVext (t : VTy) (d : Reg) (a : VReg) (b : Reg) (s : State) : Host.Outcome State Fault Refusal :=
  .next (execUse { len := 4, a := some (.v a), b := some (.s b), more := [], w := some (.s d) } s fun s =>
    .ok (setS d (widen t false (elem (vWidth t) ((getS b s).toNat % vCount t) (getV a s))) s))
/-- VINS (06 R145). -/
def execVins (t : VTy) (d : VReg) (a b : Reg) (s : State) : Host.Outcome State Fault Refusal :=
  .next (execUse { len := 4, a := some (.s a), b := some (.s b), more := [.v d], w := some (.v d) } s fun s =>
    let w := vWidth t
    .ok (setV d (pack w ((List.range (vCount t)).map fun i =>
      if i = (getS b s).toNat % vCount t then (getS a s).toNat % 2 ^ (8 * w) else elem w i (getV d s))) s))
/-- VRED.add (06 R146). -/
def execVredAdd (t : VTy) (q : QReg) (d : Reg) (a : VReg) (s : State) : Host.Outcome State Fault Refusal :=
  .next (vred .add t q d a s)
/-- VRED.min (06 R146). -/
def execVredMin (t : VTy) (q : QReg) (d : Reg) (a : VReg) (s : State) : Host.Outcome State Fault Refusal :=
  .next (vred .min t q d a s)
/-- VRED.max (06 R146). -/
def execVredMax (t : VTy) (q : QReg) (d : Reg) (a : VReg) (s : State) : Host.Outcome State Fault Refusal :=
  .next (vred .max t q d a s)
/-- VRED.minu (06 R146). -/
def execVredMinu (t : VTy) (q : QReg) (d : Reg) (a : VReg) (s : State) : Host.Outcome State Fault Refusal :=
  .next (vred .minu t q d a s)
/-- VRED.maxu (06 R146). -/
def execVredMaxu (t : VTy) (q : QReg) (d : Reg) (a : VReg) (s : State) : Host.Outcome State Fault Refusal :=
  .next (vred .maxu t q d a s)
/-- VRED.and (06 R146). -/
def execVredAnd (t : VTy) (q : QReg) (d : Reg) (a : VReg) (s : State) : Host.Outcome State Fault Refusal :=
  .next (vred .and t q d a s)
/-- VRED.or (06 R146). -/
def execVredOr (t : VTy) (q : QReg) (d : Reg) (a : VReg) (s : State) : Host.Outcome State Fault Refusal :=
  .next (vred .or t q d a s)
/-- VRED.xor (06 R146). -/
def execVredXor (t : VTy) (q : QReg) (d : Reg) (a : VReg) (s : State) : Host.Outcome State Fault Refusal :=
  .next (vred .xor t q d a s)
/-- VSCAN.add (06 R147). -/
def execVscanAdd (t : VTy) (q : QReg) (d a : VReg) (s : State) : Host.Outcome State Fault Refusal :=
  .next (vscan false .add t q d a s)
/-- VSCAN.addx (06 R147). -/
def execVscanAddx (t : VTy) (q : QReg) (d a : VReg) (s : State) : Host.Outcome State Fault Refusal :=
  .next (vscan true .add t q d a s)
/-- VSCAN.max (06 R147). -/
def execVscanMax (t : VTy) (q : QReg) (d a : VReg) (s : State) : Host.Outcome State Fault Refusal :=
  .next (vscan false .max t q d a s)
/-- VSCAN.min (06 R147). -/
def execVscanMin (t : VTy) (q : QReg) (d a : VReg) (s : State) : Host.Outcome State Fault Refusal :=
  .next (vscan false .min t q d a s)
/-- VDOT (06 R148). -/
def execVdot (t : VTy) (q : QReg) (d a b : VReg) (s : State) : Host.Outcome State Fault Refusal :=
  .next (vdot false t q d a b s)
/-- VDOT.u (06 R148). -/
def execVdotU (t : VTy) (q : QReg) (d a b : VReg) (s : State) : Host.Outcome State Fault Refusal :=
  .next (vdot true t q d a b s)
/-- VCLMUL (06 R149). -/
def execVclmul (h : BitVec 2) (q : QReg) (d a b : VReg) (s : State) : Host.Outcome State Fault Refusal :=
  .next (vclmul h q d a b s)
/-- QAND (06 R143). -/
def execQand (d a b : QReg) (s : State) : Host.Outcome State Fault Refusal :=
  .next (qop (fun x y => x &&& y) d a b s)
/-- QOR (06 R143). -/
def execQor (d a b : QReg) (s : State) : Host.Outcome State Fault Refusal :=
  .next (qop (fun x y => x ||| y) d a b s)
/-- QXOR (06 R143). -/
def execQxor (d a b : QReg) (s : State) : Host.Outcome State Fault Refusal :=
  .next (qop (fun x y => x ^^^ y) d a b s)
/-- QNOT (06 R143). -/
def execQnot (d a : QReg) (s : State) : Host.Outcome State Fault Refusal :=
  .next (qop (fun x _ => ~~~x) d a 0 s)

end Sys2Proof.Machine
end

