-- ==== Sys2Proof/Machine/VectorMem.lean ====
section
/-! DEFINITION. Vector loads and stores and VAMO (06 R150 to R153; 13 R296, R297). -/
namespace Sys2Proof.Machine

/-! ## Element addresses (06 R150) -/

/-- The active elements of an access, each with its address (06 R150, R151). -/
def accesses (t : VTy) (q : QReg) (addr : Nat → Word) (s : State) : List (Nat × Word) :=
  ((List.range (vCount t)).filter fun i => active (getQ q s) (vWidth t) i).map fun i => (i, addr i)

/-- The element addresses of VLD and VST (06 R150). -/
def addrUnit (t : VTy) (a b : Reg) (s : State) (i : Nat) : Word := getS a s + getS b s + w64 (i * vWidth t)
/-- The element addresses of VLDS and VSTS (06 R150). -/
def addrStride (a b : Reg) (s : State) (i : Nat) : Word := getS a s + w64 i * getS b s
/-- The element addresses of VLDX, VSTX and VAMO (06 R150, 13 R296). -/
def addrIndex (a : Reg) (b : VReg) (s : State) (i : Nat) : Word := getS a s + w64i (signedOf 32 (elem 4 i (getV b s)))

/-! ## Loads and stores (06 R151, R152) -/

/-- An element of a vector access that has been checked: its index, its generic address, and the key, class and physical address that it
comes to (06 R151). -/
structure Target where
  idx : Nat
  ga : Word
  key : Nat
  cls : Cls
  pa : Nat
  deriving DecidableEq, Repr

/-- What the check of every element of a vector access comes to: its targets, or what stops it (06 R151). -/
inductive ElemChk where
  | ok (s : State) (ts : List Target)
  | stop (e : Eff)

/-- Every element translated and checked for a load, in ascending order; the constant bank is read as local memory is (06 R151). -/
def checkLoads (w : Nat) : List (Nat × Word) → List Target → State → ElemChk
  | [], ts, s => .ok s ts
  | x :: xs, ts, s =>
    match reach .load w x.2 .either none s with
    | .mem t key cls _ pa => checkLoads w xs (ts ++ [{ idx := x.1, ga := x.2, key := key, cls := cls, pa := pa }]) t
    | .const key => checkLoads w xs (ts ++ [{ idx := x.1, ga := x.2, key := key, cls := .lm, pa := 0 }]) s
    | .event _ _ => .stop (evFault .load x.2)
    | .fw _ _ => .stop (evFault .load x.2)
    | .fault _ code detail => .stop (.trap code detail x.2)
    | .wait t => .stop (.hold t .stalled)
    | .merr code loc => .stop (.final (machineError code loc s))

/-- Every element loaded into its place, once all have been translated and checked (06 R151; 11 R243). -/
def loadElems (w : Nat) : List Target → List Nat → State → (List Nat → State → Eff) → Eff
  | [], r, s, f => f r s
  | x :: xs, r, s, f => loadEff (loadMem w x.key x.cls x.pa s) s fun v t => loadElems w xs (setNth r x.idx v) t f

/-- A vector load of the active elements into vd (06 R150, R151). -/
def vloadEff (t : VTy) (q : QReg) (d : VReg) (addr : State → Nat → Word) (s : State) : Eff :=
  let w := vWidth t
  let xs := accesses t q (addr s) s
  match checkLoads w xs [] s with
  | .stop e => e
  | .ok u ts => loadElems w ts (elems w (getV d s)) u fun r u => .ok (setV d (pack w r) u)

/-- Every element translated and checked for a store, in ascending order (06 R151). -/
def checkStores (w : Nat) : List (Nat × Word) → List Target → State → ElemChk
  | [], ts, s => .ok s ts
  | x :: xs, ts, s =>
    match checkStore w x.2 s with
    | .ok t key cls pa => checkStores w xs (ts ++ [{ idx := x.1, ga := x.2, key := key, cls := cls, pa := pa }]) t
    | .fault c => .stop (.trap c.code c.detail c.val)
    | .wait t => .stop (.hold t .stalled)
    | .merr code loc => .stop (.final (machineError code loc s))

/-- Every element stored, in ascending order, once all have been translated and checked (06 R151, R152; 11 R243). -/
def storeElems (w : Nat) (v : VWord) (ts : List Target) (s : State) : State :=
  ts.foldl (fun s x => retireStore x.key x.pa x.cls x.ga (leBytes w (elem w x.idx v)) none s) s

/-- A vector store of the active elements of a register (06 R150 to R152). -/
def vstoreEff (t : VTy) (q : QReg) (d : VReg) (addr : State → Nat → Word) (s : State) : Eff :=
  let w := vWidth t
  let xs := accesses t q (addr s) s
  match checkStores w xs [] s with
  | .stop e => e
  | .ok u ts => .ok (storeElems w (getV d s) ts u)

/-- The registers of a vector load at s[a] and s[b]. -/
def useVld (d : VReg) (a b : Reg) : Use := { len := 4, a := some (.s a), b := some (.s b), more := [], w := some (.v d) }
/-- The registers of a vector store at s[a] and s[b]. -/
def useVst (d : VReg) (a b : Reg) : Use := { len := 4, a := some (.s a), b := some (.s b), more := [.v d], w := none }

/-- VLD (06 R150). -/
def execVld (t : VTy) (q : QReg) (d : VReg) (a b : Reg) (s : State) : Host.Outcome State Fault Refusal :=
  .next (execUse (useVld d a b) s (vloadEff t q d (addrUnit t a b)))

/-- VST (06 R150). -/
def execVst (t : VTy) (q : QReg) (d : VReg) (a b : Reg) (s : State) : Host.Outcome State Fault Refusal :=
  .next (execUse (useVst d a b) s (vstoreEff t q d (addrUnit t a b)))

/-- VLDS (06 R150). -/
def execVlds (t : VTy) (q : QReg) (d : VReg) (a b : Reg) (s : State) : Host.Outcome State Fault Refusal :=
  .next (execUse (useVld d a b) s (vloadEff t q d (addrStride a b)))

/-- VSTS (06 R150). -/
def execVsts (t : VTy) (q : QReg) (d : VReg) (a b : Reg) (s : State) : Host.Outcome State Fault Refusal :=
  .next (execUse (useVst d a b) s (vstoreEff t q d (addrStride a b)))

/-- VLDX (06 R150). -/
def execVldx (t : VTy) (q : QReg) (d : VReg) (a : Reg) (b : VReg) (s : State) : Host.Outcome State Fault Refusal :=
  .next (execUse { len := 4, a := some (.s a), b := some (.v b), more := [], w := some (.v d) } s
    (vloadEff t q d (addrIndex a b)))

/-- VSTX (06 R150). -/
def execVstx (t : VTy) (q : QReg) (d : VReg) (a : Reg) (b : VReg) (s : State) : Host.Outcome State Fault Refusal :=
  .next (execUse { len := 4, a := some (.s a), b := some (.v b), more := [.v d], w := none } s
    (vstoreEff t q d (addrIndex a b)))

/-! ## VAMO (13 R296, R297) -/

/-- What the check of one element of VAMO comes to (13 R297). -/
def vamoReach (w : Nat) (ga : Word) (s : State) : Chk :=
  match reachAs homeCls .atomic w ga .forbid none s with
  | .mem t key cls _ pa =>
    .ok t key cls pa
  | .const _ => .fault { code := 0x21, detail := 3 * 4 + 2, val := ga }
  | .event _ _ => .fault { code := 0x21, detail := 4 * 4 + 2, val := ga }
  | .fw _ _ => .fault { code := 0x21, detail := 4 * 4 + 2, val := ga }
  | .fault _ code detail => .fault { code := code, detail := detail, val := ga }
  | .wait t => .wait t
  | .merr code loc => .merr code loc

/-- Every active element of VAMO checked, in ascending order (13 R297). -/
def vamoCheck (w : Nat) : List (Nat × Word) → List Target → State → ElemChk
  | [], ts, s => .ok s ts
  | x :: xs, ts, s =>
    match vamoReach w x.2 s with
    | .ok t key cls pa => vamoCheck w xs (ts ++ [{ idx := x.1, ga := x.2, key := key, cls := cls, pa := pa }]) t
    | .fault c => .stop (.trap c.code c.detail c.val)
    | .wait t => .stop (.hold t .stalled)
    | .merr code loc => .stop (.final (machineError code loc s))

/-- Every active element of VAMO, once all have been checked, retires, to be performed later at its home slice or target local memory
(11 R243; 13 R296). -/
def vamoPost (op : AmoOp) (w : Nat) (v : VWord) (ts : List Target) (s : State) : State :=
  ts.foldl (fun s x =>
    addPend { pendOf x.key x.pa (homeCls x.cls x.pa) x.ga (.amo op w (elem w x.idx v) 0 false) s with cached := x.cls == .l1 } s) s

/-- VAMO of an operation (13 R296, R297). -/
def vamoEff (op : AmoOp) (t : VTy) (q : QReg) (sB : Reg) (a b : VReg) (s : State) : Eff :=
  let w := vWidth t
  let xs := accesses t q (addrIndex sB a s) s
  match vamoCheck w xs [] s with
  | .stop e => e
  | .ok u ts => .ok (vamoPost op w (getV b s) ts u)

/-- The integer or the floating-point form of an operation (13 R296). -/
def vamoOp (t : VTy) (i f : AmoOp) : AmoOp := if (vFmt t).isSome then f else i

/-- The registers of VAMO (13 R296). -/
def useVamo (sB : Reg) (a b : VReg) : Use :=
  { len := 4, a := some (.v a), b := some (.v b), more := [.s sB], w := none }

/-- VAMO.add (13 R296). -/
def execVamoAdd (t : VTy) (q : QReg) (sB : Reg) (a b : VReg) (s : State) : Host.Outcome State Fault Refusal :=
  .next (execUse (useVamo sB a b) s (vamoEff (vamoOp t .add .fadd) t q sB a b))

/-- VAMO.min (13 R296). -/
def execVamoMin (t : VTy) (q : QReg) (sB : Reg) (a b : VReg) (s : State) : Host.Outcome State Fault Refusal :=
  .next (execUse (useVamo sB a b) s (vamoEff (vamoOp t .min .fmin) t q sB a b))

/-- VAMO.max (13 R296). -/
def execVamoMax (t : VTy) (q : QReg) (sB : Reg) (a b : VReg) (s : State) : Host.Outcome State Fault Refusal :=
  .next (execUse (useVamo sB a b) s (vamoEff (vamoOp t .max .fmax) t q sB a b))

/-- VAMO.minu (13 R296). -/
def execVamoMinu (t : VTy) (q : QReg) (sB : Reg) (a b : VReg) (s : State) : Host.Outcome State Fault Refusal :=
  .next (execUse (useVamo sB a b) s (vamoEff .minu t q sB a b))

/-- VAMO.maxu (13 R296). -/
def execVamoMaxu (t : VTy) (q : QReg) (sB : Reg) (a b : VReg) (s : State) : Host.Outcome State Fault Refusal :=
  .next (execUse (useVamo sB a b) s (vamoEff .maxu t q sB a b))

/-- VAMO.and (13 R296). -/
def execVamoAnd (t : VTy) (q : QReg) (sB : Reg) (a b : VReg) (s : State) : Host.Outcome State Fault Refusal :=
  .next (execUse (useVamo sB a b) s (vamoEff .and t q sB a b))

/-- VAMO.or (13 R296). -/
def execVamoOr (t : VTy) (q : QReg) (sB : Reg) (a b : VReg) (s : State) : Host.Outcome State Fault Refusal :=
  .next (execUse (useVamo sB a b) s (vamoEff .or t q sB a b))

/-- VAMO.xor (13 R296). -/
def execVamoXor (t : VTy) (q : QReg) (sB : Reg) (a b : VReg) (s : State) : Host.Outcome State Fault Refusal :=
  .next (execUse (useVamo sB a b) s (vamoEff .xor t q sB a b))

end Sys2Proof.Machine
end

