-- ==== Sys2Proof/Machine/Dispatch.lean ====
section
/-! DEFINITION. One arm per constructor of Instr: a direct call of its meaning, or a rejection by name. -/
namespace Sys2Proof.Machine

/-- The effect of one instruction or step. -/
def exec (i : Instr) (s : State) : Host.Outcome State Fault Refusal :=
  match i with
  | .add d a b => Sys2Proof.Machine.execAdd d a b s
  | .sub d a b => Sys2Proof.Machine.execSub d a b s
  | .mul d a b => Sys2Proof.Machine.execMul d a b s
  | .mulh d a b => Sys2Proof.Machine.execMulh d a b s
  | .mulhu d a b => Sys2Proof.Machine.execMulhu d a b s
  | .div d a b => Sys2Proof.Machine.execDiv d a b s
  | .divu d a b => Sys2Proof.Machine.execDivu d a b s
  | .rem d a b => Sys2Proof.Machine.execRem d a b s
  | .remu d a b => Sys2Proof.Machine.execRemu d a b s
  | .and d a b => Sys2Proof.Machine.execAnd d a b s
  | .or d a b => Sys2Proof.Machine.execOr d a b s
  | .xor d a b => Sys2Proof.Machine.execXor d a b s
  | .shl d a b => Sys2Proof.Machine.execShl d a b s
  | .shr d a b => Sys2Proof.Machine.execShr d a b s
  | .sra d a b => Sys2Proof.Machine.execSra d a b s
  | .rotl d a b => Sys2Proof.Machine.execRotl d a b s
  | .min d a b => Sys2Proof.Machine.execMin d a b s
  | .max d a b => Sys2Proof.Machine.execMax d a b s
  | .minu d a b => Sys2Proof.Machine.execMinu d a b s
  | .maxu d a b => Sys2Proof.Machine.execMaxu d a b s
  | .slt d a b => Sys2Proof.Machine.execSlt d a b s
  | .sltu d a b => Sys2Proof.Machine.execSltu d a b s
  | .clz d a => Sys2Proof.Machine.execClz d a s
  | .ctz d a => Sys2Proof.Machine.execCtz d a s
  | .popc d a => Sys2Proof.Machine.execPopc d a s
  | .lea1 d a b => Sys2Proof.Machine.execLea1 d a b s
  | .lea2 d a b => Sys2Proof.Machine.execLea2 d a b s
  | .lea4 d a b => Sys2Proof.Machine.execLea4 d a b s
  | .lea8 d a b => Sys2Proof.Machine.execLea8 d a b s
  | .addi d a imm => Sys2Proof.Machine.execAddi d a imm s
  | .andi d a imm => Sys2Proof.Machine.execAndi d a imm s
  | .ori d a imm => Sys2Proof.Machine.execOri d a imm s
  | .xori d a imm => Sys2Proof.Machine.execXori d a imm s
  | .slti d a imm => Sys2Proof.Machine.execSlti d a imm s
  | .shli d a n => Sys2Proof.Machine.execShli d a n s
  | .shri d a n => Sys2Proof.Machine.execShri d a n s
  | .srai d a n => Sys2Proof.Machine.execSrai d a n s
  | .exts d a w p => Sys2Proof.Machine.execExts d a w p s
  | .extz d a w p => Sys2Proof.Machine.execExtz d a w p s
  | .ins d a w p => Sys2Proof.Machine.execIns d a w p s
  | .sel d c a b => Sys2Proof.Machine.execSel d c a b s
  | .ldhi d imm => Sys2Proof.Machine.execLdhi d imm s
  | .addK d a k => Sys2Proof.Machine.execAddK d a k s
  | .subK d a k => Sys2Proof.Machine.execSubK d a k s
  | .mulK d a k => Sys2Proof.Machine.execMulK d a k s
  | .andK d a k => Sys2Proof.Machine.execAndK d a k s
  | .orK d a k => Sys2Proof.Machine.execOrK d a k s
  | .xorK d a k => Sys2Proof.Machine.execXorK d a k s
  | .minK d a k => Sys2Proof.Machine.execMinK d a k s
  | .maxK d a k => Sys2Proof.Machine.execMaxK d a k s
  | .fadd z r d a b => Sys2Proof.Machine.execFadd z r d a b s
  | .fsub z r d a b => Sys2Proof.Machine.execFsub z r d a b s
  | .fmul z r d a b => Sys2Proof.Machine.execFmul z r d a b s
  | .fdiv z r d a b => Sys2Proof.Machine.execFdiv z r d a b s
  | .fsqrt z r d a => Sys2Proof.Machine.execFsqrt z r d a s
  | .fmin z d a b => Sys2Proof.Machine.execFmin z d a b s
  | .fmax z d a b => Sys2Proof.Machine.execFmax z d a b s
  | .fabs z d a => Sys2Proof.Machine.execFabs z d a s
  | .fneg z d a => Sys2Proof.Machine.execFneg z d a s
  | .fclass z d a => Sys2Proof.Machine.execFclass z d a s
  | .fcmpEq z d a b => Sys2Proof.Machine.execFcmpEq z d a b s
  | .fcmpLt z d a b => Sys2Proof.Machine.execFcmpLt z d a b s
  | .fcmpLe z d a b => Sys2Proof.Machine.execFcmpLe z d a b s
  | .fcmpUn z d a b => Sys2Proof.Machine.execFcmpUn z d a b s
  | .ffma z r d a b => Sys2Proof.Machine.execFfma z r d a b s
  | .fcvtSD r d a => Sys2Proof.Machine.execFcvtSD r d a s
  | .fcvtDS r d a => Sys2Proof.Machine.execFcvtDS r d a s
  | .fcvtSH r d a => Sys2Proof.Machine.execFcvtSH r d a s
  | .fcvtHS r d a => Sys2Proof.Machine.execFcvtHS r d a s
  | .fcvtSBf r d a => Sys2Proof.Machine.execFcvtSBf r d a s
  | .fcvtBfS r d a => Sys2Proof.Machine.execFcvtBfS r d a s
  | .fcvtSW r d a => Sys2Proof.Machine.execFcvtSW r d a s
  | .fcvtSWu r d a => Sys2Proof.Machine.execFcvtSWu r d a s
  | .fcvtSL r d a => Sys2Proof.Machine.execFcvtSL r d a s
  | .fcvtSLu r d a => Sys2Proof.Machine.execFcvtSLu r d a s
  | .fcvtDW r d a => Sys2Proof.Machine.execFcvtDW r d a s
  | .fcvtDWu r d a => Sys2Proof.Machine.execFcvtDWu r d a s
  | .fcvtDL r d a => Sys2Proof.Machine.execFcvtDL r d a s
  | .fcvtDLu r d a => Sys2Proof.Machine.execFcvtDLu r d a s
  | .fcvtWS r d a => Sys2Proof.Machine.execFcvtWS r d a s
  | .fcvtWuS r d a => Sys2Proof.Machine.execFcvtWuS r d a s
  | .fcvtLS r d a => Sys2Proof.Machine.execFcvtLS r d a s
  | .fcvtLuS r d a => Sys2Proof.Machine.execFcvtLuS r d a s
  | .fcvtWD r d a => Sys2Proof.Machine.execFcvtWD r d a s
  | .fcvtWuD r d a => Sys2Proof.Machine.execFcvtWuD r d a s
  | .fcvtLD r d a => Sys2Proof.Machine.execFcvtLD r d a s
  | .fcvtLuD r d a => Sys2Proof.Machine.execFcvtLuD r d a s
  | .fliS d imm => Sys2Proof.Machine.execFliS d imm s
  | .fliD d imm => Sys2Proof.Machine.execFliD d imm s
  | .faddK z d a k => Sys2Proof.Machine.execFaddK z d a k s
  | .fsubK z d a k => Sys2Proof.Machine.execFsubK z d a k s
  | .fmulK z d a k => Sys2Proof.Machine.execFmulK z d a k s
  | .ffmaK z d a k => Sys2Proof.Machine.execFfmaK z d a k s
  | .beq a b off => Sys2Proof.Machine.execBeq a b off s
  | .bne a b off => Sys2Proof.Machine.execBne a b off s
  | .blt a b off => Sys2Proof.Machine.execBlt a b off s
  | .bge a b off => Sys2Proof.Machine.execBge a b off s
  | .bltu a b off => Sys2Proof.Machine.execBltu a b off s
  | .bgeu a b off => Sys2Proof.Machine.execBgeu a b off s
  | .jal d off => Sys2Proof.Machine.execJal d off s
  | .jalr d a imm => Sys2Proof.Machine.execJalr d a imm s
  | .fjmp d a imm => Sys2Proof.Machine.execFjmp d a imm s
  | .ld z d base off => Sys2Proof.Machine.execLd z d base off s
  | .st z d base off => Sys2Proof.Machine.execSt z d base off s
  | .ldv o p d a c => Sys2Proof.Machine.execLdv o p d a c s
  | .stv o p d a c => Sys2Proof.Machine.execStv o p d a c s
  | .recl o p a c => Sys2Proof.Machine.execRecl o p a c s
  | .prefL1 base off => Sys2Proof.Machine.execPrefL1 base off s
  | .prefL2 base off => Sys2Proof.Machine.execPrefL2 base off s
  | .clean base off => Sys2Proof.Machine.execClean base off s
  | .inval base off => Sys2Proof.Machine.execInval base off s
  | .cfetch a imm => Sys2Proof.Machine.execCfetch a imm s
  | .amoaddAuto o ret p d a c => Sys2Proof.Machine.execAmoaddAuto o ret p d a c s
  | .amominAuto o ret p d a c => Sys2Proof.Machine.execAmominAuto o ret p d a c s
  | .amomaxAuto o ret p d a c => Sys2Proof.Machine.execAmomaxAuto o ret p d a c s
  | .amominuAuto o ret p d a c => Sys2Proof.Machine.execAmominuAuto o ret p d a c s
  | .amomaxuAuto o ret p d a c => Sys2Proof.Machine.execAmomaxuAuto o ret p d a c s
  | .amofaddSAuto o ret p d a c => Sys2Proof.Machine.execAmofaddSAuto o ret p d a c s
  | .amofaddDAuto o ret p d a c => Sys2Proof.Machine.execAmofaddDAuto o ret p d a c s
  | .amoaddLoc o ret p d a c => Sys2Proof.Machine.execAmoaddLoc o ret p d a c s
  | .amominLoc o ret p d a c => Sys2Proof.Machine.execAmominLoc o ret p d a c s
  | .amomaxLoc o ret p d a c => Sys2Proof.Machine.execAmomaxLoc o ret p d a c s
  | .amominuLoc o ret p d a c => Sys2Proof.Machine.execAmominuLoc o ret p d a c s
  | .amomaxuLoc o ret p d a c => Sys2Proof.Machine.execAmomaxuLoc o ret p d a c s
  | .amofaddSLoc o ret p d a c => Sys2Proof.Machine.execAmofaddSLoc o ret p d a c s
  | .amofaddDLoc o ret p d a c => Sys2Proof.Machine.execAmofaddDLoc o ret p d a c s
  | .amoaddHome o ret p d a c => Sys2Proof.Machine.execAmoaddHome o ret p d a c s
  | .amominHome o ret p d a c => Sys2Proof.Machine.execAmominHome o ret p d a c s
  | .amomaxHome o ret p d a c => Sys2Proof.Machine.execAmomaxHome o ret p d a c s
  | .amominuHome o ret p d a c => Sys2Proof.Machine.execAmominuHome o ret p d a c s
  | .amomaxuHome o ret p d a c => Sys2Proof.Machine.execAmomaxuHome o ret p d a c s
  | .amofaddSHome o ret p d a c => Sys2Proof.Machine.execAmofaddSHome o ret p d a c s
  | .amofaddDHome o ret p d a c => Sys2Proof.Machine.execAmofaddDHome o ret p d a c s
  | .amoandAuto o ret p d a c => Sys2Proof.Machine.execAmoandAuto o ret p d a c s
  | .amoorAuto o ret p d a c => Sys2Proof.Machine.execAmoorAuto o ret p d a c s
  | .amoxorAuto o ret p d a c => Sys2Proof.Machine.execAmoxorAuto o ret p d a c s
  | .amoswapAuto o ret p d a c => Sys2Proof.Machine.execAmoswapAuto o ret p d a c s
  | .amocasAuto o ret p d a c => Sys2Proof.Machine.execAmocasAuto o ret p d a c s
  | .amoandLoc o ret p d a c => Sys2Proof.Machine.execAmoandLoc o ret p d a c s
  | .amoorLoc o ret p d a c => Sys2Proof.Machine.execAmoorLoc o ret p d a c s
  | .amoxorLoc o ret p d a c => Sys2Proof.Machine.execAmoxorLoc o ret p d a c s
  | .amoswapLoc o ret p d a c => Sys2Proof.Machine.execAmoswapLoc o ret p d a c s
  | .amocasLoc o ret p d a c => Sys2Proof.Machine.execAmocasLoc o ret p d a c s
  | .amoandHome o ret p d a c => Sys2Proof.Machine.execAmoandHome o ret p d a c s
  | .amoorHome o ret p d a c => Sys2Proof.Machine.execAmoorHome o ret p d a c s
  | .amoxorHome o ret p d a c => Sys2Proof.Machine.execAmoxorHome o ret p d a c s
  | .amoswapHome o ret p d a c => Sys2Proof.Machine.execAmoswapHome o ret p d a c s
  | .amocasHome o ret p d a c => Sys2Proof.Machine.execAmocasHome o ret p d a c s
  | .vamoAdd t q sB a b => Sys2Proof.Machine.execVamoAdd t q sB a b s
  | .vamoMin t q sB a b => Sys2Proof.Machine.execVamoMin t q sB a b s
  | .vamoMax t q sB a b => Sys2Proof.Machine.execVamoMax t q sB a b s
  | .vamoMinu t q sB a b => Sys2Proof.Machine.execVamoMinu t q sB a b s
  | .vamoMaxu t q sB a b => Sys2Proof.Machine.execVamoMaxu t q sB a b s
  | .vamoAnd t q sB a b => Sys2Proof.Machine.execVamoAnd t q sB a b s
  | .vamoOr t q sB a b => Sys2Proof.Machine.execVamoOr t q sB a b s
  | .vamoXor t q sB a b => Sys2Proof.Machine.execVamoXor t q sB a b s
  | .fence o p => Sys2Proof.Machine.execFence o p s
  | .palset o d a e => Sys2Proof.Machine.execPalset o d a e s
  | .palget o d a e => Sys2Proof.Machine.execPalget o d a e s
  | .palinv o e => Sys2Proof.Machine.execPalinv o e s
  | .waita o p d a c => Sys2Proof.Machine.execWaita o p d a c s
  | .wake o p d a c => Sys2Proof.Machine.execWake o p d a c s
  | .barl o p a => Sys2Proof.Machine.execBarl o p a s
  | .evwait d base off => Sys2Proof.Machine.execEvwait d base off s
  | .evsig base off => Sys2Proof.Machine.execEvsig base off s
  | .cpost d a stage => Sys2Proof.Machine.execCpost d a stage s
  | .taskend => Sys2Proof.Machine.execTaskend s
  | .yield => Sys2Proof.Machine.execYield s
  | .send a b => Sys2Proof.Machine.execSend a b s
  | .ibxpop d a => Sys2Proof.Machine.execIbxpop d a s
  | .ibxpeek d a => Sys2Proof.Machine.execIbxpeek d a s
  | .ibxwait d => Sys2Proof.Machine.execIbxwait d s
  | .enq a => Sys2Proof.Machine.execEnq a s
  | .enqv a => Sys2Proof.Machine.execEnqv a s
  | .trgadd n a => Sys2Proof.Machine.execTrgadd n a s
  | .trgset f n d a => Sys2Proof.Machine.execTrgset f n d a s
  | .trgwait n a => Sys2Proof.Machine.execTrgwait n a s
  | .trgget n d => Sys2Proof.Machine.execTrgget n d s
  | .vadd t q d a b => Sys2Proof.Machine.execVadd t q d a b s
  | .vsub t q d a b => Sys2Proof.Machine.execVsub t q d a b s
  | .vmul t q d a b => Sys2Proof.Machine.execVmul t q d a b s
  | .vmulh t q d a b => Sys2Proof.Machine.execVmulh t q d a b s
  | .vdiv t q d a b => Sys2Proof.Machine.execVdiv t q d a b s
  | .vmin t q d a b => Sys2Proof.Machine.execVmin t q d a b s
  | .vmax t q d a b => Sys2Proof.Machine.execVmax t q d a b s
  | .vabs t q d a => Sys2Proof.Machine.execVabs t q d a s
  | .vand t q d a b => Sys2Proof.Machine.execVand t q d a b s
  | .vor t q d a b => Sys2Proof.Machine.execVor t q d a b s
  | .vxor t q d a b => Sys2Proof.Machine.execVxor t q d a b s
  | .vshl t q d a b => Sys2Proof.Machine.execVshl t q d a b s
  | .vshr t q d a b => Sys2Proof.Machine.execVshr t q d a b s
  | .vsra t q d a b => Sys2Proof.Machine.execVsra t q d a b s
  | .vaddSs t q d a b => Sys2Proof.Machine.execVaddSs t q d a b s
  | .vsubSs t q d a b => Sys2Proof.Machine.execVsubSs t q d a b s
  | .vaddUs t q d a b => Sys2Proof.Machine.execVaddUs t q d a b s
  | .vsubUs t q d a b => Sys2Proof.Machine.execVsubUs t q d a b s
  | .vmulhU t q d a b => Sys2Proof.Machine.execVmulhU t q d a b s
  | .vminU t q d a b => Sys2Proof.Machine.execVminU t q d a b s
  | .vmaxU t q d a b => Sys2Proof.Machine.execVmaxU t q d a b s
  | .vdivU t q d a b => Sys2Proof.Machine.execVdivU t q d a b s
  | .vfma t q d a b => Sys2Proof.Machine.execVfma t q d a b s
  | .vfms t q d a b => Sys2Proof.Machine.execVfms t q d a b s
  | .vmulL t q d a l => Sys2Proof.Machine.execVmulL t q d a l s
  | .vfmaL t q d a l => Sys2Proof.Machine.execVfmaL t q d a l s
  | .vmulK t d a k => Sys2Proof.Machine.execVmulK t d a k s
  | .vfmaK t d a k => Sys2Proof.Machine.execVfmaK t d a k s
  | .vcmpEq t q d a b => Sys2Proof.Machine.execVcmpEq t q d a b s
  | .vcmpNe t q d a b => Sys2Proof.Machine.execVcmpNe t q d a b s
  | .vcmpLt t q d a b => Sys2Proof.Machine.execVcmpLt t q d a b s
  | .vcmpLe t q d a b => Sys2Proof.Machine.execVcmpLe t q d a b s
  | .vcmpLtu t q d a b => Sys2Proof.Machine.execVcmpLtu t q d a b s
  | .vcmpLeu t q d a b => Sys2Proof.Machine.execVcmpLeu t q d a b s
  | .vcmpUn t q d a b => Sys2Proof.Machine.execVcmpUn t q d a b s
  | .vsel t q d a b => Sys2Proof.Machine.execVsel t q d a b s
  | .vcvt sat src t q d a => Sys2Proof.Machine.execVcvt sat src t q d a s
  | .vperm t q d a b => Sys2Proof.Machine.execVperm t q d a b s
  | .vslideUp t q d a b => Sys2Proof.Machine.execVslideUp t q d a b s
  | .vslideDn t q d a b => Sys2Proof.Machine.execVslideDn t q d a b s
  | .vbcast t q d a b => Sys2Proof.Machine.execVbcast t q d a b s
  | .vsplat t q d a => Sys2Proof.Machine.execVsplat t q d a s
  | .vext t d a b => Sys2Proof.Machine.execVext t d a b s
  | .vins t d a b => Sys2Proof.Machine.execVins t d a b s
  | .vredAdd t q d a => Sys2Proof.Machine.execVredAdd t q d a s
  | .vredMin t q d a => Sys2Proof.Machine.execVredMin t q d a s
  | .vredMax t q d a => Sys2Proof.Machine.execVredMax t q d a s
  | .vredMinu t q d a => Sys2Proof.Machine.execVredMinu t q d a s
  | .vredMaxu t q d a => Sys2Proof.Machine.execVredMaxu t q d a s
  | .vredAnd t q d a => Sys2Proof.Machine.execVredAnd t q d a s
  | .vredOr t q d a => Sys2Proof.Machine.execVredOr t q d a s
  | .vredXor t q d a => Sys2Proof.Machine.execVredXor t q d a s
  | .vscanAdd t q d a => Sys2Proof.Machine.execVscanAdd t q d a s
  | .vscanAddx t q d a => Sys2Proof.Machine.execVscanAddx t q d a s
  | .vscanMax t q d a => Sys2Proof.Machine.execVscanMax t q d a s
  | .vscanMin t q d a => Sys2Proof.Machine.execVscanMin t q d a s
  | .vdot t q d a b => Sys2Proof.Machine.execVdot t q d a b s
  | .vdotU t q d a b => Sys2Proof.Machine.execVdotU t q d a b s
  | .vclmul h q d a b => Sys2Proof.Machine.execVclmul h q d a b s
  | .vpopc t q d a => Sys2Proof.Machine.execVpopc t q d a s
  | .qand d a b => Sys2Proof.Machine.execQand d a b s
  | .qor d a b => Sys2Proof.Machine.execQor d a b s
  | .qxor d a b => Sys2Proof.Machine.execQxor d a b s
  | .qnot d a => Sys2Proof.Machine.execQnot d a s
  | .vld t q d a b => Sys2Proof.Machine.execVld t q d a b s
  | .vst t q d a b => Sys2Proof.Machine.execVst t q d a b s
  | .vlds t q d a b => Sys2Proof.Machine.execVlds t q d a b s
  | .vsts t q d a b => Sys2Proof.Machine.execVsts t q d a b s
  | .vldx t q d a b => Sys2Proof.Machine.execVldx t q d a b s
  | .vstx t q d a b => Sys2Proof.Machine.execVstx t q d a b s
  | .sbind w v slot d a => Sys2Proof.Machine.execSbind w v slot d a s
  | .sfree slot => Sys2Proof.Machine.execSfree slot s
  | .sstat slot d => Sys2Proof.Machine.execSstat slot d s
  | .sskip slot a => Sys2Proof.Machine.execSskip slot a s
  | .sdrain slot => Sys2Proof.Machine.execSdrain slot s
  | .mma d a b => Sys2Proof.Machine.execMma d a b s
  | .mmas d a b => Sys2Proof.Machine.execMmas d a b s
  | .mgangMma d a b => Sys2Proof.Machine.execMgangMma d a b s
  | .mgangMmas d a b => Sys2Proof.Machine.execMgangMmas d a b s
  | .mrec d a b => Sys2Proof.Machine.execMrec d a b s
  | .mfmt a => Sys2Proof.Machine.execMfmt a s
  | .mzero d => Sys2Proof.Machine.execMzero d s
  | .mldc d a => Sys2Proof.Machine.execMldc d a s
  | .mstc d a => Sys2Proof.Machine.execMstc d a s
  | .muprog a => Sys2Proof.Machine.execMuprog a s
  | .trap imm => Sys2Proof.Machine.execTrap imm s
  | .eret => Sys2Proof.Machine.execEret s
  | .uxret => Sys2Proof.Machine.execUxret s
  | .ifence => Sys2Proof.Machine.execIfence s
  | .halt => Sys2Proof.Machine.execHalt s
  | .rand d => Sys2Proof.Machine.execRand d s
  | .ctlrd c d => Sys2Proof.Machine.execCtlrd c d s
  | .ctlwr c a => Sys2Proof.Machine.execCtlwr c a s
  | .statusWrite a => Sys2Proof.Machine.execStatusWrite a s
  | .lmhwmWrite a => Sys2Proof.Machine.execLmhwmWrite a s
  | .mstatWrite a => Sys2Proof.Machine.execMstatWrite a s
  | .melocRead d => Sys2Proof.Machine.execMelocRead d s
  | .sumstatRead d die => Sys2Proof.Machine.execSumstatRead d die s
  | .eventConfigStore line a => Sys2Proof.Machine.execEventConfigStore line a s
  | .fwctlWrite core x => Sys2Proof.Machine.execFwctlWrite core x s
  | .oportcfgWrite die port x => Sys2Proof.Machine.execOportcfgWrite die port x s
  | .laneRetire die lane => Sys2Proof.Machine.execLaneRetire die lane s
  | .fwRegisterWrite reg x => Sys2Proof.Machine.execFwRegisterWrite reg x s
  | .uxEntry => Sys2Proof.Machine.execUxEntry s
  | .schedulingEvent => Sys2Proof.Machine.execSchedulingEvent s
  | .threadSwitch => Sys2Proof.Machine.execThreadSwitch s
  | .budgetRefresh => Sys2Proof.Machine.execBudgetRefresh s
  | .tmma core cq n => Sys2Proof.Machine.execTmma core cq n s
  | .tmmas core cq n => Sys2Proof.Machine.execTmmas core cq n s
  | .tmrec core cq n => Sys2Proof.Machine.execTmrec core cq n s
  | .copy core cq n => Sys2Proof.Machine.execCopy core cq n s
  | .fill core cq n => Sys2Proof.Machine.execFill core cq n s
  | .gather32 core cq n => Sys2Proof.Machine.execGather32 core cq n s
  | .scatter32 core cq n => Sys2Proof.Machine.execScatter32 core cq n s
  | .merge core cq n => Sys2Proof.Machine.execMerge core cq n s
  | .compact core cq n => Sys2Proof.Machine.execCompact core cq n s
  | .osum core cq n => Sys2Proof.Machine.execOsum core cq n s
  | .osumb core cq n => Sys2Proof.Machine.execOsumb core cq n s
  | .omax core cq n => Sys2Proof.Machine.execOmax core cq n s
  | .obcast core cq n => Sys2Proof.Machine.execObcast core cq n s
  | .olink core cq n => Sys2Proof.Machine.execOlink core cq n s
  | .segmentLanded core seg => Sys2Proof.Machine.execSegmentLanded core seg s
  | .commandCompletion core cq n => Sys2Proof.Machine.execCommandCompletion core cq n s
  | .matrixOperation core => Sys2Proof.Machine.execMatrixOperation core s
  | .doorbell pid q x => Sys2Proof.Machine.execDoorbell pid q x s
  | .queueStateWrite pid q x => Sys2Proof.Machine.execQueueStateWrite pid q x s
  | .packetFetch pid q => Sys2Proof.Machine.execPacketFetch pid q s
  | .launch pid q => Sys2Proof.Machine.execLaunch pid q s
  | .indirect pid q => Sys2Proof.Machine.execIndirect pid q s
  | .loop pid q => Sys2Proof.Machine.execLoop pid q s
  | .predicate pid q => Sys2Proof.Machine.execPredicate pid q s
  | .fetchFence pid q => Sys2Proof.Machine.execFetchFence pid q s
  | .gatePoll pid q => Sys2Proof.Machine.execGatePoll pid q s
  | .timestamp pid q => Sys2Proof.Machine.execTimestamp pid q s
  | .nopPacket pid q => Sys2Proof.Machine.execNopPacket pid q s
  | .launchDispatch pid => Sys2Proof.Machine.execLaunchDispatch pid s
  | .launchStart pid lid => Sys2Proof.Machine.execLaunchStart pid lid s
  | .imageMulticastDone pid lid => Sys2Proof.Machine.execImageMulticastDone pid lid s
  | .launchComplete pid lid => Sys2Proof.Machine.execLaunchComplete pid lid s
  | .budgetOverrun pid lid k => Sys2Proof.Machine.execBudgetOverrun pid lid k s
  | .graceExpiry pid lid k => Sys2Proof.Machine.execGraceExpiry pid lid k s
  | .deadlineMissed pid lid => Sys2Proof.Machine.execDeadlineMissed pid lid s
  | .stageRebalance pid lid => Sys2Proof.Machine.execStageRebalance pid lid s
  | .stageJoin core => Sys2Proof.Machine.execStageJoin core s
  | .recordDispatch core => Sys2Proof.Machine.execRecordDispatch core s
  | .stagedLaunchEnd pid lid => Sys2Proof.Machine.execStagedLaunchEnd pid lid s
  | .messageDelivery n => Sys2Proof.Machine.execMessageDelivery n s
  | .chainMessage n => Sys2Proof.Machine.execChainMessage n s
  | .paletteInvalidate n => Sys2Proof.Machine.execPaletteInvalidate n s
  | .paletteInstall n => Sys2Proof.Machine.execPaletteInstall n s
  | .paletteAck n => Sys2Proof.Machine.execPaletteAck n s
  | .storePerform n => Sys2Proof.Machine.execStorePerform n s
  | .amoPerform n => Sys2Proof.Machine.execAmoPerform n s
  | .streamFetchAhead core tid slot => Sys2Proof.Machine.execStreamFetchAhead core tid slot s
  | .preempt core => Sys2Proof.Machine.execPreempt core s
  | .preemptiblePoint core => Sys2Proof.Machine.execPreemptiblePoint core s
  | .resume pid lid => Sys2Proof.Machine.execResume pid lid s
  | .eviction pid lid outcome => Sys2Proof.Machine.execEviction pid lid outcome s
  | .hostFaultAnswer ticket granted => Sys2Proof.Machine.execHostFaultAnswer ticket granted s
  | .invalidationRequest pid va pages seq => Sys2Proof.Machine.execInvalidationRequest pid va pages seq s
  | .invalidationComplete pid => Sys2Proof.Machine.execInvalidationComplete pid s
  | .partitionCreate p => Sys2Proof.Machine.execPartitionCreate p s
  | .hostAccess h => Sys2Proof.Machine.execHostAccess h s
  | .penumbraPlacement pid lid => Sys2Proof.Machine.execPenumbraPlacement pid lid s
  | .reclaimComplete core => Sys2Proof.Machine.execReclaimComplete core s
  | .penumbraReplacement pid lid rank core => Sys2Proof.Machine.execPenumbraReplacement pid lid rank core s
  | .linkFailure l => Sys2Proof.Machine.execLinkFailure l s
  | .linkReroute l detours => Sys2Proof.Machine.execLinkReroute l detours s
  | .flowDrain f => Sys2Proof.Machine.execFlowDrain f s
  | .linkRestore l => Sys2Proof.Machine.execLinkRestore l s
  | .gweridRetrain => Sys2Proof.Machine.execGweridRetrain s
  | .gweridDown => Sys2Proof.Machine.execGweridDown s
  | .reallocation die => Sys2Proof.Machine.execReallocation die s
  | .laneLockLoss die lane => Sys2Proof.Machine.execLaneLockLoss die lane s
  | .widthConfirmation die port => Sys2Proof.Machine.execWidthConfirmation die port s
  | .burstReceive die port e => Sys2Proof.Machine.execBurstReceive die port e s
  | .fabricRequest die port slots => Sys2Proof.Machine.execFabricRequest die port slots s
  | .fabricGrant die port grants => Sys2Proof.Machine.execFabricGrant die port grants s
  | .segmentFrame die obs => Sys2Proof.Machine.execSegmentFrame die obs s
  | .calibrationFrame die cal => Sys2Proof.Machine.execCalibrationFrame die cal s
  | .straggleExpiry die grp => Sys2Proof.Machine.execStraggleExpiry die grp s
  | .boot failed => Sys2Proof.Machine.execBoot failed s
  | .columnRemap pcol => Sys2Proof.Machine.execColumnRemap pcol s
  | .roleRecovery idx => Sys2Proof.Machine.execRoleRecovery idx s
  | .imageHandover img => Sys2Proof.Machine.execImageHandover img s
  | .handoverAbort => Sys2Proof.Machine.execHandoverAbort s
  | .flashWrite interrupted => Sys2Proof.Machine.execFlashWrite interrupted s
  | .recoveryImage img => Sys2Proof.Machine.execRecoveryImage img s
  | .attestationRequest nonce => Sys2Proof.Machine.execAttestationRequest nonce s
  | .profileChange p => Sys2Proof.Machine.execProfileChange p s
  | .temperatureReport die temp => Sys2Proof.Machine.execTemperatureReport die temp s
  | .restart core tid => Sys2Proof.Machine.execRestart core tid s
  | .illegalEncoding w => Sys2Proof.Machine.execIllegalEncoding w s
  | .badTypePacket pid q => Sys2Proof.Machine.execBadTypePacket pid q s
  | .scrubbing key => Sys2Proof.Machine.execScrubbing key s
  | .matrixSelfTest core => Sys2Proof.Machine.execMatrixSelfTest core s
  | .gweridLinkReturn => Sys2Proof.Machine.execGweridLinkReturn s
  | .hostConfigurationTable table => Sys2Proof.Machine.execHostConfigurationTable table s

end Sys2Proof.Machine
end

