-- ==== Sys2Proof/WellFormed.lean ====
section
/-! DEFINITION. Which terms are instructions of the part: the combinations that an encoding admits (02 R43, R51 to R58), and
the ranges of what a device step names (00 R2; 08 R173; 09 R198; 15 R313; 22 R412, R423, R425). -/
namespace Sys2Proof

/-- A partition id (20 R389). -/
def okPid (pid : Nat) : Bool := decide (pid < 16)
/-- A queue number (09 R198). -/
def okQueue (q : Nat) : Bool := decide (q < 64)
/-- A 32-bit launch id (01 R17). -/
def okLid (lid : Nat) : Bool := decide (lid < 2 ^ 32)
/-- A core: 2,048 logical ones, then every physical place (08 R173). -/
def okCore (core : Nat) : Bool := decide (core < 2048 + 2176)
/-- A command queue: classes 0–3, then the two queues of each bank (15 R313, 20 R397). -/
def okCq (cq : Nat) : Bool := decide (cq < 8)
/-- A thread set, reserve bank or slice context (01 R12). -/
def okTid (tid : Nat) : Bool := decide (tid < 7)
/-- A die (00 R2). -/
def okDie (die : Nat) : Bool := decide (die < 8)
/-- A port of an optical engine (00 R2). -/
def okPort (port : Nat) : Bool := decide (port < 4)
/-- A VCSEL lane of a die (22 R423). -/
def okLane (lane : Nat) : Bool := decide (lane < 72)
/-- A mesh router (22 R412). -/
def okRouter (n : Nat) : Bool := decide (n < 2176)
/-- A mesh link between two routers. -/
def okLink (l : Link) : Bool := okRouter l.src && okRouter l.dst
/-- A flow: two routers and a virtual network (22 R412, R415). -/
def okFlow (f : Flow) : Bool := okRouter f.src && okRouter f.dst && decide (f.vn < 4)
/-- A firmware register (25 R466). -/
def okFwReg (reg : FwReg) : Bool :=
  match reg with
  | .fwctl core => okCore core
  | .lane die n => okDie die && okLane n
  | .oportcfg die port => okDie die && okPort port
  | .oportstat die port => okDie die && okPort port
  | .sumstat die => okDie die
/-- Cores of the tenant mesh in order of logical row, then column (11 R251). -/
def okCores : List Nat → Bool
  | [] => true
  | [c] => decide (c < 2048)
  | c :: d :: cs => decide (c < d) && okCores (d :: cs)
/-- A partition record that names a partition and cores of the tenant mesh (20 R389). -/
def okPart (p : PartRec) : Bool := okPid p.pid && okCores p.cores
/-- A host access through a partition's windows, of at most 8 bytes (22 R419). -/
def okHost (h : HostOp) : Bool :=
  match h with
  | .read pid _ lg => okPid pid && decide (lg < 4)
  | .write pid _ lg _ => okPid pid && decide (lg < 4)
  | .amo pid _ _ lg _ _ => okPid pid && decide (lg < 4)

/-- The term is an instruction word or a step of the part. -/
def Instr.wf (i : Instr) : Bool :=
  match i with
  | .add _ _ _ => true
  | .sub _ _ _ => true
  | .mul _ _ _ => true
  | .mulh _ _ _ => true
  | .mulhu _ _ _ => true
  | .div _ _ _ => true
  | .divu _ _ _ => true
  | .rem _ _ _ => true
  | .remu _ _ _ => true
  | .and _ _ _ => true
  | .or _ _ _ => true
  | .xor _ _ _ => true
  | .shl _ _ _ => true
  | .shr _ _ _ => true
  | .sra _ _ _ => true
  | .rotl _ _ _ => true
  | .min _ _ _ => true
  | .max _ _ _ => true
  | .minu _ _ _ => true
  | .maxu _ _ _ => true
  | .slt _ _ _ => true
  | .sltu _ _ _ => true
  | .clz _ _ => true
  | .ctz _ _ => true
  | .popc _ _ => true
  | .lea1 _ _ _ => true
  | .lea2 _ _ _ => true
  | .lea4 _ _ _ => true
  | .lea8 _ _ _ => true
  | .addi _ _ _ => true
  | .andi _ _ _ => true
  | .ori _ _ _ => true
  | .xori _ _ _ => true
  | .slti _ _ _ => true
  | .shli _ _ _ => true
  | .shri _ _ _ => true
  | .srai _ _ _ => true
  | .exts _ _ w p => decide (w.toNat + 1 + p.toNat ≤ 64)
  | .extz _ _ w p => decide (w.toNat + 1 + p.toNat ≤ 64)
  | .ins _ _ w p => decide (w.toNat + 1 + p.toNat ≤ 64)
  | .sel _ _ _ _ => true
  | .ldhi _ _ => true
  | .addK _ _ _ => true
  | .subK _ _ _ => true
  | .mulK _ _ _ => true
  | .andK _ _ _ => true
  | .orK _ _ _ => true
  | .xorK _ _ _ => true
  | .minK _ _ _ => true
  | .maxK _ _ _ => true
  | .fadd _ _ _ _ _ => true
  | .fsub _ _ _ _ _ => true
  | .fmul _ _ _ _ _ => true
  | .fdiv _ _ _ _ _ => true
  | .fsqrt _ _ _ _ => true
  | .fmin _ _ _ _ => true
  | .fmax _ _ _ _ => true
  | .fabs _ _ _ => true
  | .fneg _ _ _ => true
  | .fclass _ _ _ => true
  | .fcmpEq _ _ _ _ => true
  | .fcmpLt _ _ _ _ => true
  | .fcmpLe _ _ _ _ => true
  | .fcmpUn _ _ _ _ => true
  | .ffma _ _ _ _ _ => true
  | .fcvtSD _ _ _ => true
  | .fcvtDS _ _ _ => true
  | .fcvtSH _ _ _ => true
  | .fcvtHS _ _ _ => true
  | .fcvtSBf _ _ _ => true
  | .fcvtBfS _ _ _ => true
  | .fcvtSW _ _ _ => true
  | .fcvtSWu _ _ _ => true
  | .fcvtSL _ _ _ => true
  | .fcvtSLu _ _ _ => true
  | .fcvtDW _ _ _ => true
  | .fcvtDWu _ _ _ => true
  | .fcvtDL _ _ _ => true
  | .fcvtDLu _ _ _ => true
  | .fcvtWS _ _ _ => true
  | .fcvtWuS _ _ _ => true
  | .fcvtLS _ _ _ => true
  | .fcvtLuS _ _ _ => true
  | .fcvtWD _ _ _ => true
  | .fcvtWuD _ _ _ => true
  | .fcvtLD _ _ _ => true
  | .fcvtLuD _ _ _ => true
  | .fliS _ _ => true
  | .fliD _ _ => true
  | .faddK _ _ _ _ => true
  | .fsubK _ _ _ _ => true
  | .fmulK _ _ _ _ => true
  | .ffmaK _ _ _ _ => true
  | .beq _ _ _ => true
  | .bne _ _ _ => true
  | .blt _ _ _ => true
  | .bge _ _ _ => true
  | .bltu _ _ _ => true
  | .bgeu _ _ _ => true
  | .jal _ _ => true
  | .jalr _ _ _ => true
  | .fjmp _ _ _ => true
  | .ld _ _ _ _ => true
  | .st _ _ _ _ => true
  | .ldv o _ _ _ _ => o.isAcqSide
  | .stv o _ _ _ _ => o.isRelSide
  | .recl o _ _ _ => o.isRelSide
  | .prefL1 _ _ => true
  | .prefL2 _ _ => true
  | .clean _ _ => true
  | .inval _ _ => true
  | .cfetch _ _ => true
  | .amoaddAuto _ ret _ d _ _ => (ret || d == 0)
  | .amominAuto _ ret _ d _ _ => (ret || d == 0)
  | .amomaxAuto _ ret _ d _ _ => (ret || d == 0)
  | .amominuAuto _ ret _ d _ _ => (ret || d == 0)
  | .amomaxuAuto _ ret _ d _ _ => (ret || d == 0)
  | .amofaddSAuto _ ret _ d _ _ => (ret || d == 0)
  | .amofaddDAuto _ ret _ d _ _ => (ret || d == 0)
  | .amoaddLoc _ ret _ d _ _ => (ret || d == 0)
  | .amominLoc _ ret _ d _ _ => (ret || d == 0)
  | .amomaxLoc _ ret _ d _ _ => (ret || d == 0)
  | .amominuLoc _ ret _ d _ _ => (ret || d == 0)
  | .amomaxuLoc _ ret _ d _ _ => (ret || d == 0)
  | .amofaddSLoc _ ret _ d _ _ => (ret || d == 0)
  | .amofaddDLoc _ ret _ d _ _ => (ret || d == 0)
  | .amoaddHome _ ret _ d _ _ => (ret || d == 0)
  | .amominHome _ ret _ d _ _ => (ret || d == 0)
  | .amomaxHome _ ret _ d _ _ => (ret || d == 0)
  | .amominuHome _ ret _ d _ _ => (ret || d == 0)
  | .amomaxuHome _ ret _ d _ _ => (ret || d == 0)
  | .amofaddSHome _ ret _ d _ _ => (ret || d == 0)
  | .amofaddDHome _ ret _ d _ _ => (ret || d == 0)
  | .amoandAuto _ ret _ d _ _ => (ret || d == 0)
  | .amoorAuto _ ret _ d _ _ => (ret || d == 0)
  | .amoxorAuto _ ret _ d _ _ => (ret || d == 0)
  | .amoswapAuto _ ret _ d _ _ => (ret || d == 0)
  | .amocasAuto _ _ _ _ _ _ => true
  | .amoandLoc _ ret _ d _ _ => (ret || d == 0)
  | .amoorLoc _ ret _ d _ _ => (ret || d == 0)
  | .amoxorLoc _ ret _ d _ _ => (ret || d == 0)
  | .amoswapLoc _ ret _ d _ _ => (ret || d == 0)
  | .amocasLoc _ _ _ _ _ _ => true
  | .amoandHome _ ret _ d _ _ => (ret || d == 0)
  | .amoorHome _ ret _ d _ _ => (ret || d == 0)
  | .amoxorHome _ ret _ d _ _ => (ret || d == 0)
  | .amoswapHome _ ret _ d _ _ => (ret || d == 0)
  | .amocasHome _ _ _ _ _ _ => true
  | .vamoAdd t _ _ _ _ => t.isWide
  | .vamoMin t _ _ _ _ => t.isWide
  | .vamoMax t _ _ _ _ => t.isWide
  | .vamoMinu t _ _ _ _ => (t.isWide && t.isInt)
  | .vamoMaxu t _ _ _ _ => (t.isWide && t.isInt)
  | .vamoAnd t _ _ _ _ => (t.isWide && t.isInt)
  | .vamoOr t _ _ _ _ => (t.isWide && t.isInt)
  | .vamoXor t _ _ _ _ => (t.isWide && t.isInt)
  | .fence o _ => o.isFence
  | .palset o _ _ _ => o.isPal
  | .palget o _ _ _ => o.isAcqSide
  | .palinv o _ => o.isPal
  | .waita o _ _ _ _ => o.isAcqSide
  | .wake o _ _ _ _ => o.isRelSide
  | .barl o _ _ => o.isBarl
  | .evwait _ _ _ => true
  | .evsig _ _ => true
  | .cpost _ _ _ => true
  | .taskend => true
  | .yield => true
  | .send _ _ => true
  | .ibxpop _ _ => true
  | .ibxpeek _ _ => true
  | .ibxwait _ => true
  | .enq _ => true
  | .enqv _ => true
  | .trgadd _ _ => true
  | .trgset _ _ _ _ => true
  | .trgwait _ _ => true
  | .trgget _ _ => true
  | .vadd _ _ _ _ _ => true
  | .vsub _ _ _ _ _ => true
  | .vmul _ _ _ _ _ => true
  | .vmulh t _ _ _ _ => t.isInt
  | .vdiv _ _ _ _ _ => true
  | .vmin _ _ _ _ _ => true
  | .vmax _ _ _ _ _ => true
  | .vabs _ _ _ _ => true
  | .vand _ _ _ _ _ => true
  | .vor _ _ _ _ _ => true
  | .vxor _ _ _ _ _ => true
  | .vshl t _ _ _ _ => t.isInt
  | .vshr t _ _ _ _ => t.isInt
  | .vsra t _ _ _ _ => t.isInt
  | .vaddSs t _ _ _ _ => t.isInt
  | .vsubSs t _ _ _ _ => t.isInt
  | .vaddUs t _ _ _ _ => t.isInt
  | .vsubUs t _ _ _ _ => t.isInt
  | .vmulhU t _ _ _ _ => t.isInt
  | .vminU t _ _ _ _ => t.isInt
  | .vmaxU t _ _ _ _ => t.isInt
  | .vdivU t _ _ _ _ => t.isInt
  | .vfma _ _ _ _ _ => true
  | .vfms _ _ _ _ _ => true
  | .vmulL _ _ _ _ _ => true
  | .vfmaL _ _ _ _ _ => true
  | .vmulK _ _ _ _ => true
  | .vfmaK _ _ _ _ => true
  | .vcmpEq _ _ _ _ _ => true
  | .vcmpNe _ _ _ _ _ => true
  | .vcmpLt _ _ _ _ _ => true
  | .vcmpLe _ _ _ _ _ => true
  | .vcmpLtu t _ _ _ _ => t.isInt
  | .vcmpLeu t _ _ _ _ => t.isInt
  | .vcmpUn t _ _ _ _ => !t.isInt
  | .vsel _ _ _ _ _ => true
  | .vcvt sat src t _ _ _ => (src != t && (!sat || t.isInt))
  | .vperm _ _ _ _ _ => true
  | .vslideUp _ _ _ _ _ => true
  | .vslideDn _ _ _ _ _ => true
  | .vbcast _ _ _ _ _ => true
  | .vsplat _ _ _ _ => true
  | .vext _ _ _ _ => true
  | .vins _ _ _ _ => true
  | .vredAdd _ _ _ _ => true
  | .vredMin _ _ _ _ => true
  | .vredMax _ _ _ _ => true
  | .vredMinu t _ _ _ => t.isInt
  | .vredMaxu t _ _ _ => t.isInt
  | .vredAnd t _ _ _ => t.isInt
  | .vredOr t _ _ _ => t.isInt
  | .vredXor t _ _ _ => t.isInt
  | .vscanAdd _ _ _ _ => true
  | .vscanAddx _ _ _ _ => true
  | .vscanMax _ _ _ _ => true
  | .vscanMin _ _ _ _ => true
  | .vdot t _ _ _ _ => t.isDot
  | .vdotU t _ _ _ _ => t.isDotU
  | .vclmul _ _ _ _ _ => true
  | .vpopc t _ _ _ => t.isInt
  | .qand _ _ _ => true
  | .qor _ _ _ => true
  | .qxor _ _ _ => true
  | .qnot _ _ => true
  | .vld _ _ _ _ _ => true
  | .vst _ _ _ _ _ => true
  | .vlds _ _ _ _ _ => true
  | .vsts _ _ _ _ _ => true
  | .vldx t _ _ _ _ => t.isWide
  | .vstx t _ _ _ _ => t.isWide
  | .sbind _ _ _ _ _ => true
  | .sfree _ => true
  | .sstat _ _ => true
  | .sskip _ _ => true
  | .sdrain _ => true
  | .mma _ _ _ => true
  | .mmas _ _ _ => true
  | .mgangMma _ _ _ => true
  | .mgangMmas _ _ _ => true
  | .mrec _ _ _ => true
  | .mfmt _ => true
  | .mzero _ => true
  | .mldc _ _ => true
  | .mstc _ _ => true
  | .muprog _ => true
  | .trap _ => true
  | .eret => true
  | .uxret => true
  | .ifence => true
  | .halt => true
  | .rand _ => true
  | .ctlrd _ _ => true
  | .ctlwr _ _ => true
  | .statusWrite _ => true
  | .lmhwmWrite _ => true
  | .mstatWrite _ => true
  | .melocRead _ => true
  | .sumstatRead _ die => okDie die
  | .eventConfigStore _ _ => true
  | .fwctlWrite core _ => okCore core
  | .oportcfgWrite die port _ => okDie die && okPort port
  | .laneRetire die lane => okDie die && okLane lane
  | .fwRegisterWrite reg _ => okFwReg reg
  | .uxEntry => true
  | .schedulingEvent => true
  | .threadSwitch => true
  | .budgetRefresh => true
  | .tmma core cq _ => okCore core && okCq cq
  | .tmmas core cq _ => okCore core && okCq cq
  | .tmrec core cq _ => okCore core && okCq cq
  | .copy core cq _ => okCore core && okCq cq
  | .fill core cq _ => okCore core && okCq cq
  | .gather32 core cq _ => okCore core && okCq cq
  | .scatter32 core cq _ => okCore core && okCq cq
  | .merge core cq _ => okCore core && okCq cq
  | .compact core cq _ => okCore core && okCq cq
  | .osum core cq _ => okCore core && okCq cq
  | .osumb core cq _ => okCore core && okCq cq
  | .omax core cq _ => okCore core && okCq cq
  | .obcast core cq _ => okCore core && okCq cq
  | .olink core cq _ => okCore core && okCq cq
  | .segmentLanded core _ => okCore core
  | .commandCompletion core cq _ => okCore core && okCq cq
  | .matrixOperation core => okCore core
  | .doorbell pid q _ => okPid pid && okQueue q
  | .queueStateWrite pid q _ => okPid pid && okQueue q
  | .packetFetch pid q => okPid pid && okQueue q
  | .launch pid q => okPid pid && okQueue q
  | .indirect pid q => okPid pid && okQueue q
  | .loop pid q => okPid pid && okQueue q
  | .predicate pid q => okPid pid && okQueue q
  | .fetchFence pid q => okPid pid && okQueue q
  | .gatePoll pid q => okPid pid && okQueue q
  | .timestamp pid q => okPid pid && okQueue q
  | .nopPacket pid q => okPid pid && okQueue q
  | .launchDispatch pid => okPid pid
  | .launchStart pid lid => okPid pid && okLid lid
  | .imageMulticastDone pid lid => okPid pid && okLid lid
  | .launchComplete pid lid => okPid pid && okLid lid
  | .budgetOverrun pid lid _ => okPid pid && okLid lid
  | .graceExpiry pid lid _ => okPid pid && okLid lid
  | .deadlineMissed pid lid => okPid pid && okLid lid
  | .stageRebalance pid lid => okPid pid && okLid lid
  | .stageJoin core => okCore core
  | .recordDispatch core => okCore core
  | .stagedLaunchEnd pid lid => okPid pid && okLid lid
  | .messageDelivery _ => true
  | .chainMessage _ => true
  | .paletteInvalidate _ => true
  | .paletteInstall _ => true
  | .paletteAck _ => true
  | .storePerform _ => true
  | .amoPerform _ => true
  | .streamFetchAhead core tid _ => okCore core && okTid tid
  | .preempt core => okCore core
  | .preemptiblePoint core => okCore core
  | .resume pid lid => okPid pid && okLid lid
  | .eviction pid lid outcome => okPid pid && okLid lid && decide (outcome < 5)
  | .hostFaultAnswer _ _ => true
  | .invalidationRequest pid _ _ _ => okPid pid
  | .invalidationComplete pid => okPid pid
  | .partitionCreate p => okPart p
  | .hostAccess h => okHost h
  | .penumbraPlacement pid lid => okPid pid && okLid lid
  | .reclaimComplete core => okCore core
  | .penumbraReplacement pid lid _ core => okPid pid && okLid lid && okCore core
  | .linkFailure l => okLink l
  | .linkReroute l _ => okLink l
  | .flowDrain f => okFlow f
  | .linkRestore l => okLink l
  | .gweridRetrain => true
  | .gweridDown => true
  | .reallocation die => okDie die
  | .laneLockLoss die lane => okDie die && okLane lane
  | .widthConfirmation die port => okDie die && okPort port
  | .burstReceive die port _ => okDie die && okPort port
  | .fabricRequest die port _ => okDie die && okPort port
  | .fabricGrant die port _ => okDie die && okPort port
  | .segmentFrame die _ => okDie die
  | .calibrationFrame die _ => okDie die
  | .straggleExpiry die _ => okDie die
  | .boot failed => failed.all okRouter
  | .columnRemap pcol => decide (pcol < 68) || (decide (2048 ≤ pcol) && decide (pcol < 4224))
  | .roleRecovery idx => decide (idx < 64)
  | .imageHandover _ => true
  | .handoverAbort => true
  | .flashWrite _ => true
  | .recoveryImage _ => true
  | .attestationRequest _ => true
  | .profileChange p => decide (p.toNat < 3)
  | .temperatureReport die _ => okDie die
  | .restart core tid => okCore core && okTid tid
  | .illegalEncoding _ => true
  | .badTypePacket pid q => okPid pid && okQueue q
  | .scrubbing _ => true
  | .matrixSelfTest core => okCore core
  | .gweridLinkReturn => true
  | .hostConfigurationTable _ => true

/-- The term is a step of the device, and not an instruction that a thread set fetches. -/
def Instr.isEvent (i : Instr) : Bool :=
  match i with
  | .fwctlWrite _ _ | .oportcfgWrite _ _ _ | .laneRetire _ _ | .fwRegisterWrite _ _ | .uxEntry | .schedulingEvent
  | .threadSwitch | .budgetRefresh | .tmma _ _ _ | .tmmas _ _ _ | .tmrec _ _ _ | .copy _ _ _ | .fill _ _ _
  | .gather32 _ _ _ | .scatter32 _ _ _ | .merge _ _ _ | .compact _ _ _ | .osum _ _ _ | .osumb _ _ _ | .omax _ _ _
  | .obcast _ _ _ | .olink _ _ _ | .segmentLanded _ _ | .commandCompletion _ _ _ | .matrixOperation _
  | .doorbell _ _ _ | .queueStateWrite _ _ _ | .packetFetch _ _ | .launch _ _ | .indirect _ _ | .loop _ _
  | .predicate _ _ | .fetchFence _ _ | .gatePoll _ _ | .timestamp _ _ | .nopPacket _ _ | .launchDispatch _
  | .launchStart _ _ | .imageMulticastDone _ _ | .launchComplete _ _ | .budgetOverrun _ _ _ | .graceExpiry _ _ _
  | .deadlineMissed _ _ | .stageRebalance _ _ | .stageJoin _ | .recordDispatch _ | .stagedLaunchEnd _ _
  | .messageDelivery _ | .chainMessage _ | .paletteInvalidate _ | .paletteInstall _ | .paletteAck _ | .storePerform _
  | .amoPerform _ | .streamFetchAhead _ _ _ | .preempt _ | .preemptiblePoint _ | .resume _ _ | .eviction _ _ _
  | .hostFaultAnswer _ _ | .invalidationRequest _ _ _ _ | .invalidationComplete _ | .partitionCreate _ | .hostAccess _
  | .penumbraPlacement _ _ | .reclaimComplete _ | .penumbraReplacement _ _ _ _ | .linkFailure _ | .linkReroute _ _
  | .flowDrain _ | .linkRestore _ | .gweridRetrain | .gweridDown | .reallocation _ | .laneLockLoss _ _
  | .widthConfirmation _ _ | .burstReceive _ _ _ | .fabricRequest _ _ _ | .fabricGrant _ _ _ | .segmentFrame _ _
  | .calibrationFrame _ _ | .straggleExpiry _ _ | .boot _ | .columnRemap _ | .roleRecovery _ | .imageHandover _
  | .handoverAbort | .flashWrite _ | .recoveryImage _ | .attestationRequest _ | .profileChange _
  | .temperatureReport _ _ | .restart _ _ | .illegalEncoding _ | .badTypePacket _ _ | .scrubbing _ | .matrixSelfTest _
  | .gweridLinkReturn | .hostConfigurationTable _ => true
  | .add _ _ _ | .sub _ _ _ | .mul _ _ _ | .mulh _ _ _ | .mulhu _ _ _ | .div _ _ _ | .divu _ _ _ | .rem _ _ _
  | .remu _ _ _ | .and _ _ _ | .or _ _ _ | .xor _ _ _ | .shl _ _ _ | .shr _ _ _ | .sra _ _ _ | .rotl _ _ _
  | .min _ _ _ | .max _ _ _ | .minu _ _ _ | .maxu _ _ _ | .slt _ _ _ | .sltu _ _ _ | .clz _ _ | .ctz _ _ | .popc _ _
  | .lea1 _ _ _ | .lea2 _ _ _ | .lea4 _ _ _ | .lea8 _ _ _ | .addi _ _ _ | .andi _ _ _ | .ori _ _ _ | .xori _ _ _
  | .slti _ _ _ | .shli _ _ _ | .shri _ _ _ | .srai _ _ _ | .exts _ _ _ _ | .extz _ _ _ _ | .ins _ _ _ _
  | .sel _ _ _ _ | .ldhi _ _ | .addK _ _ _ | .subK _ _ _ | .mulK _ _ _ | .andK _ _ _ | .orK _ _ _ | .xorK _ _ _
  | .minK _ _ _ | .maxK _ _ _ | .fadd _ _ _ _ _ | .fsub _ _ _ _ _ | .fmul _ _ _ _ _ | .fdiv _ _ _ _ _ | .fsqrt _ _ _ _
  | .fmin _ _ _ _ | .fmax _ _ _ _ | .fabs _ _ _ | .fneg _ _ _ | .fclass _ _ _ | .fcmpEq _ _ _ _ | .fcmpLt _ _ _ _
  | .fcmpLe _ _ _ _ | .fcmpUn _ _ _ _ | .ffma _ _ _ _ _ | .fcvtSD _ _ _ | .fcvtDS _ _ _ | .fcvtSH _ _ _
  | .fcvtHS _ _ _ | .fcvtSBf _ _ _ | .fcvtBfS _ _ _ | .fcvtSW _ _ _ | .fcvtSWu _ _ _ | .fcvtSL _ _ _ | .fcvtSLu _ _ _
  | .fcvtDW _ _ _ | .fcvtDWu _ _ _ | .fcvtDL _ _ _ | .fcvtDLu _ _ _ | .fcvtWS _ _ _ | .fcvtWuS _ _ _ | .fcvtLS _ _ _
  | .fcvtLuS _ _ _ | .fcvtWD _ _ _ | .fcvtWuD _ _ _ | .fcvtLD _ _ _ | .fcvtLuD _ _ _ | .fliS _ _ | .fliD _ _
  | .faddK _ _ _ _ | .fsubK _ _ _ _ | .fmulK _ _ _ _ | .ffmaK _ _ _ _ | .beq _ _ _ | .bne _ _ _ | .blt _ _ _
  | .bge _ _ _ | .bltu _ _ _ | .bgeu _ _ _ | .jal _ _ | .jalr _ _ _ | .fjmp _ _ _ | .ld _ _ _ _ | .st _ _ _ _
  | .ldv _ _ _ _ _ | .stv _ _ _ _ _ | .recl _ _ _ _ | .prefL1 _ _ | .prefL2 _ _ | .clean _ _ | .inval _ _
  | .cfetch _ _ | .amoaddAuto _ _ _ _ _ _ | .amominAuto _ _ _ _ _ _ | .amomaxAuto _ _ _ _ _ _
  | .amominuAuto _ _ _ _ _ _ | .amomaxuAuto _ _ _ _ _ _ | .amofaddSAuto _ _ _ _ _ _ | .amofaddDAuto _ _ _ _ _ _
  | .amoaddLoc _ _ _ _ _ _ | .amominLoc _ _ _ _ _ _ | .amomaxLoc _ _ _ _ _ _ | .amominuLoc _ _ _ _ _ _
  | .amomaxuLoc _ _ _ _ _ _ | .amofaddSLoc _ _ _ _ _ _ | .amofaddDLoc _ _ _ _ _ _ | .amoaddHome _ _ _ _ _ _
  | .amominHome _ _ _ _ _ _ | .amomaxHome _ _ _ _ _ _ | .amominuHome _ _ _ _ _ _ | .amomaxuHome _ _ _ _ _ _
  | .amofaddSHome _ _ _ _ _ _ | .amofaddDHome _ _ _ _ _ _ | .amoandAuto _ _ _ _ _ _ | .amoorAuto _ _ _ _ _ _
  | .amoxorAuto _ _ _ _ _ _ | .amoswapAuto _ _ _ _ _ _ | .amocasAuto _ _ _ _ _ _ | .amoandLoc _ _ _ _ _ _
  | .amoorLoc _ _ _ _ _ _ | .amoxorLoc _ _ _ _ _ _ | .amoswapLoc _ _ _ _ _ _ | .amocasLoc _ _ _ _ _ _
  | .amoandHome _ _ _ _ _ _ | .amoorHome _ _ _ _ _ _ | .amoxorHome _ _ _ _ _ _ | .amoswapHome _ _ _ _ _ _
  | .amocasHome _ _ _ _ _ _ | .vamoAdd _ _ _ _ _ | .vamoMin _ _ _ _ _ | .vamoMax _ _ _ _ _ | .vamoMinu _ _ _ _ _
  | .vamoMaxu _ _ _ _ _ | .vamoAnd _ _ _ _ _ | .vamoOr _ _ _ _ _ | .vamoXor _ _ _ _ _ | .fence _ _ | .palset _ _ _ _
  | .palget _ _ _ _ | .palinv _ _ | .waita _ _ _ _ _ | .wake _ _ _ _ _ | .barl _ _ _ | .evwait _ _ _ | .evsig _ _
  | .cpost _ _ _ | .taskend | .yield | .send _ _ | .ibxpop _ _ | .ibxpeek _ _ | .ibxwait _ | .enq _ | .enqv _
  | .trgadd _ _ | .trgset _ _ _ _ | .trgwait _ _ | .trgget _ _ | .vadd _ _ _ _ _ | .vsub _ _ _ _ _ | .vmul _ _ _ _ _
  | .vmulh _ _ _ _ _ | .vdiv _ _ _ _ _ | .vmin _ _ _ _ _ | .vmax _ _ _ _ _ | .vabs _ _ _ _ | .vand _ _ _ _ _
  | .vor _ _ _ _ _ | .vxor _ _ _ _ _ | .vshl _ _ _ _ _ | .vshr _ _ _ _ _ | .vsra _ _ _ _ _ | .vaddSs _ _ _ _ _
  | .vsubSs _ _ _ _ _ | .vaddUs _ _ _ _ _ | .vsubUs _ _ _ _ _ | .vmulhU _ _ _ _ _ | .vminU _ _ _ _ _
  | .vmaxU _ _ _ _ _ | .vdivU _ _ _ _ _ | .vfma _ _ _ _ _ | .vfms _ _ _ _ _ | .vmulL _ _ _ _ _ | .vfmaL _ _ _ _ _
  | .vmulK _ _ _ _ | .vfmaK _ _ _ _ | .vcmpEq _ _ _ _ _ | .vcmpNe _ _ _ _ _ | .vcmpLt _ _ _ _ _ | .vcmpLe _ _ _ _ _
  | .vcmpLtu _ _ _ _ _ | .vcmpLeu _ _ _ _ _ | .vcmpUn _ _ _ _ _ | .vsel _ _ _ _ _ | .vcvt _ _ _ _ _ _
  | .vperm _ _ _ _ _ | .vslideUp _ _ _ _ _ | .vslideDn _ _ _ _ _ | .vbcast _ _ _ _ _ | .vsplat _ _ _ _ | .vext _ _ _ _
  | .vins _ _ _ _ | .vredAdd _ _ _ _ | .vredMin _ _ _ _ | .vredMax _ _ _ _ | .vredMinu _ _ _ _ | .vredMaxu _ _ _ _
  | .vredAnd _ _ _ _ | .vredOr _ _ _ _ | .vredXor _ _ _ _ | .vscanAdd _ _ _ _ | .vscanAddx _ _ _ _ | .vscanMax _ _ _ _
  | .vscanMin _ _ _ _ | .vdot _ _ _ _ _ | .vdotU _ _ _ _ _ | .vclmul _ _ _ _ _ | .vpopc _ _ _ _ | .qand _ _ _
  | .qor _ _ _ | .qxor _ _ _ | .qnot _ _ | .vld _ _ _ _ _ | .vst _ _ _ _ _ | .vlds _ _ _ _ _ | .vsts _ _ _ _ _
  | .vldx _ _ _ _ _ | .vstx _ _ _ _ _ | .sbind _ _ _ _ _ | .sfree _ | .sstat _ _ | .sskip _ _ | .sdrain _ | .mma _ _ _
  | .mmas _ _ _ | .mgangMma _ _ _ | .mgangMmas _ _ _ | .mrec _ _ _ | .mfmt _ | .mzero _ | .mldc _ _ | .mstc _ _
  | .muprog _ | .trap _ | .eret | .uxret | .ifence | .halt | .rand _ | .ctlrd _ _ | .ctlwr _ _ | .statusWrite _
  | .lmhwmWrite _ | .mstatWrite _ | .melocRead _ | .sumstatRead _ _ | .eventConfigStore _ _ => false

end Sys2Proof
end

