-- ==== Sys2Proof/Machine/Step.lean ====
section
/-! DEFINITION. One step of the whole part. -/
namespace Sys2Proof.Machine

/-- The thread set has left its instruction: it neither stalls nor waits. -/
def goneOn (o : Host.Outcome State Fault Refusal) : Bool :=
  match o with
  | .next u => u.ts.run != .stalled && u.ts.run != .waiting
  | .fault _ => true
  | .refused _ => true

/-- An instruction stalls: it has not issued in this cycle. -/
def isStalled (o : Host.Outcome State Fault Refusal) : Bool :=
  match o with
  | .next u => u.ts.run == .stalled
  | .fault _ => false
  | .refused _ => false

/-- The focused thread set runs an instruction; where it issues in a penumbra context, its launch has been charged a cycle of class
C, at its first issue where it then waits (20 R399). -/
def runHere (i : Instr) (s : State) : Host.Outcome State Fault Refusal :=
  if isBank s && s.ts.run != .waiting && !isStalled (exec i s) then exec i (chargeIssue s) else exec i s

/-- The focused thread set reaches its next instruction boundary: a scheduling event, then a user-level interrupt, then the
instruction at its pc (01 R34, 15 R322). -/
noncomputable def boundary (s : State) : Host.Outcome State Fault Refusal :=
  if s.ts.sched.isEmpty then
    if uxDue s then exec .uxEntry s
    else
      match fetch s with
      | .failed t => .next t
      | .run i t => runHere i t
  else exec .schedulingEvent s

/-- The focused thread set issues, unless it has no task, has ended, or may not issue (08 R171, 19 R383, 20 R401, 25 R473). -/
noncomputable def issue (s : State) : Host.Outcome State Fault Refusal :=
  match s.ts.run with
  | .idle | .ended | .halted => .next s
  | .ready | .stalled | .waiting => if issueStopped s then .next s else boundary s

/-- The thread sets of the focused core that are READY: one that stalls or waits is where what holds it is over, as a look at it
shows (08 R171; log entry 61). -/
noncomputable def readySets (s : State) : List Nat :=
  (List.range 7).filter fun t => isReady t s || (isBlocked t s && goneOn (boundary (focusOn s.here t s)))

/-- The place of the oldest retired operation that may be performed. -/
def firstPerformable (s : State) : Option Nat :=
  (List.range s.pend.length).find? fun n =>
    match nth? s.pend n with
    | none => false
    | some p => performable (s.pend.take n) p s

/-- What goes on where no thread set issues: the oldest retired operation that may be performed is performed, or a thread set
whose instruction did not retire is looked at. -/
noncomputable def background (s : State) : Host.Outcome State Fault Refusal :=
  match firstPerformable s with
  | none =>
    match pickBlocked s with
    | none => .next s
    | some t => issue (lookAt t s)
  | some n =>
    match nth? s.pend n with
    | none => .next s
    | some p =>
      match p.op with
      | .store _ => exec (.storePerform n) s
      | .amo _ _ _ _ _ => exec (.amoPerform n) s
      | .recl _ => exec (.amoPerform n) s

/-- The focused core's cycle (08 R171): the thread set that selection names issues, and else what goes on by itself. -/
noncomputable def cycle (s : State) : Host.Outcome State Fault Refusal :=
  let rd := readySets s
  match pick rd s with
  | some t => issue (switchTo rd t s)
  | none => background (rested s)

/-- Thread set `t` of the focused core is called upon: it issues where selection names it, one whose instruction did not retire
and cannot go on is looked at, and every other has to leave the cycle to the one selected (08 R171). -/
noncomputable def callOn (t : Nat) (s : State) : Host.Outcome State Fault Refusal :=
  let rd := readySets s
  if pick rd s = some t then issue (switchTo rd t s)
  else if isBlocked t s && !rd.contains t then issue (lookAt t s)
  else .next (if pick rd s = none then rested s else s)

/-- One step (log entry 2): the agenda's next move, or, with none, a cycle of the focused core. -/
noncomputable def step (s : State) : Host.Outcome State Fault Refusal :=
  match s.agenda with
  | [] => cycle (passTime s)
  | .issue c t :: rest => callOn t (focusOn c t (passTime { s with agenda := rest }))
  | .ev i :: rest => if i.isEvent && i.wf then exec i (passTime { s with agenda := rest }) else .fault .illFormed

/-- The state with an instruction's bits stored where `step` fetches its next instruction. -/
def State.withFetchWord (s : State) (_nbits w : Nat) : State := placeWord w s

end Sys2Proof.Machine
end

