-- ==== Sys2Proof/Safety.lean ====
section
/-! DEFINITION. What counts as a safe run: one that never stops. -/
namespace Sys2Proof

/-- The state that `n` steps lead to, where none of them stops. -/
noncomputable def stepsTo : Nat → Machine.State → Option Machine.State
  | 0, s => some s
  | n + 1, s =>
    match Machine.step s with
    | .next t => stepsTo n t
    | .fault _ => none
    | .refused _ => none

/-- No number of steps from `s` ends in a fault or a refusal. -/
def Safe (s : Machine.State) : Prop := ∀ n, (stepsTo n s).isSome = true

end Sys2Proof
end

