-- ==== Sys2Proof/Certificates/Slice0/Obligations.lean ====
section
/-! DEFINITION. What is claimed of the model: one statement per definition `Obligations.<Name>`, after the few words that the
statements share. -/
namespace Sys2Proof.Claims
open Sys2Proof.Machine

/-! ## The words of the statements -/

/-- The instruction names no register that a stream slot is bound to, writes no vector register that a matrix command has
locked, and ends inside the fetch range: it retires with its own effect (01 R26, 06 R158, 15 R326). The statements
StreamRegisters, LockedRegister and SequentialLimit say what happens otherwise. -/
def Free (u : Use) (s : State) : Prop :=
  plain u s = true ∧ locked u s = false ∧ s.ts.pc.toNat + u.len < fetchLimit s

/-- The next instruction is the one that follows, the thread set is READY, and LIVE is as 19 R378 says. -/
def Retired (u : Use) (s t : State) : Prop :=
  t.ts.pc = BitVec.ofNat 20 (s.ts.pc.toNat + u.len) ∧ t.ts.run = .ready ∧ t.ts.live = liveAfter u s

/-- Every byte of memory reads as before. -/
def SameBytes (s t : State) : Prop := ∀ k, memGet t.mem k = memGet s.mem k

/-- Scalar register `d` is written with `v` (a write of s0 is discarded), and every other scalar register keeps its value. -/
def WritesReg (d : Reg) (v : Word) (s t : State) : Prop :=
  getS d t = (if d = 0 then 0 else v) ∧ ∀ r, r ≠ d → getS r t = getS r s

/-- STATUS accrues flags, and `k` draws are consumed. -/
def Accrues (fl : FFlags) (k : Nat) (s t : State) : Prop :=
  t.ts.status = s.ts.status ||| (fl.setWidth 64 <<< 11) ∧ t.ts.srctr = s.ts.srctr + BitVec.ofNat 48 k

/-- Everything is as before but the scalar registers with their shadows, STATUS, SRCTR and the fields that every retirement
moves: vector and mask registers, every special register, accumulators, the core, memory and the rest of the part. -/
def OnlyScalar (s t : State) : Prop :=
  t = { s with ts := { s.ts with s := t.ts.s, shS := t.ts.shS, status := t.ts.status, srctr := t.ts.srctr, pc := t.ts.pc,
                                 live := t.ts.live, run := t.ts.run, ticket := none, palTaken := none, trgWait := none, enqWord := none } } ∧ SameBytes s t

/-- `i` retires having written `v` to scalar register `d`, accrued `fl` and consumed `k` draws, and changed nothing else beyond what
`s0` has changed already. -/
def ComputesOn (s0 : State) (i : Instr) (u : Use) (d : Reg) (v : Word) (fl : FFlags) (k : Nat) (s : State) : Prop :=
  ∃ t, exec i s = .next t ∧ Retired u s t ∧ WritesReg d v s t ∧ Accrues fl k s t ∧ OnlyScalar s0 t

/-- `i` retires having written `v` to scalar register `d`, accrued `fl` and consumed `k` draws, and changed nothing else. -/
def Computes (i : Instr) (u : Use) (d : Reg) (v : Word) (fl : FFlags) (k : Nat) (s : State) : Prop :=
  ComputesOn s i u d v fl k s

/-- The signed value of bits 127:64 of an exact product, as a register holds it. -/
def highHalf (p : Int) : Word := BitVec.ofInt 64 (p / 2 ^ 64)

/-- 1 where `b` holds, else 0. -/
def truth (b : Bool) : Word := if b then 1 else 0

/-- The integer operations of 05 R108 and R109 on operands `x` and `y`, each with its result. -/
def integerForms (d a : Reg) (b : OpB) (x y : Word) : List (Instr × Word) :=
  [(.add d a b, x + y), (.sub d a b, x - y), (.mul d a b, x * y),
   (.mulh d a b, highHalf (x.toInt * y.toInt)), (.mulhu d a b, highHalf ((x.toNat * y.toNat : Nat) : Int)),
   (.div d a b, if y = 0 then BitVec.allOnes 64 else BitVec.ofInt 64 (x.toInt.tdiv y.toInt)),
   (.divu d a b, if y = 0 then BitVec.allOnes 64 else x / y),
   (.rem d a b, if y = 0 then x else BitVec.ofInt 64 (x.toInt.tmod y.toInt)),
   (.remu d a b, if y = 0 then x else x % y),
   (.and d a b, x &&& y), (.or d a b, x ||| y), (.xor d a b, x ^^^ y),
   (.shl d a b, x <<< (y.toNat % 64)), (.shr d a b, x >>> (y.toNat % 64)), (.sra d a b, x.sshiftRight (y.toNat % 64)),
   (.rotl d a b, x.rotateLeft (y.toNat % 64)),
   (.min d a b, if x.toInt ≤ y.toInt then x else y), (.max d a b, if y.toInt ≤ x.toInt then x else y),
   (.minu d a b, if x.toNat ≤ y.toNat then x else y), (.maxu d a b, if y.toNat ≤ x.toNat then x else y),
   (.slt d a b, truth (decide (x.toInt < y.toInt))), (.sltu d a b, truth (decide (x.toNat < y.toNat))),
   (.lea1 d a b, x + y), (.lea2 d a b, x + y <<< 1), (.lea4 d a b, x + y <<< 2), (.lea8 d a b, x + y <<< 3)]

/-- The number of zero bits above the highest one bit of the low `n` bits of `x`, counted down from bit n − 1. -/
def zerosAbove (x : Word) : Nat → Nat
  | 0 => 0
  | n + 1 => if x.getLsbD n then 0 else 1 + zerosAbove x n

/-- The number of zero bits below the lowest one bit, of the `n` bits from bit `k` on. -/
def zerosBelow (x : Word) (k : Nat) : Nat → Nat
  | 0 => 0
  | n + 1 => if x.getLsbD k then 0 else 1 + zerosBelow x (k + 1) n

/-- The number of one bits among the low `n` bits. -/
def onesBelow (x : Word) : Nat → Nat
  | 0 => 0
  | n + 1 => (if x.getLsbD n then 1 else 0) + onesBelow x n

/-- The operations of 05 R108 on one operand, each with its result. -/
def countForms (d a : Reg) (x : Word) : List (Instr × Word) :=
  [(.clz d a, BitVec.ofNat 64 (zerosAbove x 64)), (.ctz d a, BitVec.ofNat 64 (zerosBelow x 0 64)),
   (.popc d a, BitVec.ofNat 64 (onesBelow x 64))]

/-- `old` with its bits p + w to p replaced by the low bits of `x`; the field `w` holds the width less 1. -/
def putField (old x : Word) (w p : BitVec 6) : Word :=
  let m : Word := (BitVec.allOnes 64 >>> (63 - w.toNat)) <<< p.toNat
  (old &&& ~~~m) ||| ((x <<< p.toNat) &&& m)

/-- The immediate forms of 05 R110 on operand `x`, each with its result; bit-field forms have width + position ≤ 64. -/
def immediateForms (d a : Reg) (imm : BitVec 15) (n : BitVec 6) (x : Word) : List (Instr × Word) :=
  [(.addi d a imm, x + imm.signExtend 64), (.andi d a imm, x &&& imm.signExtend 64),
   (.ori d a imm, x ||| imm.setWidth 64), (.xori d a imm, x ^^^ imm.setWidth 64),
   (.slti d a imm, truth (decide (x.toInt < imm.toInt))),
   (.shli d a n, x <<< n.toNat), (.shri d a n, x >>> n.toNat), (.srai d a n, x.sshiftRight n.toNat)]

/-- The constant-bank forms of 05 R112 with entry `c`, each with its result. -/
def constantForms (d a : Reg) (k : BitVec 10) (x : Word) (c : W32) : List (Instr × Word) :=
  let y : Word := c.signExtend 64
  [(.addK d a k, x + y), (.subK d a k, x - y), (.mulK d a k, x * y), (.andK d a k, x &&& y),
   (.orK d a k, x ||| c.setWidth 64), (.xorK d a k, x ^^^ c.setWidth 64),
   (.minK d a k, if x.toInt ≤ y.toInt then x else y), (.maxK d a k, if y.toInt ≤ x.toInt then x else y)]

/-- The bytes of a constant-bank entry as a number, lowest address first. -/
def entryValue (k : Nat) (m : List Host.Cell) : Nat :=
  (memGet m k).toNat + 2 ^ 8 * (memGet m (k + 1)).toNat + 2 ^ 16 * (memGet m (k + 1 + 1)).toNat + 2 ^ 24 * (memGet m (k + 1 + 1 + 1)).toNat

end Sys2Proof.Claims

open Sys2Proof Sys2Proof.Machine Sys2Proof.Claims

/-! ## Scalar integer instructions (01 R12, 05 R108 to R112) -/

/-- 05 R108, R109: the result of every integer instruction with operand b a register or a literal, and its frame: nothing but
register d, the pc, LIVE and the issue state changes. -/
def Sys2Proof.Claims.IntegerOperations : Prop :=
  ∀ (s : State) (d a : Reg) (b : OpB), Free (useABD d a b) s →
    ∀ p ∈ integerForms d a b (getS a s) (intB b s), Computes p.1 (useABD d a b) d p.2 0 0 s

/-- 05 R108: CLZ, CTZ and POPC count bits, with 64 for an operand of 0 in the first two; frame as above. -/
def Sys2Proof.Claims.BitCounts : Prop :=
  ∀ (s : State) (d a : Reg), Free (useAD d a) s →
    ∀ p ∈ countForms d a (getS a s), Computes p.1 (useAD d a) d p.2 0 0 s

/-- 02 R43, 05 R110, R111: immediates, SEL and LDHI; frame as above. -/
def Sys2Proof.Claims.ImmediateOperations : Prop :=
  ∀ (s : State) (d a : Reg),
    (Free (useAD d a) s → ∀ (imm : BitVec 15) (n : BitVec 6), ∀ p ∈ immediateForms d a imm n (getS a s),
      Computes p.1 (useAD d a) d p.2 0 0 s) ∧
    (∀ (c : Reg) (b : OpB), Free (withMore (useABD d a b) [.s c]) s →
      Computes (.sel d c a b) (withMore (useABD d a b) [.s c]) d (if getS c s = 0 then intB b s else getS a s) 0 0 s) ∧
    (∀ imm : BitVec 20, Free (useD d) s →
      Computes (.ldhi d imm) (useD d) d ((imm.setWidth 32 <<< 12).signExtend 64) 0 0 s)

/-- 02 R43, 05 R110: EXTS, EXTZ and INS, for every width and position that the encoding admits; INS keeps the other bits of
d, which is one of its sources. -/
def Sys2Proof.Claims.BitFieldOperations : Prop :=
  ∀ (s : State) (d a : Reg) (w p : BitVec 6), w.toNat + 1 + p.toNat ≤ 64 →
    (Free (useAD d a) s →
      Computes (.extz d a w p) (useAD d a) d (((getS a s).extractLsb' p.toNat (w.toNat + 1)).setWidth 64) 0 0 s ∧
      Computes (.exts d a w p) (useAD d a) d
        (((getS a s).extractLsb' p.toNat (w.toNat + 1)).signExtend 64) 0 0 s) ∧
    (Free (withMore (useAD d a) [.s d]) s →
      Computes (.ins d a w p) (withMore (useAD d a) [.s d]) d (putField (getS d s) (getS a s) w p) 0 0 s)

/-- 01 R15, 05 R112: the constant-bank forms read four little-endian bytes of the core's constant bank, at entry number × 4;
a penumbra context's bank is the last 4 KiB of its window (20 R396), where a single-bit error is corrected and an uncorrectable one is
a machine error (01 R24). -/
def Sys2Proof.Claims.ConstantOperations : Prop :=
  ∀ (s : State) (d a : Reg) (k : BitVec 10), Free (useAD d a) s →
    let at_ := if s.tid = 4 ∨ s.tid = 5 then lmKey s.here (s.ts.wbase + (s.ts.wsize - 4096) + 4 * k.toNat)
      else constKey s.here (4 * k.toNat)
    ∀ p ∈ constantForms d a k (getS a s) (BitVec.ofNat 32 (entryValue at_ s.mem)),
      (readError at_ 4 s = none → ComputesOn (correct at_ 4 s) p.1 (useAD d a) d p.2 0 0 s) ∧
      (∀ e, readError at_ 4 s = some e → exec p.1 s = .next (machineError e.1 e.2 s))

/-- The statements IntegerOperations and BitCounts together. -/
def Obligations.IntegerArithmetic : Prop :=
  Sys2Proof.Claims.IntegerOperations ∧ Sys2Proof.Claims.BitCounts

/-- The statements ImmediateOperations, BitFieldOperations and ConstantOperations together. -/
def Obligations.ImmediateAndConstantForms : Prop :=
  Sys2Proof.Claims.ImmediateOperations ∧ Sys2Proof.Claims.BitFieldOperations ∧ Sys2Proof.Claims.ConstantOperations

namespace Sys2Proof.Claims

/-! ## Floating point -/

/-- The value of a scalar register or of other bits in the format of a precision. -/
def operandOf (z : Prec) (bits : Nat) : FVal := fdecode (precFmt z) bits

/-- The draws that one rounding consumes (04 R93). -/
def drawsOf (m : Rnd) : Nat := if m = .sr then 1 else 0

/-- The rounding operations of 05 R114 with operands `x` and `y`, each with the bits it delivers and the flags it sets. -/
def roundingForms (z : Prec) (r : Rnd) (d a : Reg) (b : OpB) (m : Rnd) (x y : FVal) (draw : Nat) :
    List (Instr × (Nat × FFlags)) :=
  [(.fadd z r d a b, faddV (precFmt z) m x y draw), (.fsub z r d a b, faddV (precFmt z) m x y.neg draw),
   (.fmul z r d a b, fmulV (precFmt z) m x y draw), (.fdiv z r d a b, fdivV (precFmt z) m x y draw)]

/-- The constant-bank forms of 05 R120, as above; FFMA.K apart. -/
def roundingConstantForms (z : Prec) (d a : Reg) (k : BitVec 10) (m : Rnd) (x y : FVal) (draw : Nat) :
    List (Instr × (Nat × FFlags)) :=
  [(.faddK z d a k, faddV (precFmt z) m x y draw), (.fsubK z d a k, faddV (precFmt z) m x y.neg draw),
   (.fmulK z d a k, fmulV (precFmt z) m x y draw)]

/-- The sign bit of the bits of a precision. -/
def signBitOf (z : Prec) : Nat := match z with
  | .s => 2 ^ 31
  | .d => 2 ^ 63

/-- FMIN and FMAX of 05 R116 on the bits `x` and `y`: a NaN gives way to a number, two NaNs give the canonical one, and −0
lies below +0. -/
def minmaxBits (z : Prec) (isMax : Bool) (x y : Nat) : Nat :=
  if (operandOf z x).isNaN then (if (operandOf z y).isNaN then (precFmt z).canonNaN else y)
  else if (operandOf z y).isNaN then x
  else if isMax then (if fminLt (operandOf z x) (operandOf z y) then y else x)
  else (if fminLt (operandOf z y) (operandOf z x) then y else x)

/-- FCMP of 05 R117, each with its answer and the NV flag: a signalling NaN, and for .lt and .le any NaN. -/
def compareForms (z : Prec) (d a : Reg) (b : OpB) (x y : FVal) : List (Instr × (Bool × FFlags)) :=
  let sig := x.isSNaN || y.isSNaN
  let any := x.isNaN || y.isNaN
  [(.fcmpEq z d a b, (x.eq y, flagIf sig flNV)), (.fcmpLt z d a b, (x.lt y, flagIf (sig || any) flNV)),
   (.fcmpLe z d a b, (x.lt y || x.eq y, flagIf (sig || any) flNV)), (.fcmpUn z d a b, (any, flagIf sig flNV))]

/-- The conversions between formats of 05 R118: source, destination, and whether every value is represented exactly. -/
def convertForms (r : Rnd) (d a : Reg) : List (Instr × (FFmt × FFmt × Bool)) :=
  [(.fcvtSD r d a, (.f64, .f32, false)), (.fcvtDS r d a, (.f32, .f64, true)), (.fcvtSH r d a, (.f16, .f32, true)),
   (.fcvtHS r d a, (.f32, .f16, false)), (.fcvtSBf r d a, (.bf16, .f32, true)), (.fcvtBfS r d a, (.f32, .bf16, false))]

/-- The conversions from integers of 05 R118: width, signed, destination, and whether every value is represented exactly. -/
def fromIntegerForms (r : Rnd) (d a : Reg) : List (Instr × (Nat × Bool × FFmt × Bool)) :=
  [(.fcvtSW r d a, (32, true, .f32, false)), (.fcvtSWu r d a, (32, false, .f32, false)),
   (.fcvtSL r d a, (64, true, .f32, false)), (.fcvtSLu r d a, (64, false, .f32, false)),
   (.fcvtDW r d a, (32, true, .f64, true)), (.fcvtDWu r d a, (32, false, .f64, true)),
   (.fcvtDL r d a, (64, true, .f64, false)), (.fcvtDLu r d a, (64, false, .f64, false))]

/-- The conversions to integers of 05 R118: width, signed, source. -/
def toIntegerForms (r : Rnd) (d a : Reg) : List (Instr × (Nat × Bool × FFmt)) :=
  [(.fcvtWS r d a, (32, true, .f32)), (.fcvtWuS r d a, (32, false, .f32)), (.fcvtLS r d a, (64, true, .f32)),
   (.fcvtLuS r d a, (64, false, .f32)), (.fcvtWD r d a, (32, true, .f64)), (.fcvtWuD r d a, (32, false, .f64)),
   (.fcvtLD r d a, (64, true, .f64)), (.fcvtLuD r d a, (64, false, .f64))]

/-- The low `n` bits of a register as an integer. -/
def integerOf (signed : Bool) (n : Nat) (x : Word) : Int :=
  if signed then (BitVec.ofNat n x.toNat).toInt else ((BitVec.ofNat n x.toNat).toNat : Int)

/-- The value that a saturating conversion to an integer of n bits delivers, with its flags (04 R97): NaN gives 0 and a
value out of range the nearest bound, each with NV; an inexact value sets NX. -/
def saturated (n : Nat) (signed : Bool) (m : Rnd) (x : FVal) (draw : Nat) : Int × FFlags :=
  let lo : Int := if signed then -(2 ^ (n - 1)) else 0
  let hi : Int := if signed then 2 ^ (n - 1) - 1 else 2 ^ n - 1
  match x with
  | .nan _ => (0, flNV)
  | .inf s => (if s then lo else hi, flNV)
  | .fin s k e =>
    let r := roundAt m s k e 0 draw
    let v : Int := if s then -r.1 else r.1
    if v < lo then (lo, flNV) else if hi < v then (hi, flNV) else (v, flagIf r.2 flNX)

end Sys2Proof.Claims

/-! ## Scalar floating point (02 R46 to R49, 04 R87 to R98, 05 R113 to R120) -/

/-- 05 R114, R115, R120: FADD, FSUB, FMUL, FDIV, FSQRT and FFMA with their constant-bank forms round under the mode in effect,
deliver the rounded result to d, accrue its flags with those of a widened literal, consume one draw under SR, and change
nothing else; an uncorrectable constant of a penumbra context is a machine error (01 R24). -/
def Sys2Proof.Claims.FloatArithmetic : Prop :=
  ∀ (s : State) (z : Prec) (d a : Reg),
    (∀ (r : Rnd) (b : OpB),
      let m := resolveRm r s
      let y := fpB z b s
      (Free (useABD d a b) s →
        ∀ p ∈ roundingForms z r d a b m (operandOf z (precBits z (getS a s))) (operandOf z y.1) (drawFor m 0 s),
          Computes p.1 (useABD d a b) d (w64 p.2.1) (p.2.2 ||| y.2) (drawsOf m) s) ∧
      (Free (withMore (useABD d a b) [.s d]) s →
        let o := ffmaV (precFmt z) m (operandOf z (precBits z (getS a s))) (operandOf z y.1)
          (operandOf z (precBits z (getS d s))) (drawFor m 0 s)
        Computes (.ffma z r d a b) (withMore (useABD d a b) [.s d]) d (w64 o.1) (o.2 ||| y.2) (drawsOf m) s)) ∧
    (∀ r : Rnd, Free (useAD d a) s →
      let m := resolveRm r s
      let o := fsqrtV (precFmt z) m (operandOf z (precBits z (getS a s))) (drawFor m 0 s)
      Computes (.fsqrt z r d a) (useAD d a) d (w64 o.1) o.2 (drawsOf m) s) ∧
    (∀ k : BitVec 10,
      let m := rmOf s
      let y := fpConst z (constEntry k s).toNat
      let s0 := correct (constEntryKey k s) 4 s
      (∀ e, readError (constEntryKey k s) 4 s = some e →
        (Free (useAD d a) s → ∀ p ∈ roundingConstantForms z d a k m (operandOf z (precBits z (getS a s))) (operandOf z y.1) (drawFor m 0 s),
          exec p.1 s = .next (machineError e.1 e.2 s)) ∧
        (Free (withMore (useAD d a) [.s d]) s → exec (.ffmaK z d a k) s = .next (machineError e.1 e.2 s))) ∧
      (readError (constEntryKey k s) 4 s = none → Free (useAD d a) s →
        ∀ p ∈ roundingConstantForms z d a k m (operandOf z (precBits z (getS a s))) (operandOf z y.1) (drawFor m 0 s),
          ComputesOn s0 p.1 (useAD d a) d (w64 p.2.1) (p.2.2 ||| y.2) (drawsOf m) s) ∧
      (readError (constEntryKey k s) 4 s = none → Free (withMore (useAD d a) [.s d]) s →
        let o := ffmaV (precFmt z) m (operandOf z (precBits z (getS a s))) (operandOf z y.1)
          (operandOf z (precBits z (getS d s))) (drawFor m 0 s)
        ComputesOn s0 (.ffmaK z d a k) (withMore (useAD d a) [.s d]) d (w64 o.1) (o.2 ||| y.2) (drawsOf m) s))

/-- 05 R116, R117, R119: FMIN, FMAX, FABS, FNEG, FCLASS, FCMP and FLI; none consumes a draw, and but for FCMP's NV and the
flags of a widened literal none sets a flag. -/
def Sys2Proof.Claims.FloatSelection : Prop :=
  ∀ (s : State) (z : Prec) (d a : Reg),
    let x := precBits z (getS a s)
    (∀ b : OpB, Free (useABD d a b) s →
      let y := fpB z b s
      Computes (.fmin z d a b) (useABD d a b) d (w64 (minmaxBits z false x y.1)) y.2 0 s ∧
      Computes (.fmax z d a b) (useABD d a b) d (w64 (minmaxBits z true x y.1)) y.2 0 s ∧
      ∀ p ∈ compareForms z d a b (operandOf z x) (operandOf z y.1),
        Computes p.1 (useABD d a b) d (truth p.2.1) (p.2.2 ||| y.2) 0 s) ∧
    (Free (useAD d a) s →
      Computes (.fabs z d a) (useAD d a) d (w64 (x % signBitOf z)) 0 0 s ∧
      Computes (.fneg z d a) (useAD d a) d (w64 (x ^^^ signBitOf z)) 0 0 s ∧
      Computes (.fclass z d a) (useAD d a) d (w64 (fclassBits (precFmt z) x)) 0 0 s) ∧
    (∀ imm : BitVec 20, Free (useD d) s →
      Computes (.fliS d imm) (useD d) d (imm.setWidth 64 <<< 12) 0 0 s ∧
      Computes (.fliD d imm) (useD d) d (imm.setWidth 64 <<< 44) 0 0 s)

/-- 04 R93, R95, R97, R98; 05 R118: every FCVT. A conversion that represents every value exactly ignores its rounding field
and consumes no draw; one to an integer saturates, and sign-extends a 32-bit result. -/
def Sys2Proof.Claims.FloatConversions : Prop :=
  ∀ (s : State) (r : Rnd) (d a : Reg), Free (useAD d a) s →
    (∀ p ∈ convertForms r d a,
      let m := if p.2.2.2 then .rne else resolveRm r s
      let o := convertFloat p.2.2.1 m (fdecode p.2.1 ((getS a s).toNat % 2 ^ p.2.1.width)) (drawFor m 0 s)
      Computes p.1 (useAD d a) d (w64 o.1) o.2 (drawsOf m) s) ∧
    (∀ p ∈ fromIntegerForms r d a,
      let m := if p.2.2.2.2 then .rne else resolveRm r s
      let n := integerOf p.2.2.1 p.2.1 (getS a s)
      let o := roundFloat p.2.2.2.1 m (decide (n < 0)) n.natAbs 0 (drawFor m 0 s)
      Computes p.1 (useAD d a) d (w64 o.1) o.2 (drawsOf m) s) ∧
    (∀ p ∈ toIntegerForms r d a,
      let m := resolveRm r s
      let o := saturated p.2.1 p.2.2.1 m (fdecode p.2.2.2 ((getS a s).toNat % 2 ^ p.2.2.2.width)) (drawFor m 0 s)
      Computes p.1 (useAD d a) d ((BitVec.ofInt p.2.1 o.1).signExtend 64) o.2 (drawsOf m) s)

/-- 04 R88, R90: a value that the destination format represents is delivered as it is under every mode and for every draw,
and sets no flag. -/
def Sys2Proof.Claims.ExactValuesAreKept : Prop :=
  ∀ (f : FFmt) (x : Nat) (neg : Bool) (m : Nat) (e : Int) (mode : Rnd) (draw : Nat), x < 2 ^ f.width →
    fdecode f x = .fin neg m e → roundFloat f mode neg m e draw = (x, 0)

/-- 04 R87, 05 R114: an arithmetic operation with a NaN operand delivers the canonical quiet NaN, and sets NV exactly where
an operand is a signalling NaN. -/
def Sys2Proof.Claims.NanOperandsPropagate : Prop :=
  ∀ (f : FFmt) (m : Rnd) (x y : FVal) (draw : Nat), (x.isNaN || y.isNaN) = true →
    let nv := flagIf (x.isSNaN || y.isSNaN) flNV
    faddV f m x y draw = (f.canonNaN, nv) ∧ fmulV f m x y draw = (f.canonNaN, nv) ∧ fdivV f m x y draw = (f.canonNaN, nv)

/-- The statements FloatArithmetic, FloatSelection and FloatConversions together. -/
def Obligations.FloatOperations : Prop :=
  Sys2Proof.Claims.FloatArithmetic ∧ Sys2Proof.Claims.FloatSelection ∧ Sys2Proof.Claims.FloatConversions

/-- The statements ExactValuesAreKept and NanOperandsPropagate together. -/
def Obligations.FloatValueRules : Prop :=
  Sys2Proof.Claims.ExactValuesAreKept ∧ Sys2Proof.Claims.NanOperandsPropagate

namespace Sys2Proof.Claims

/-! ## Control transfer and exceptions -/

/-- A control-transfer target that passes the check of 01 R26. -/
def Legal (target : Nat) (s : State) : Prop := target < fetchLimit s ∧ target % 4 = 0

/-- Everything is as before but the scalar registers with their shadows, STATUS, the fetch buffer and the fields that every
retirement moves. -/
def OnlyTransfer (s t : State) : Prop :=
  t = { s with ts := { s.ts with s := t.ts.s, shS := t.ts.shS, status := t.ts.status, fbuf := t.ts.fbuf, pc := t.ts.pc,
                                 live := t.ts.live, run := t.ts.run, ticket := none, palTaken := none, trgWait := none, enqWord := none } } ∧ SameBytes s t

/-- `i` goes on at the next instruction and changes nothing. -/
def FallsThrough (i : Instr) (u : Use) (s : State) : Prop :=
  ∃ t, exec i s = .next t ∧ Retired u s t ∧ t.ts.fbuf = s.ts.fbuf ∧ t.ts.status = s.ts.status ∧
    (∀ r, getS r t = getS r s) ∧ OnlyTransfer s t

/-- `i` transfers control to `target` with STATUS `w`, the fetch buffer empty, and changes nothing else but register `d`,
which takes the address of the next instruction. -/
def Transfers (i : Instr) (u : Use) (target : Nat) (w : Word) (s : State) (regs : State → Prop) : Prop :=
  ∃ t, exec i s = .next t ∧ t.ts.pc = BitVec.ofNat 20 target ∧ t.ts.run = .ready ∧ t.ts.live = liveAfter u s ∧
    t.ts.fbuf = [] ∧ t.ts.status = w ∧ regs t ∧ OnlyTransfer s t

/-- Register `d` takes the address of the next instruction. -/
def Links (d : Reg) (s t : State) : Prop := WritesReg d (s.ts.pc.setWidth 64 + 4) s t

/-- Every scalar register keeps its value. -/
def KeepsRegs (s t : State) : Prop := ∀ r, getS r t = getS r s

/-- The branches of 05 R121, each with its condition. -/
def branchForms (a b : Reg) (off : BitVec 12) (x y : Word) : List (Instr × Bool) :=
  [(.beq a b off, decide (x = y)), (.bne a b off, decide (x ≠ y)), (.blt a b off, decide (x.toInt < y.toInt)),
   (.bge a b off, decide (y.toInt ≤ x.toInt)), (.bltu a b off, decide (x.toNat < y.toNat)),
   (.bgeu a b off, decide (y.toNat ≤ x.toNat))]

/-- A trap is taken, and is not fatal (01 R32). -/
def CanTrap (s : State) : Prop := s.ts.status.getLsbD 1 = false ∧ s.ts.tvec.getLsbD 0 = true

/-- Bit `k` of STATUS after trap entry: PUXEN takes UXEN, UXEN is cleared and INTRAP is set (01 R32). -/
def entryBit (w : Word) (k : Nat) : Bool :=
  if k = 1 then true else if k = 2 then false else if k = 4 then w.getLsbD 2 else w.getLsbD k

/-- Trap entry (01 R32): EPC, ECAUSE and EVAL are written, STATUS and the pc change, the fetch buffer empties, a wait for a
forwarded fault ends, and nothing else changes. -/
def Entered (code detail : Nat) (val : Word) (lit : Bool) (s t : State) : Prop :=
  t.ts.epc = s.ts.pc.setWidth 64 ∧
  t.ts.ecause = BitVec.ofNat 64 (code + 2 ^ 8 * detail + (if lit then 2 ^ 16 else 0)) ∧ t.ts.eval = val ∧
  (∀ k, k < 64 → t.ts.status.getLsbD k = entryBit s.ts.status k) ∧
  t.ts.pc = (s.ts.tvec.extractLsb' 2 18).setWidth 20 <<< 2 ∧ t.ts.run = .ready ∧
  t = { s with tickets := t.tickets
               ts := { s.ts with epc := t.ts.epc, ecause := t.ts.ecause, eval := t.ts.eval, status := t.ts.status,
                                 pc := t.ts.pc, run := t.ts.run, fbuf := [], ticket := none, palTaken := none,
                                 trgWait := none, enqWord := none } } ∧ SameBytes s t

/-- A launch after it has been marked for eviction with KILLED_FATAL: the first mark stands (19 R387). -/
def markedFatal (l : Launch) : Launch := if l.kill.isNone then { l with kill := some 3 } else l

/-- `i` takes the trap, where one can be taken. -/
def Traps (i : Instr) (code detail : Nat) (val : Word) (lit : Bool) (s : State) : Prop :=
  CanTrap s → ∃ t, exec i s = .next t ∧ Entered code detail val lit s t

end Sys2Proof.Claims

/-! ## Control transfer (01 R26, R27; 05 R121 to R126) -/

/-- 01 R26, 05 R121: a branch that is not taken falls through; one that is taken goes to pc + 4 × offset where the target is
legal, and else takes FETCH_FAULT with the target in EVAL. -/
def Sys2Proof.Claims.Branches : Prop :=
  ∀ (s : State) (a b : Reg) (off : BitVec 12), plain (useAB a b) s = true →
    let target : Word := s.ts.pc.setWidth 64 + off.signExtend 64 <<< 2
    ∀ p ∈ branchForms a b off (getS a s) (getS b s),
      (p.2 = false → s.ts.pc.toNat + 4 < fetchLimit s → FallsThrough p.1 (useAB a b) s) ∧
      (p.2 = true → Legal target.toNat s →
        Transfers p.1 (useAB a b) target.toNat s.ts.status s (KeepsRegs s)) ∧
      (p.2 = true → ¬ Legal target.toNat s → Traps p.1 4 0 target false s)

/-- 01 R26, 05 R122: JAL and JALR form the target before they write the link register, and write it only where the target is
legal; a target that is not takes FETCH_FAULT. -/
def Sys2Proof.Claims.Jumps : Prop :=
  ∀ (s : State) (d a : Reg) (off : BitVec 20) (imm : BitVec 15),
    let t1 : Word := s.ts.pc.setWidth 64 + off.signExtend 64 <<< 2
    let t2 : Word := getS a s + imm.signExtend 64
    (plain (useD d) s = true →
      (Legal t1.toNat s → Transfers (.jal d off) (useD d) t1.toNat s.ts.status s (Links d s)) ∧
      (¬ Legal t1.toNat s → Traps (.jal d off) 4 0 t1 false s)) ∧
    (plain (useAD d a) s = true →
      (Legal t2.toNat s → Transfers (.jalr d a imm) (useAD d a) t2.toNat s.ts.status s (Links d s)) ∧
      (¬ Legal t2.toNat s → Traps (.jalr d a imm) 4 0 t2 false s))

/-- 05 R123: FJMP jumps as JALR does where the target's page is RESIDENT (a penumbra window's pages always are, 20 R396), and
else takes SEGMENT_ABSENT with the segment number of a LANDING page in DETAIL, or 0x40 for an EMPTY one. -/
def Sys2Proof.Claims.FarJump : Prop :=
  ∀ (s : State) (d a : Reg) (imm : BitVec 15), plain (useAD d a) s = true →
    let target : Word := getS a s + imm.signExtend 64
    let tag := lookupD (PageSt.resident, 0) s.core.tags (target.toNat / 4096)
    (¬ Legal target.toNat s → Traps (.fjmp d a imm) 4 0 target false s) ∧
    (Legal target.toNat s →
      (tag.1 = .resident ∨ s.tid = 4 ∨ s.tid = 5 →
        Transfers (.fjmp d a imm) (useAD d a) target.toNat s.ts.status s (Links d s)) ∧
      (tag.1 = .landing → tag.2 < 256 → s.tid ≠ 4 → s.tid ≠ 5 → Traps (.fjmp d a imm) 6 tag.2 target false s) ∧
      (tag.1 = .empty → s.tid ≠ 4 → s.tid ≠ 5 → Traps (.fjmp d a imm) 6 0x40 target false s))

/-- 01 R32, 05 R124: TRAP takes exception 5 with its zero-extended immediate in EVAL. -/
def Sys2Proof.Claims.TrapInstruction : Prop :=
  ∀ (s : State) (imm : BitVec 15), Traps (.trap imm) 5 0 (imm.setWidth 64) false s

/-- 01 R32, 05 R125: inside a trap handler ERET goes to EPC with bits 1:0 cleared, UXEN takes PUXEN and INTRAP is cleared,
every other bit of STATUS kept; a target that is not legal takes FETCH_FAULT, which is fatal there; outside a handler ERET is
ILLEGAL. -/
def Sys2Proof.Claims.ReturnFromTrap : Prop :=
  ∀ s : State,
    let target := s.ts.epc.toNat / 4 * 4
    let w : Word := (s.ts.status &&& ~~~(6#64)) ||| (if s.ts.status.getLsbD 4 then 4 else 0)
    (s.ts.status.getLsbD 1 = true → Legal target s → Transfers .eret useNone target w s (KeepsRegs s)) ∧
    (s.ts.status.getLsbD 1 = true → ¬ Legal target s →
      exec .eret s = .next (fatalTrap 4 0 (BitVec.ofNat 64 target) s)) ∧
    (s.ts.status.getLsbD 1 = false → Traps .eret 1 0 (Instr.eret.word.setWidth 64) false s)

/-- 05 R126: inside a user-level interrupt handler UXRET goes to UXEPC with bits 1:0 cleared, clears INUX and sets UXEN; it is
ILLEGAL outside such a handler and inside a trap handler. -/
def Sys2Proof.Claims.ReturnFromUserInterrupt : Prop :=
  ∀ s : State,
    let target := s.ts.uxepc.toNat / 4 * 4
    let w : Word := (s.ts.status &&& ~~~(8#64)) ||| 4
    (s.ts.status.getLsbD 3 = true → s.ts.status.getLsbD 1 = false → Legal target s →
      ∃ t, exec .uxret s = .next t ∧ t.ts.pc = BitVec.ofNat 20 target ∧ t.ts.status = w ∧ t.ts.fbuf = [] ∧
        t.ts.run = .ready ∧ t.ts.s = s.ts.s ∧ t.ts.shS = s.ts.shS ∧ OnlyTransfer s t) ∧
    (s.ts.status.getLsbD 3 = true → s.ts.status.getLsbD 1 = false → ¬ Legal target s →
      Traps .uxret 4 0 (BitVec.ofNat 64 target) false s) ∧
    (s.ts.status.getLsbD 3 = false → Traps .uxret 1 0 (Instr.uxret.word.setWidth 64) false s) ∧
    (s.ts.status.getLsbD 1 = true → exec .uxret s = .next (fatalTrap 1 0 (Instr.uxret.word.setWidth 64) s))

/-! ## Exceptions (01 R30 to R32, 19 R373 to R375) -/

/-- 01 R32: what taking an exception does, whatever raises it; the literal bit of ECAUSE is set for an instruction with a
trailing literal. -/
def Sys2Proof.Claims.ExceptionEntry : Prop :=
  ∀ (s : State) (code detail : Nat) (val : Word) (lit : Bool), code < 256 → detail < 256 → CanTrap s →
    Entered code detail val lit s (takeTrap code detail val lit s)

/-- 19 R373: a trap inside a trap handler, or with TVEC.EN clear, is fatal: the thread set ends, its launch is marked for
eviction, and EPC, ECAUSE, EVAL, STATUS, every register and the pc keep their values. -/
def Sys2Proof.Claims.FatalTrapEntry : Prop :=
  ∀ (s : State) (code detail : Nat) (val : Word) (lit : Bool), ¬ CanTrap s →
    let t := takeTrap code detail val lit s
    t.ts = { s.ts with run := .ended } ∧ t.core = s.core ∧ t.cores = s.cores ∧
    ∀ l, launchOf (myPid s) (myLid s) s = some l → launchOf (myPid s) (myLid s) t = some (markedFatal l)

/-- 19 R375: a fault record goes to the place that the write counter of its partition's fault queue names, where the ring of
4,096 records has room, and the counter rises by 1 modulo 2^32; a full ring counts the record in LOST instead. -/
def Sys2Proof.Claims.FaultRecordWritten : Prop :=
  ∀ (s : State) (pid : Nat) (p : Partition) (r : FaultRec), Memory.wf s.mem = true → partOf pid s = some p →
    let q := p.rcd.faultq
    let w := memValue s.mem 4 q
    let n := (w + 2 ^ 32 - memValue s.mem 4 (q + 4)) % 2 ^ 32
    (n < 4096 → memRead (writeFault pid r s).mem 32 (q + 64 + 32 * (w % 4096)) = r.bytes s.time ∧
      memValue (writeFault pid r s).mem 4 q = (w + 1) % 2 ^ 32) ∧
    (4096 ≤ n → n + 1 < 2 ^ 32 →
      memValue (writeFault pid r s).mem 4 (q + 8) = Nat.min (memValue s.mem 4 (q + 8) + 1) (2 ^ 32 - 1) ∧
      ∀ k, (k < q + 8 ∨ q + 12 ≤ k) → memGet (writeFault pid r s).mem k = memGet s.mem k)

/-- 01 R30, 02 R63: a word that no instruction has takes ILLEGAL with the word in EVAL, where it lies inside the fetch range, and
FETCH_FAULT with the pc in EVAL where it does not. -/
def Sys2Proof.Claims.IllegalWord : Prop :=
  ∀ (s : State) (w : W32),
    (s.ts.pc.toNat + 4 ≤ fetchLimit s → Traps (.illegalEncoding w) 1 0 (w.setWidth 64) (needsLit w.toNat) s) ∧
    (fetchLimit s < s.ts.pc.toNat + 4 → Traps (.illegalEncoding w) 4 0 (s.ts.pc.setWidth 64) false s)

/-- 01 R26, 02 R39: an instruction whose effect is done and whose successor would lie outside the fetch range takes FETCH_FAULT,
with EPC at the instruction itself, whose length decides the literal bit (log entry 11: both are the model's reading). -/
def Sys2Proof.Claims.SequentialLimit : Prop :=
  ∀ (u : Use) (s t : State), locked u s = false → fetchLimit t ≤ t.ts.pc.toNat + u.len → CanTrap t →
    Entered 4 0 (BitVec.ofNat 64 (t.ts.pc.toNat + u.len)) (u.len == 8) (retire u s t) (finish u s (.ok t))

/-- The statements Branches, Jumps and FarJump together.
It rests on choices of the model where the log says so: entry 65. -/
def Obligations.ControlTransfers : Prop :=
  Sys2Proof.Claims.Branches ∧ Sys2Proof.Claims.Jumps ∧ Sys2Proof.Claims.FarJump

/-- The statements ReturnFromTrap and ReturnFromUserInterrupt together. -/
def Obligations.ReturnsFromHandlers : Prop :=
  Sys2Proof.Claims.ReturnFromTrap ∧ Sys2Proof.Claims.ReturnFromUserInterrupt

/-- The statements TrapInstruction, ExceptionEntry, FatalTrapEntry and FaultRecordWritten together.
It rests on choices of the model where the log says so: entry 47. -/
def Obligations.ExceptionsAreTaken : Prop :=
  Sys2Proof.Claims.TrapInstruction ∧
  Sys2Proof.Claims.ExceptionEntry ∧
  Sys2Proof.Claims.FatalTrapEntry ∧ Sys2Proof.Claims.FaultRecordWritten

/-- The statements IllegalWord and SequentialLimit together.
It rests on choices of the model where the log says so: entry 11. -/
def Obligations.IllegalWordsAndFetchLimit : Prop :=
  Sys2Proof.Claims.IllegalWord ∧ Sys2Proof.Claims.SequentialLimit

namespace Sys2Proof.Claims

/-! ## Registers and control registers -/

/-- `i` retires, and its effect on the state is exactly `t0`: beyond it only the pc, LIVE and the issue state move. -/
def Effects (i : Instr) (u : Use) (s t0 : State) : Prop :=
  exec i s = .next { t0 with ts := { t0.ts with pc := BitVec.ofNat 20 (s.ts.pc.toNat + u.len), live := liveAfter u s,
                                                run := .ready, ticket := none, palTaken := none, trgWait := none, enqWord := none } }

/-- The index of a control register as CTLRD and CTLWR hold it. -/
def ctl (i : Nat) : BitVec 12 := BitVec.ofNat 12 i

/-- The control registers of 01 R17 and R21 that a read does not change, each with its value; at F also those of 25 R466. -/
def controlValues (s : State) : List (Nat × Word) :=
  [(0x000, s.ts.status), (0x001, s.ts.epc), (0x002, s.ts.ecause), (0x003, s.ts.eval), (0x004, s.ts.tvec), (0x005, s.ts.uxvec),
   (0x006, s.ts.uxid), (0x007, s.ts.uxepc), (0x008, BitVec.ofNat 64 s.time), (0x009, s.ts.srctr.setWidth 64),
   (0x00A, if s.tid = 4 ∨ s.tid = 5 then 0 else s.core.lmhwm),
   (0x020, vecGet s.ts.budget 0), (0x021, vecGet s.ts.budget 1), (0x022, vecGet s.ts.budget 2), (0x023, vecGet s.ts.budget 3),
   (0x100, s.ts.rankid), (0x101, s.ts.coord), (0x102, s.ts.launchid), (0x103, s.ts.rect), (0x104, s.ts.deadline),
   (0x105, s.ts.srseed), (0x106, s.ts.partid), (0x107, s.ts.tsid), (0x108, s.ts.prio), (0x109, s.ts.priv), (0x10A, s.ts.plen)]

/-- The indexes that no control register has, outside 0x200 to 0x2FF. -/
def unassigned (i : Nat) : Prop :=
  (0x00D ≤ i ∧ i < 0x020) ∨ (0x024 ≤ i ∧ i < 0x100) ∨ (0x10B ≤ i ∧ i < 0x200) ∨ (0x300 ≤ i ∧ i < 0x1000)

/-- STATUS after a write of `x` that is taken: FFLAGS, RM and UXEN take the value, every other bit is kept (01 R18). -/
def statusTaken (x old : Word) : Word := (x &&& 0xFF04) ||| (old &&& ~~~0xFF04)

/-- The read-only registers of 01 R17 and 16 R332: UXID, TIME, SRCTR, MCTX and the budgets. -/
def readOnlyIndexes : List Nat := [0x006, 0x008, 0x009, 0x00C, 0x020, 0x021, 0x022, 0x023]

/-- The reserved fields of the read-only registers: bits 63:28 of UXID (15 R323), 63:48 of SRCTR (01 R17), 62:19 and 11 of MCTX (16 R332),
63:13 and 7:6 of COORD and 63:24 and 12:6 of RECT (01 R21), and 57:53 of PRIV (11 R237). -/
def readOnlyReserved (i : Nat) : Word :=
  if i = 0x006 then ~~~(0xFFFFFFF#64) else if i = 0x009 then ~~~(0xFFFFFFFFFFFF#64) else if i = 0x00C then 0x7FFFFFFFFFF80800#64
  else if i = 0x101 then ~~~(0x1F3F#64) else if i = 0x103 then ~~~(0xFFE03F#64) else if i = 0x109 then 0x1F#64 <<< 53 else 0

/-- A value that STATUS takes: no reserved bit, and RM no reserved code (01 R18). -/
def StatusOk (x : Word) : Prop :=
  x.extractLsb' 16 48 = 0 ∧ x.extractLsb' 5 3 = 0 ∧ (x.extractLsb' 8 3).toNat < 6

/-- A value that TVEC and UXVEC take: no reserved bit, and at U no handler in the F-reserved area (01 R20). -/
def VectorOk (x : Word) (s : State) : Prop :=
  x.extractLsb' 20 44 = 0 ∧ x.getLsbD 1 = false ∧ (s.ts.status.getLsbD 0 = true ∨ (x.extractLsb' 2 18).toNat < 0x3F000)

end Sys2Proof.Claims

/-! ## Registers (01 R12, 05 R126) -/

/-- 01 R12: s0 reads zero and q0 all ones, and writes to them are discarded; every other register reads the value last written
to it, and a write leaves every other register alone. -/
def Sys2Proof.Claims.RegisterFiles : Prop :=
  ∀ (s : State),
    (∀ (d r : Reg) (x : Word), getS 0 s = 0 ∧ setS 0 x s = s ∧ (d ≠ 0 → getS d (setS d x s) = x) ∧
      (r ≠ d → getS r (setS d x s) = getS r s)) ∧
    (∀ (d r : QReg) (x : Word), getQ 0 s = BitVec.allOnes 64 ∧ setQ 0 x s = s ∧ (d ≠ 0 → getQ d (setQ d x s) = x) ∧
      (r ≠ d → getQ r (setQ d x s) = getQ r s)) ∧
    (∀ (d r : VReg) (x : VWord), getV d (setV d x s) = x ∧ (r ≠ d → getV r (setV d x s) = getV r s))

/-- 05 R126: while INUX is set, s24 to s31 and q7 name the shadow copies: a write of them leaves the main copies alone; while
it is clear, no register write reaches a shadow copy. -/
def Sys2Proof.Claims.ShadowRegisters : Prop :=
  ∀ (s : State) (d : Reg) (x y : Word),
    (s.ts.status.getLsbD 3 = true → 24 ≤ d.toNat → (setS d x s).ts.s = s.ts.s ∧
      vecGet (setS d x s).ts.shS (d.toNat - 24) = x) ∧
    (s.ts.status.getLsbD 3 = true → d.toNat < 24 → (setS d x s).ts.shS = s.ts.shS) ∧
    (s.ts.status.getLsbD 3 = false → (setS d x s).ts.shS = s.ts.shS) ∧
    (s.ts.status.getLsbD 3 = true → (setQ 7 y s).ts.q = s.ts.q ∧ (setQ 7 y s).ts.shQ7 = y) ∧
    (s.ts.status.getLsbD 3 = false → (setQ 7 y s).ts.shQ7 = s.ts.shQ7)

/-! ## Control registers and system instructions (01 R16 to R23, 05 R127 to R131) -/

/-- 01 R17, R21; 05 R127: CTLRD of every control register. MSTAT and MCTX wait for every accepted matrix operation; a read of
MELOC clears it; at U an index of 0x200 to 0x2FF takes PRIVILEGED; an unassigned one takes CTL_RESERVED. -/
def Sys2Proof.Claims.ControlRegisterReads : Prop :=
  ∀ (s : State) (d : Reg),
    (Free (useD d) s →
      (∀ p ∈ controlValues s, Computes (.ctlrd (ctl p.1) d) (useD d) d p.2 0 0 s) ∧
      (s.core.matq = [] → Computes (.ctlrd (ctl 0x00B) d) (useD d) d s.core.mstat 0 0 s ∧
        Computes (.ctlrd (ctl 0x00C) d) (useD d) d s.core.mctx 0 0 s) ∧
      (s.core.matq ≠ [] → exec (.ctlrd (ctl 0x00B) d) s = .next (setRun .stalled s) ∧
        exec (.ctlrd (ctl 0x00C) d) s = .next (setRun .stalled s)) ∧
      (s.ts.status.getLsbD 0 = true →
        Computes (.ctlrd (ctl 0x200) d) (useD d) d s.core.role 0 0 s ∧
        Computes (.ctlrd (ctl 0x201) d) (useD d) d (BitVec.ofNat 64 s.fw.profile) 0 0 s ∧
        Effects (.melocRead d) (useD d) s (setS d s.core.meloc { s with core := { s.core with meloc := 0 } }) ∧
        Effects (.ctlrd (ctl 0x202) d) (useD d) s (setS d s.core.meloc { s with core := { s.core with meloc := 0 } }))) ∧
    (s.ts.status.getLsbD 0 = false → ∀ i, 0x200 ≤ i → i < 0x300 →
      Traps (.ctlrd (ctl i) d) 2 0 ((Instr.ctlrd (ctl i) d).word.setWidth 64) false s) ∧
    (plain (useD d) s = true → ∀ i, unassigned i ∨ (s.ts.status.getLsbD 0 = true ∧ 0x203 ≤ i ∧ i < 0x300) →
      Traps (.ctlrd (ctl i) d) 3 (i % 256) 0 false s)

/-- 01 R16 to R18, R20; 05 R127: CTLWR of every index but that of LMHWM. A value that breaks a limit of a register takes CTL_RESERVED with
nothing written; a read-only register ignores a write but for a nonzero reserved field, which takes CTL_RESERVED (log entry 59: 00 R6
and 01 R16 against the table of 05 R127; bits 63:48 of SRCTR and a write of MELOC too); an unassigned index takes CTL_RESERVED, and at
U one of 0x200 to 0x2FF takes PRIVILEGED. -/
def Sys2Proof.Claims.ControlRegisterWrites : Prop :=
  ∀ (s : State) (a : Reg), (s.ts.status.getLsbD 0 = false → ∀ i, 0x200 ≤ i → i < 0x300 →
      Traps (.ctlwr (ctl i) a) 2 0 ((Instr.ctlwr (ctl i) a).word.setWidth 64) false s) ∧ (Free (useA a) s →
    let x := getS a s
    (StatusOk x → Effects (.statusWrite a) (useA a) s { s with ts := { s.ts with status := statusTaken x s.ts.status } } ∧
      Effects (.ctlwr (ctl 0x000) a) (useA a) s { s with ts := { s.ts with status := statusTaken x s.ts.status } }) ∧
    (¬ StatusOk x → Traps (.statusWrite a) 3 0 x false s ∧ Traps (.ctlwr (ctl 0x000) a) 3 0 x false s) ∧
    Effects (.ctlwr (ctl 0x001) a) (useA a) s { s with ts := { s.ts with epc := x } } ∧
    (x.extractLsb' 17 47 = 0 → Effects (.ctlwr (ctl 0x002) a) (useA a) s { s with ts := { s.ts with ecause := x } }) ∧
    (x.extractLsb' 17 47 ≠ 0 → Traps (.ctlwr (ctl 0x002) a) 3 2 x false s) ∧
    Effects (.ctlwr (ctl 0x003) a) (useA a) s { s with ts := { s.ts with eval := x } } ∧
    (VectorOk x s → Effects (.ctlwr (ctl 0x004) a) (useA a) s { s with ts := { s.ts with tvec := x } } ∧
      Effects (.ctlwr (ctl 0x005) a) (useA a) s { s with ts := { s.ts with uxvec := x } }) ∧
    (¬ VectorOk x s → Traps (.ctlwr (ctl 0x004) a) 3 4 x false s ∧ Traps (.ctlwr (ctl 0x005) a) 3 5 x false s) ∧
    Effects (.ctlwr (ctl 0x007) a) (useA a) s { s with ts := { s.ts with uxepc := x } } ∧
    (x.extractLsb' 5 59 = 0 →
      Effects (.mstatWrite a) (useA a) s { s with core := { s.core with mstat := s.core.mstat &&& ~~~x } } ∧
      Effects (.ctlwr (ctl 0x00B) a) (useA a) s { s with core := { s.core with mstat := s.core.mstat &&& ~~~x } }) ∧
    (x.extractLsb' 5 59 ≠ 0 → Traps (.mstatWrite a) 3 0x0B x false s ∧ Traps (.ctlwr (ctl 0x00B) a) 3 0x0B x false s) ∧
    (∀ i, i ∈ readOnlyIndexes ∨ (0x100 ≤ i ∧ i ≤ 0x10A) →
      (x &&& readOnlyReserved i = 0 → Effects (.ctlwr (ctl i) a) (useA a) s s) ∧
      (x &&& readOnlyReserved i ≠ 0 → Traps (.ctlwr (ctl i) a) 3 (i % 256) x false s)) ∧
    (s.ts.status.getLsbD 0 = true → ∀ i, 0x200 ≤ i → i ≤ 0x202 → Effects (.ctlwr (ctl i) a) (useA a) s s) ∧
    (∀ i, unassigned i ∨ (s.ts.status.getLsbD 0 = true ∧ 0x203 ≤ i ∧ i < 0x300) → Traps (.ctlwr (ctl i) a) 3 (i % 256) x false s))

/-- 01 R25, 20 R397, R401: CTLWR of LMHWM takes a multiple of 4,096 up to 0xFC000; a raise takes back every lent window that
begins below the new mark; a reserve bank's write is ignored. -/
def Sys2Proof.Claims.HighWaterMark : Prop :=
  ∀ (s : State) (a : Reg), Free (useA a) s → ∀ i ∈ [Instr.lmhwmWrite a, .ctlwr (ctl 0x00A) a],
    let x := getS a s
    (s.tid = 4 ∨ s.tid = 5 → Effects i (useA a) s s) ∧
    (s.tid ≠ 4 → s.tid ≠ 5 → x.toNat % 4096 = 0 → x.toNat ≤ 0xFC000 →
      Effects i (useA a) s { s with core := { s.core with
        lmhwm := x
        lent := if s.core.lmhwm.toNat < x.toNat
          then s.core.lent.map fun w => if w.base < x.toNat then { w with reclaim := true } else w
          else s.core.lent } }) ∧
    (s.tid ≠ 4 → s.tid ≠ 5 → (x.toNat % 4096 ≠ 0 ∨ 0xFC000 < x.toNat) → Traps i 3 0x0A x false s)

/-- 02 R62, 05 R129 to R131: IFENCE empties the fetch buffer; HALT at F retires, and the thread set then issues nothing until RESTART takes it to the
next word, and at U takes PRIVILEGED; RAND writes 64 bits that nothing constrains (log entry 3), and where the entropy source has failed its
health test it is a machine error, which marks the launch of a U thread set for eviction and stops one at F, and d keeps its value. -/
def Sys2Proof.Claims.SystemInstructions : Prop :=
  ∀ (s : State) (d : Reg),
    (s.ts.pc.toNat + 4 < fetchLimit s → Effects .ifence useNone s { s with ts := { s.ts with fbuf := [] } }) ∧
    (s.ts.status.getLsbD 0 = true → ∃ t, exec .halt s = .next t ∧ t.ts.run = .halted ∧
      t = { s with ts := { s.ts with live := t.ts.live, run := .halted, ticket := none, palTaken := none, trgWait := none, enqWord := none } }) ∧
    (s.ts.status.getLsbD 0 = false → Traps .halt 2 0 (Instr.halt.word.setWidth 64) false s) ∧
    (Free (useD d) s → s.core.entropyBad = false →
      Effects (.rand d) (useD d) s (setS d (Config.freeWord s.free) { s with free := s.free + 1 })) ∧
    (Free (useD d) s → s.core.entropyBad = true → s.ts.status.getLsbD 0 = false →
      ∃ t, exec (.rand d) s = .next t ∧ t = machineError 0x85 0 s ∧ t.ts = { s.ts with run := .ended } ∧
        ∀ l, launchOf (myPid s) (myLid s) s = some l → launchOf (myPid s) (myLid s) t = some (markedFatal l)) ∧
    (Free (useD d) s → s.core.entropyBad = true → s.ts.status.getLsbD 0 = true →
      exec (.rand d) s = .next { s with ts := { s.ts with run := .halted }, core := { s.core with meloc := 0 },
                                        fw := { s.fw with erred := s.here :: s.fw.erred } })

/-- The statements RegisterFiles and ShadowRegisters together. -/
def Obligations.RegistersHoldWhatIsWritten : Prop :=
  Sys2Proof.Claims.RegisterFiles ∧ Sys2Proof.Claims.ShadowRegisters

/-- The statements ControlRegisterReads, ControlRegisterWrites, HighWaterMark and SystemInstructions together.
It rests on choices of the model where the log says so: entries 3 and 59. -/
def Obligations.ControlRegisters : Prop :=
  Sys2Proof.Claims.ControlRegisterReads ∧
  Sys2Proof.Claims.ControlRegisterWrites ∧
  Sys2Proof.Claims.HighWaterMark ∧ Sys2Proof.Claims.SystemInstructions

namespace Sys2Proof.Claims

/-! ## Memory -/

/-- A load, a store or an atomic leaves everything of the thread set alone but what a retirement moves, the scalar
registers and the words that 01 R28 lets the fetch buffer keep; no operation of the part is started or ended but what the statement names. -/
def KeepsTs (s t : State) : Prop :=
  t.ts = { s.ts with s := t.ts.s, shS := t.ts.shS, fbuf := t.ts.fbuf, pc := t.ts.pc, live := t.ts.live, run := t.ts.run,
                     ticket := none, palTaken := none, trgWait := none, enqWord := none } ∧
  t.tid = s.tid ∧ t.here = s.here ∧ t.parts = s.parts ∧ t.launches = s.launches ∧ t.queues = s.queues ∧ t.msgs = s.msgs ∧
  t.tickets = s.tickets ∧ t.fw = s.fw ∧ t.optics = s.optics

/-- `i` takes the trap of a fault of its access, where one can be taken; a request that the firewall refused has been counted in FWDROP
(20 R391). -/
def Faults (i : Instr) (code detail : Nat) (ga : Word) (s : State) : Prop :=
  CanTrap s → ∃ t, exec i s = .next t ∧
    Entered code detail ga false (if fwRefused code detail ga s then countFwDrop (myPid s) s else s) t

/-- The bytes of an access size of LD and of ST (02 R51). -/
def loadSize : LdSize → Nat
  | .b | .bu => 1 | .h | .hu => 2 | .w | .wu => 4 | .d => 8
/-- See `loadSize`. -/
def storeSize : StSize → Nat
  | .b => 1 | .h => 2 | .w => 4 | .d => 8

/-- What LD writes for `x`, the little-endian value of the bytes read: sign-extended for .b, .h and .w (13 R281). -/
def loaded (z : LdSize) (x : Nat) : Word :=
  match z with
  | .b => (BitVec.ofNat 8 x).signExtend 64
  | .h => (BitVec.ofNat 16 x).signExtend 64
  | .w => (BitVec.ofNat 32 x).signExtend 64
  | .bu | .hu | .wu | .d => BitVec.ofNat 64 x

/-- Bytes `bs` stand from key `k` on, and every other byte of memory reads as before. -/
def Stored (k : Nat) (bs : List Byte) (s t : State) : Prop :=
  memRead t.mem bs.length k = bs ∧ ∀ j, (j < k ∨ k + bs.length ≤ j) → memGet t.mem j = memGet s.mem j

/-- `i` does not retire: the thread set waits at the same instruction with every register as it was, and memory unchanged. -/
def Stalls (i : Instr) (s : State) : Prop :=
  ∃ t, exec i s = .next t ∧ t.ts.pc = s.ts.pc ∧ t.ts.run = .stalled ∧ t.ts.s = s.ts.s ∧ t.ts.shS = s.ts.shS ∧
    t.ts.v = s.ts.v ∧ t.ts.q = s.ts.q ∧ t.ts.status = s.ts.status ∧ SameBytes s t

/-- No retired operation of the focused thread set on the bytes is still to be performed, and reading them meets no error. -/
def Readable (key n : Nat) (s : State) : Prop := mineAt key n s = [] ∧ readError key n s = none

/-- What reaching memory leaves of a state while the Gwerid link is up: only TLBs and walkers, caches with the directory, single errors,
correction and contention counters and the free-value counter have moved (11 R241 to R254, R258). -/
def Walked (s t : State) : Prop :=
  t = { s with tlb := t.tlb, free := t.free, soft := t.soft, l1soft := t.l1soft, l2 := t.l2, dir := t.dir, hostOld := t.hostOld,
               core := t.core, cores := t.cores } ∧
  ∀ c, getCore c t = { getCore c s with l1 := (getCore c t).l1, amoLines := (getCore c t).amoLines, pred := (getCore c t).pred,
                                        corr := (getCore c t).corr }

/-- What the landing of a write moves while the Gwerid link is up: memory and the marks of its errors, what `Walked` lets move, and of
the thread sets the words that 01 R28 lets their fetch buffers keep. -/
def LandedIn (s t : State) : Prop :=
  t = { s with mem := t.mem, bad := t.bad, soft := t.soft, l1bad := t.l1bad, l1soft := t.l1soft, poison := t.poison, l2 := t.l2,
               dir := t.dir, hostOld := t.hostOld, free := t.free, ts := { s.ts with fbuf := t.ts.fbuf }, core := t.core, cores := t.cores } ∧
  ∀ c, getCore c t = { getCore c s with l1 := (getCore c t).l1, amoLines := (getCore c t).amoLines, pred := (getCore c t).pred,
                                        corr := (getCore c t).corr, tsets := (getCore c t).tsets } ∧
    ∀ i, i < 7 → vecGet (getCore c t).tsets i =
      { vecGet (getCore c s).tsets i with fbuf := (vecGet (getCore c t).tsets i).fbuf }

/-- A retired store of the focused thread set to memory, as it stands among the operations still to be performed. -/
def storeEntry (key pa : Nat) (cls : Cls) (ga : Word) (bs : List Byte) (id : Nat) (s : State) : Pend :=
  { id := id, core := s.here, tid := s.tid, pid := myPid s, lid := myLid s, cls := cls, key := key, pa := pa, ga := ga,
    slot := none, seen := false, cached := false, pal := none, rel := none, acq := none, op := .store bs }

/-- The atomic operations of 13 R292 with a placement: whether AMOCAS, the bytes acted on, and what is written over the old value
`o` for operand `x` and comparand `c`, none where AMOCAS fails. -/
def atomicForms (pl : AmoPlace) :
    List ((Order → Bool → Pal → Reg → Reg → Reg → Instr) × (Bool × Nat × (Nat → Nat → Nat → Option Nat))) :=
  let n64 (x : Nat) : Int := (BitVec.ofNat 64 x).toInt
  let names : List (Order → Bool → Pal → Reg → Reg → Reg → Instr) := match pl with
    | .auto => [.amoaddAuto, .amominAuto, .amomaxAuto, .amominuAuto, .amomaxuAuto, .amofaddSAuto, .amofaddDAuto, .amoandAuto,
                .amoorAuto, .amoxorAuto, .amoswapAuto, .amocasAuto]
    | .loc => [.amoaddLoc, .amominLoc, .amomaxLoc, .amominuLoc, .amomaxuLoc, .amofaddSLoc, .amofaddDLoc, .amoandLoc,
               .amoorLoc, .amoxorLoc, .amoswapLoc, .amocasLoc]
    | .home => [.amoaddHome, .amominHome, .amomaxHome, .amominuHome, .amomaxuHome, .amofaddSHome, .amofaddDHome,
                .amoandHome, .amoorHome, .amoxorHome, .amoswapHome, .amocasHome]
  names.zip
    [(false, 8, fun o x _ => some ((o + x) % 2 ^ 64)),
     (false, 8, fun o x _ => some (if n64 o ≤ n64 x then o else x)),
     (false, 8, fun o x _ => some (if n64 x ≤ n64 o then o else x)),
     (false, 8, fun o x _ => some (if o ≤ x then o else x)), (false, 8, fun o x _ => some (if x ≤ o then o else x)),
     (false, 4, fun o x _ => some (faddV .f32 .rne (fdecode .f32 o) (fdecode .f32 x) 0).1),
     (false, 8, fun o x _ => some (faddV .f64 .rne (fdecode .f64 o) (fdecode .f64 x) 0).1),
     (false, 8, fun o x _ => some (o &&& x)), (false, 8, fun o x _ => some (o ||| x)),
     (false, 8, fun o x _ => some (o ^^^ x)), (false, 8, fun _ x _ => some x),
     (true, 8, fun o x c => if o = c then some x else none)]

/-- What an operation writes over the little-endian value of its bytes: the result, or nothing. -/
def Rewritten (key w : Nat) (y : Option Nat) (s t : State) : Prop :=
  match y with
  | some v => Stored key (leBytes w v) s t
  | none => SameBytes s t

end Sys2Proof.Claims

/-! ## Loads and stores (11 R236 to R246; 12 R261; 13 R281 to R283) -/

/-- 01 R24, 11 R236, R246: an aligned access of thread sets 0 to 3 through aperture 0x400 reaches the core's own local memory at
its offset; one that is not aligned takes ALIGN, and one at U that runs into the F-reserved area ACCESS. -/
def Sys2Proof.Claims.LocalMemoryAperture : Prop :=
  ∀ (s : State) (k : Kind) (n off : Nat) (ver : VerUse), 0 < n → off < 2 ^ 20 → s.tid < 4 → s.core.lent = [] →
    s.ts.palHold = [] → s.pend = [] →
    let ga : Word := BitVec.ofNat 64 (0x400 * 2 ^ 53 + off)
    (2 ^ 53 % n = 0 → off % n = 0 → off + n ≤ 0xFC000 →
      reach k n ga ver none s = .mem s (lmKey s.here off) .lm 0 0) ∧
    (2 ^ 53 % n = 0 → off % n ≠ 0 → reach k n ga ver none s = .fault s 0x20 k.bits) ∧
    (2 ^ 53 % n = 0 → off % n = 0 → 0xFC000 < off + n → s.ts.status.getLsbD 0 = false →
      reach k n ga ver none s = .fault s 0x21 (4 + k.bits))

/-- 13 R281, R282; 12 R261: LD delivers the little-endian value of the bytes it reads, extended as its size says; where an own
store of the same bytes is still to be performed, it delivers that store's value; a line word or configuration word of the event
unit and a firmware register are read by LD.d alone (08 R189, 25 R466); a fault of the access is taken with the generic address in
EVAL; an access that must wait leaves the instruction unretired; a read of an uncorrectable word, or of a table entry that is one, is
a machine error (11 R258). No byte of memory changes. GweridLink says what a down link does. -/
def Sys2Proof.Claims.Loads : Prop :=
  ∀ (s : State) (z : LdSize) (d base : Reg) (off : BitVec 12), Free (useAD d base) s → s.gwerid = .up →
    let ga : Word := getS base s + off.signExtend 64
    let n := loadSize z
    (∀ t key cls e pa, reach .load n ga .either none s = .mem t key cls e pa → Readable key n t →
      ∃ u, exec (.ld z d base off) s = .next u ∧ Retired (useAD d base) s u ∧
        WritesReg d (loaded z (leValue (memRead s.mem n key))) s u ∧ KeepsTs s u ∧ u.pend = s.pend ∧ SameBytes s u) ∧
    (∀ t key cls e pa p bs, reach .load n ga .either none s = .mem t key cls e pa → mineAt key n t = [p] →
      readError key n t = none → p.op = .store bs → p.key = key → bs.length = n → p.slot = none → p.windowHeld t = false →
      ∃ u, exec (.ld z d base off) s = .next u ∧ Retired (useAD d base) s u ∧ WritesReg d (loaded z (leValue bs)) s u ∧
        KeepsTs s u ∧ u.pend = s.pend ∧ SameBytes s u) ∧
    (∀ t key cls e pa x, reach .load n ga .either none s = .mem t key cls e pa → mineAt key n t = [] →
      readError key n t = some x → exec (.ld z d base off) s = .next (machineError x.1 x.2 s)) ∧
    (∀ code loc, reach .load n ga .either none s = .merr code loc → exec (.ld z d base off) s = .next (machineError code loc s)) ∧
    (∀ key, reach .load n ga .either none s = .const key → readError key n s = none →
      ∃ u, exec (.ld z d base off) s = .next u ∧ Retired (useAD d base) s u ∧
        WritesReg d (loaded z (leValue (memRead s.mem n key))) s u ∧ KeepsTs s u ∧ u.pend = s.pend ∧ SameBytes s u) ∧
    (∀ line cfg, reach .load n ga .either none s = .event line cfg →
      (n = 8 → lineMine line s = true → Effects (.ld z d base off) (useAD d base) s
        (setS d (if cfg then (lineOf s.here line s).cfg else (lineOf s.here line s).word) s)) ∧
      (n ≠ 8 ∨ lineMine line s = false → Faults (.ld z d base off) 0x21 16 ga s)) ∧
    (∀ block o, reach .load n ga .either none s = .fw block o →
      (∀ r, n = 8 → Config.fwBlock block o = some r →
        Effects (.ld z d base off) (useAD d base) s (setS d (readFwReg r s).1 (readFwReg r s).2)) ∧
      (n ≠ 8 ∨ Config.fwBlock block o = none → Faults (.ld z d base off) 0x21 16 ga s)) ∧
    (∀ t code detail, code < 256 → detail < 256 → reach .load n ga .either none s = .fault t code detail →
      Faults (.ld z d base off) code detail ga s) ∧
    (∀ t, reach .load n ga .either none s = .wait t → Stalls (.ld z d base off) s)

/-- 13 R281 to R283: ST writes no register. Into memory that is not the core's own, or where a window or an earlier store holds it,
the store retires first: its bytes join the operations still to be performed, and memory is unchanged; into the core's own local memory
with nothing to hold it the bytes land at once, and every other byte is unchanged. A configuration word of the event unit and a firmware
register take ST.d alone (08 R190, 25 R466). What else may move is named; GweridLink says what a down link does.
It rests on choices of the model where the log says so: entry 6. -/
def Obligations.Stores : Prop :=
  ∀ (s : State) (z : StSize) (d base : Reg) (off : BitVec 12), Free (withMore (useA base) [.s d]) s →
    Memory.wf s.mem = true → s.gwerid = .up →
    let i : Instr := .st z d base off
    let u := withMore (useA base) [.s d]
    let ga : Word := getS base s + off.signExtend 64
    let n := storeSize z
    let bs := leBytes n (getS d s).toNat
    (∀ t key cls e pa, reach .store n ga .forbid none s = .mem t key cls e pa → Walked s t ∧
      (landsNow key n t = false → SameBytes s t ∧ ∃ fb, (¬ (isLmKey key = true ∧ lmCore key = s.here) → fb = []) ∧
        Effects i u s { t with ts := { t.ts with fbuf := t.ts.fbuf ++ fb }, pend := s.pend ++ [storeEntry key pa cls ga bs s.seq s],
                               seq := s.seq + 1 }) ∧
      (landsNow key n t = true →
        Effects i u s (land key bs 4 t) ∧ Stored key bs s (land key bs 4 t) ∧ LandedIn t (land key bs 4 t))) ∧
    (∀ line cfg, reach .store n ga .forbid none s = .event line cfg →
      let taken : Prop := n = 8 ∧ cfg = true ∧ lineMine line s = true ∧ evCfgOk (getS d s) s = true
      (taken → Effects i u s (storeEvCfg line (getS d s) s)) ∧ (¬ taken → Faults i 0x21 17 ga s)) ∧
    (∀ block o, reach .store n ga .forbid none s = .fw block o →
      (∀ r, n = 8 → Config.fwBlock block o = some r → Effects i u s (writeFwReg r (getS d s) s)) ∧
      (n ≠ 8 ∨ Config.fwBlock block o = none → Faults i 0x21 17 ga s)) ∧
    (∀ t code detail, code < 256 → detail < 256 → reach .store n ga .forbid none s = .fault t code detail → Faults i code detail ga s) ∧
    (∀ code loc, reach .store n ga .forbid none s = .merr code loc → exec i s = .next (machineError code loc s)) ∧
    (∀ t, reach .store n ga .forbid none s = .wait t → Stalls i s)

/-- 13 R283: a retired store whose turn has come is performed: its bytes land (in the image that a save frame holds, where the core
whose local memory it is has been pre-empted from its launch), every other byte stays, and it is no longer among the operations still
to be performed; a store whose turn has not come stays. -/
def Sys2Proof.Claims.StoreIsPerformed : Prop :=
  ∀ (s : State) (n : Nat) (p : Pend) (bs : List Byte), nth? s.pend n = some p → p.op = .store bs → Memory.wf s.mem = true →
    s.gwerid = .up →
    (performable (s.pend.take n) p s = true → storeLost (p.placed s).key bs.length s = false →
      ∃ t, exec (.storePerform n) s = .next t ∧ Stored (p.placed s).key bs s t ∧ t.pend = dropNth s.pend n ∧ t.launches = s.launches) ∧
    (performable (s.pend.take n) p s = false → exec (.storePerform n) s = .next s)

/-! ## Atomics (11 R255, 13 R292 to R294) -/

/-- 13 R292 to R294: a returning atomic delivers the old value of its bytes to d and writes the operation's result over them,
leaving every other byte and register alone; AMOCAS that finds another value than d writes nothing. It waits, unretired, for the thread
set's own operations on its bytes, for a window, for what its release covers, and while the mesh holds its request or reply (22 R415,
R417); an uncorrectable word is a machine error. -/
def Sys2Proof.Claims.ReturningAtomics : Prop :=
  ∀ (s : State) (pl : AmoPlace) (o : Order) (p : Pal) (d a c : Reg), Memory.wf s.mem = true → s.gwerid = .up →
    ∀ f ∈ atomicForms pl, ∀ t key cls e pa,
      let w := f.2.2.1
      let u := useAmo f.2.1 true d a c
      let waits : Prop := mineAt key w t ≠ [] ∨ windowHeld s.here key w t = true ∨ releaseReady o p t = false ∨
        amoWait key (amoCls pl cls pa t) pa t = true
      plain u s = true → s.ts.pc.toNat + 4 < fetchLimit s →
      reachAs (fun cls pa => amoCls pl cls pa s) .atomic w (getS a s) .forbid (some p.toNat) s = .mem t key cls e pa →
      (waits → Stalls (f.1 o true p d a c) s) ∧
      (∀ x, ¬ waits → readError key w t = some x → exec (f.1 o true p d a c) s = .next (machineError x.1 x.2 t)) ∧
      (¬ waits → readError key w t = none →
        ∃ x, exec (f.1 o true p d a c) s = .next x ∧ WritesReg d (BitVec.ofNat 64 (memValue s.mem w key)) s x ∧
          Retired u s x ∧ KeepsTs s x ∧ x.pend = s.pend ∧
          Rewritten key w (f.2.2.2 (memValue s.mem w key) ((getS c s).toNat % 2 ^ (8 * w)) (getS d s).toNat) s x)

/-- 12 R260, 13 R294: an atomic that returns no value retires at once: it joins the operations still to be performed in the class
its placement gives it, with its palette entry and order, and changes no byte and no register. -/
def Sys2Proof.Claims.PostedAtomics : Prop :=
  ∀ (s : State) (pl : AmoPlace) (o : Order) (p : Pal) (d a c : Reg), s.gwerid = .up →
    ∀ f ∈ atomicForms pl, ∀ t key cls e pa,
      let w := f.2.2.1
      let u := useAmo f.2.1 false d a c
      plain u s = true → s.ts.pc.toNat + 4 < fetchLimit s →
      reachAs (fun cls pa => amoCls pl cls pa s) .atomic w (getS a s) .forbid (some p.toNat) s = .mem t key cls e pa →
      ∃ x q, exec (f.1 o false p d a c) s = .next x ∧ Retired u s x ∧ (∀ r, getS r x = getS r s) ∧ KeepsTs s x ∧
        SameBytes s x ∧ x.pend = s.pend ++ [q] ∧ q.key = key ∧ q.pa = pa ∧ q.core = s.here ∧ q.tid = s.tid ∧
        q.cls = amoCls pl cls pa t ∧ q.pal = some (p.toNat, palGen p.toNat t) ∧ q.rel = relCover o p t ∧ q.acq = acqCover o p t ∧
        ∃ op h, q.op = .amo op w ((getS c s).toNat % 2 ^ (8 * w)) (getS d s).toNat h ∧
          ∀ old, amoNew op w old ((getS c s).toNat % 2 ^ (8 * w)) (getS d s).toNat =
            f.2.2.2 old ((getS c s).toNat % 2 ^ (8 * w)) (getS d s).toNat

/-- 11 R246, 13 R293: an atomic takes the faults of its access, of kind 2, with the generic address in EVAL, and has no other
effect; to the constant bank it takes ACCESS. -/
def Sys2Proof.Claims.AtomicFaults : Prop :=
  ∀ (s : State) (pl : AmoPlace) (o : Order) (ret : Bool) (p : Pal) (d a c : Reg), ∀ f ∈ atomicForms pl,
    let w := f.2.2.1
    let at_ := reachAs (fun cls pa => amoCls pl cls pa s) .atomic w (getS a s) .forbid (some p.toNat) s
    plain (useAmo f.2.1 ret d a c) s = true →
    (∀ t code detail, code < 256 → detail < 256 → at_ = .fault t code detail → Faults (f.1 o ret p d a c) code detail (getS a s) s) ∧
    (s.ts.palHold = [] → (getS a s).extractLsb' 12 52 = 0x403#52 <<< 41 → (getS a s).toNat % w = 0 →
      Traps (f.1 o ret p d a c) 0x21 14 (getS a s) false s) ∧
    (∀ l cfg, at_ = .event l cfg → Traps (f.1 o ret p d a c) 0x21 18 (getS a s) false s) ∧
    (∀ b x, at_ = .fw b x → Traps (f.1 o ret p d a c) 0x21 18 (getS a s) false s)

/-- 13 R291, R294: a retired atomic or RECL whose turn has come is performed: an atomic writes its result over the value that
memory then holds, a RECL retires the versions below its bound, and the operation is no longer among those to be performed;
one whose turn has not come stays. -/
def Sys2Proof.Claims.AtomicIsPerformed : Prop :=
  ∀ (s : State) (n : Nat) (p : Pend), nth? s.pend n = some p → Memory.wf s.mem = true → s.gwerid = .up →
    (performable (s.pend.take n) p s = false → exec (.amoPerform n) s = .next s) ∧
    (performable (s.pend.take n) p s = true →
      (∀ op w x c h, p.op = .amo op w x c h → readError (p.placed s).key w s = none →
        ∃ t, exec (.amoPerform n) s = .next t ∧ t.pend = dropNth s.pend n ∧
          Rewritten (p.placed s).key w (amoNew op w (memValue s.mem w (p.placed s).key) x c) s t) ∧
      (∀ b, p.op = .recl b → readError p.key 8 s = none →
        ∃ t, exec (.amoPerform n) s = .next t ∧ t.pend = dropNth s.pend n ∧ SameBytes s t ∧
          ∀ v, s.versions.find? (fun w => w.pa == p.pa) = some v →
            (t.versions.find? fun w => w.pa == p.pa) = some { v with live := v.live.filter fun q => !precedes q.1 b || q.1 == v.n }))

/-- The statements LocalMemoryAperture and Loads together.
It rests on choices of the model where the log says so: entry 6. -/
def Obligations.LoadsReadTheirBytes : Prop :=
  Sys2Proof.Claims.LocalMemoryAperture ∧ Sys2Proof.Claims.Loads

/-- The statements ReturningAtomics, PostedAtomics and AtomicFaults together.
It rests on choices of the model where the log says so: entry 6. -/
def Obligations.AtomicInstructions : Prop :=
  Sys2Proof.Claims.ReturningAtomics ∧ Sys2Proof.Claims.PostedAtomics ∧ Sys2Proof.Claims.AtomicFaults

/-- The statements StoreIsPerformed and AtomicIsPerformed together.
It rests on choices of the model where the log says so: entries 6 and 43. -/
def Obligations.RetiredOperationsArePerformed : Prop :=
  Sys2Proof.Claims.StoreIsPerformed ∧ Sys2Proof.Claims.AtomicIsPerformed

namespace Sys2Proof.Claims

/-! ## Vectors -/

/-- Element i of a vector register, for elements of w bytes (06 R133). -/
def lane (w i : Nat) (x : VWord) : BitVec (8 * w) := x.extractLsb' (8 * w * i) (8 * w)

/-- Element i of w bytes is active under predicate `q`: bit i × w of the mask, all ones for q0 (01 R14). -/
def laneOn (q : QReg) (w i : Nat) (s : State) : Prop := (getQ q s).getLsbD (i * w) = true

/-- Everything is as before but vector register `d`, STATUS, SRCTR and the fields that every retirement moves. -/
def OnlyVector (d : VReg) (s t : State) : Prop :=
  t = { s with ts := { s.ts with v := t.ts.v, status := t.ts.status, srctr := t.ts.srctr, pc := t.ts.pc, live := t.ts.live,
                                 run := t.ts.run, ticket := none, palTaken := none, trgWait := none, enqWord := none } } ∧
  (∀ r, r ≠ d → getV r t = getV r s) ∧ (∀ r, getS r t = getS r s) ∧ SameBytes s t

/-- `i` retires having given each active element of vd the value `f i` and left its other elements alone, accrued `fl`,
consumed `k` draws, and changed nothing else beyond what `s0` has changed already (06 R134). -/
def FillsOn (s0 : State) (i : Instr) (u : Use) (q : QReg) (d : VReg) (w : Nat) (f : Nat → BitVec (8 * w)) (fl : FFlags) (k : Nat)
    (s : State) : Prop :=
  ∃ t, exec i s = .next t ∧ Retired u s t ∧
    (∀ n, n < 64 / w → (laneOn q w n s → lane w n (getV d t) = f n) ∧ (¬ laneOn q w n s → lane w n (getV d t) = lane w n (getV d s))) ∧
    Accrues fl k s t ∧ OnlyVector d s0 t

/-- `i` retires having given each active element of vd the value `f i` and left its other elements alone, accrued `fl`,
consumed `k` draws, and changed nothing else (06 R134). -/
def Fills (i : Instr) (u : Use) (q : QReg) (d : VReg) (w : Nat) (f : Nat → BitVec (8 * w)) (fl : FFlags) (k : Nat)
    (s : State) : Prop := FillsOn s i u q d w f fl k s

/-- `x` brought into the range of a signed or an unsigned number of n bits. -/
def clampTo (signed : Bool) (n : Nat) (x : Int) : BitVec n :=
  let lo : Int := if signed then -(2 ^ (n - 1)) else 0
  let hi : Int := if signed then 2 ^ (n - 1) - 1 else 2 ^ n - 1
  BitVec.ofInt n (if x < lo then lo else if hi < x then hi else x)

/-- The integer element operations of 06 R138, with the types that each one takes. -/
def integerLanes (t : VTy) (q : QReg) (d a b : VReg) : List (Instr × ((n : Nat) → BitVec n → BitVec n → BitVec n)) :=
  [(.vadd t q d a b, fun _ x y => x + y), (.vsub t q d a b, fun _ x y => x - y), (.vmul t q d a b, fun _ x y => x * y),
   (.vmulh t q d a b, fun n x y => BitVec.ofInt n (x.toInt * y.toInt / 2 ^ n)),
   (.vmulhU t q d a b, fun n x y => BitVec.ofNat n (x.toNat * y.toNat / 2 ^ n)),
   (.vdiv t q d a b, fun n x y => if y = 0 then BitVec.allOnes n else BitVec.ofInt n (x.toInt.tdiv y.toInt)),
   (.vdivU t q d a b, fun n x y => if y = 0 then BitVec.allOnes n else x / y),
   (.vmin t q d a b, fun _ x y => if x.toInt ≤ y.toInt then x else y),
   (.vmax t q d a b, fun _ x y => if y.toInt ≤ x.toInt then x else y),
   (.vminU t q d a b, fun _ x y => if x.toNat ≤ y.toNat then x else y),
   (.vmaxU t q d a b, fun _ x y => if y.toNat ≤ x.toNat then x else y),
   (.vaddSs t q d a b, fun n x y => clampTo true n (x.toInt + y.toInt)),
   (.vsubSs t q d a b, fun n x y => clampTo true n (x.toInt - y.toInt)),
   (.vaddUs t q d a b, fun n x y => clampTo false n ((x.toNat : Int) + y.toNat)),
   (.vsubUs t q d a b, fun n x y => clampTo false n ((x.toNat : Int) - y.toNat)),
   (.vshl t q d a b, fun n x y => x <<< (y.toNat % n)), (.vshr t q d a b, fun n x y => x >>> (y.toNat % n)),
   (.vsra t q d a b, fun n x y => x.sshiftRight (y.toNat % n))]

/-- The element operations that act on encodings of every type (06 R138). -/
def bitLanes (t : VTy) (q : QReg) (d a b : VReg) : List (Instr × ((n : Nat) → BitVec n → BitVec n → BitVec n)) :=
  [(.vand t q d a b, fun _ x y => x &&& y), (.vor t q d a b, fun _ x y => x ||| y), (.vxor t q d a b, fun _ x y => x ^^^ y)]

/-- The number of active elements below element i. -/
def activeBelow (q : QReg) (w : Nat) (s : State) : Nat → Nat
  | 0 => 0
  | i + 1 => activeBelow q w s i + (if (getQ q s).getLsbD (i * w) then 1 else 0)

/-- The flags of the active elements among the first n. -/
def flagsBelow (q : QReg) (w : Nat) (s : State) (f : Nat → FFlags) : Nat → FFlags
  | 0 => 0
  | i + 1 => flagsBelow q w s f i ||| (if (getQ q s).getLsbD (i * w) then f i else 0)

/-- `i` retires having given each active element of vd the value `f i k`, where k is the draw of that element under SR: active
elements draw in ascending order, `dr` draws each (04 R93, 06 R134). Flags `extra` accrue with those of the active elements. -/
def FillsRoundedOn (s0 : State) (i : Instr) (u : Use) (q : QReg) (d : VReg) (w dr : Nat) (f : Nat → Nat → Nat × FFlags)
    (extra : FFlags) (s : State) : Prop :=
  let r (n : Nat) := f n (drawFor (rmOf s) (dr * activeBelow q w s n) s)
  FillsOn s0 i u q d w (fun n => BitVec.ofNat (8 * w) (r n).1) (flagsBelow q w s (fun n => (r n).2) (64 / w) ||| extra)
    (dr * activeBelow q w s (64 / w)) s

/-- See `FillsRoundedOn`. -/
def FillsRounded (i : Instr) (u : Use) (q : QReg) (d : VReg) (w dr : Nat) (f : Nat → Nat → Nat × FFlags) (extra : FFlags)
    (s : State) : Prop := FillsRoundedOn s i u q d w dr f extra s

/-- The floating-point element operations of 06 R138 that round. -/
def roundingLanes (t : VTy) (q : QReg) (d a b : VReg) : List (Instr × (FFmt → Rnd → FVal → FVal → Nat → Nat × FFlags)) :=
  [(.vadd t q d a b, fun f m x y k => faddV f m x y k), (.vsub t q d a b, fun f m x y k => faddV f m x y.neg k),
   (.vmul t q d a b, fun f m x y k => fmulV f m x y k), (.vdiv t q d a b, fun f m x y k => fdivV f m x y k)]

/-- The broadcast value of a 32-bit literal or constant with its flags (02 R56): sign-extended for I types, and for F types
read as FP32 and converted. -/
def spread (t : VTy) (x : W32) : Nat × FFlags :=
  match vFmt t with
  | none => ((x.signExtend 64).toNat % 2 ^ (8 * vWidth t), 0)
  | some f => convertFloat f .rne (fdecode .f32 x.toNat) 0

/-- The forms of 06 R140 with a constant, each with its registers, its predicate, the 32 bits of its constant, and the place of a
constant-bank entry. -/
def constantLanes (t : VTy) (q : QReg) (d a : VReg) (l : W32) (k : BitVec 10) (s : State) :
    List (Bool × Instr × Use × QReg × W32 × Option Nat) :=
  [(false, .vmulL t q d a l, withLit (useVV d a), q, l, none),
   (true, .vfmaL t q d a l, withMore (withLit (useVV d a)) [.v d], q, l, none),
   (false, .vmulK t d a k, useVV d a, 0, constEntry k s, some (constEntryKey k s)),
   (true, .vfmaK t d a k, withMore (useVV d a) [.v d], 0, constEntry k s, some (constEntryKey k s))]

/-- What reading a constant does where it is an entry: a single-bit error of a penumbra context's bank is corrected (01 R24). -/
def afterConstant (at_ : Option Nat) (s : State) : State :=
  match at_ with
  | none => s
  | some k => correct k 4 s

/-- The machine error of reading a constant where it is an entry (01 R24). -/
def constantError (at_ : Option Nat) (s : State) : Option (Nat × Word) := at_.bind fun k => readError k 4 s

/-- The comparisons of 06 R141 on I types. -/
def integerCompares (t : VTy) (q d : QReg) (a b : VReg) : List (Instr × ((n : Nat) → BitVec n → BitVec n → Bool)) :=
  [(.vcmpEq t q d a b, fun _ x y => decide (x = y)), (.vcmpNe t q d a b, fun _ x y => decide (x ≠ y)),
   (.vcmpLt t q d a b, fun _ x y => decide (x.toInt < y.toInt)), (.vcmpLe t q d a b, fun _ x y => decide (x.toInt ≤ y.toInt)),
   (.vcmpLtu t q d a b, fun _ x y => decide (x.toNat < y.toNat)),
   (.vcmpLeu t q d a b, fun _ x y => decide (x.toNat ≤ y.toNat))]

/-- The comparisons of 06 R141 on F types: the answer, and whether a quiet NaN sets NV as a signalling one does. -/
def floatCompares (t : VTy) (q d : QReg) (a b : VReg) : List (Instr × (FVal → FVal → Bool) × Bool) :=
  [(.vcmpEq t q d a b, fun x y => x.eq y, false), (.vcmpNe t q d a b, fun x y => !x.eq y, false),
   (.vcmpLt t q d a b, fun x y => x.lt y, true), (.vcmpLe t q d a b, fun x y => x.lt y || x.eq y, true),
   (.vcmpUn t q d a b, fun x y => x.isNaN || y.isNaN, false)]

/-- Mask register `d` is written with `m` (a write of q0 is discarded), and every other mask register keeps its value. -/
def WritesMask (d : QReg) (m : Word) (s t : State) : Prop :=
  getQ d t = (if d = 0 then BitVec.allOnes 64 else m) ∧ ∀ r, r ≠ d → getQ r t = getQ r s

/-- Everything is as before but the mask registers with their shadow, STATUS and the fields that every retirement moves. -/
def OnlyMask (s t : State) : Prop :=
  t = { s with ts := { s.ts with q := t.ts.q, shQ7 := t.ts.shQ7, status := t.ts.status, pc := t.ts.pc, live := t.ts.live,
                                 run := t.ts.run, ticket := none, palTaken := none, trgWait := none, enqWord := none } } ∧ SameBytes s t

/-- `i` retires having written to qd the mask of the elements for which `f` holds: every bit of an active element's w bits
tells the answer, every other bit is 0; `fl` accrues (06 R141). -/
def Compares (i : Instr) (q d : QReg) (a b : VReg) (w : Nat) (f : Nat → Bool) (fl : FFlags) (s : State) : Prop :=
  ∃ t m, exec i s = .next t ∧ Retired { useVVV 0 a b with w := none } s t ∧ WritesMask d m s t ∧
    (∀ n, n < 64 → m.getLsbD n = ((getQ q s).getLsbD (n / w * w) && f (n / w))) ∧ Accrues fl 0 s t ∧ OnlyMask s t

/-- The registers of an instruction that reads a vector register and writes a scalar one. -/
def useSV (d : Reg) (a : VReg) : Use := { len := 4, a := some (.v a), b := none, more := [], w := some (.s d) }

/-- The reductions of 06 R146, with the combining operation of each. -/
def reductionForms (t : VTy) (q : QReg) (d : Reg) (a : VReg) : List (Instr × VComb) :=
  [(.vredAdd t q d a, .add), (.vredMin t q d a, .min), (.vredMax t q d a, .max), (.vredMinu t q d a, .minu),
   (.vredMaxu t q d a, .maxu), (.vredAnd t q d a, .and), (.vredOr t q d a, .or), (.vredXor t q d a, .xor)]

/-- The identity and the combination of a reduction of integers of n bits (04 R100). -/
def integerComb (c : VComb) (n : Nat) : BitVec n × (BitVec n → BitVec n → BitVec n) :=
  match c with
  | .add => (0, fun x y => x + y)
  | .min => (BitVec.ofNat n (2 ^ (n - 1) - 1), fun x y => if x.toInt ≤ y.toInt then x else y)
  | .max => (BitVec.ofNat n (2 ^ (n - 1)), fun x y => if y.toInt ≤ x.toInt then x else y)
  | .minu => (BitVec.allOnes n, fun x y => if x.toNat ≤ y.toNat then x else y)
  | .maxu => (0, fun x y => if y.toNat ≤ x.toNat then x else y)
  | .and => (BitVec.allOnes n, fun x y => x &&& y)
  | .or => (0, fun x y => x ||| y)
  | .xor => (0, fun x y => x ^^^ y)

/-- The elements of va with inactive ones replaced by `e`, element 0 first. -/
def inputs (q : QReg) (w : Nat) (e : BitVec (8 * w)) (x : VWord) (s : State) : List (BitVec (8 * w)) :=
  (List.range (64 / w)).map fun i => if (getQ q s).getLsbD (i * w) then lane w i x else e

/-- Output i of a scan of an F type (06 R147): the first input, then each input combined with the output before it; one step
draws `dr` times; the flags of the outputs that go to an active element. -/
def scanned (op : Nat → Nat → Nat → Nat × FFlags) (dr : Nat) (x : Nat → Nat) (on : Nat → Bool) : Nat → Nat × FFlags
  | 0 => (x 0, 0)
  | i + 1 =>
    let y := scanned op dr x on i
    let z := op (dr * i) y.1 (x (i + 1))
    (z.1, y.2 ||| (if on (i + 1) then z.2 else 0))

/-- A product of two elements of an integer dot product. -/
def dotTerm (unsigned : Bool) (w i : Nat) (x y : BitVec 32) : Int :=
  let a := x.extractLsb' (8 * w * i) (8 * w)
  let b := y.extractLsb' (8 * w * i) (8 * w)
  if unsigned then (a.toNat : Int) * b.toNat else a.toInt * b.toInt

/-- The sum of the products of one 32-bit lane of an integer dot product (06 R148). -/
def dotSum (unsigned : Bool) (w : Nat) (x y : BitVec 32) : Nat → Int
  | 0 => 0
  | n + 1 => dotSum unsigned w x y n + dotTerm unsigned w n x y

/-- Bit k of the carry-less product of two 64-bit numbers (06 R149): the parity of the pairs of ones whose places add up to k. -/
def clBit (x y : BitVec 64) (k : Nat) : Nat → Bool
  | 0 => false
  | i + 1 => (x.getLsbD i && decide (i ≤ k) && y.getLsbD (k - i)) ^^ clBit x y k i

end Sys2Proof.Claims

/-! ## Vector instructions (06 R133 to R149) -/

/-- 06 R134, R138, R149: the element-wise operations on I types, and those on encodings of every type, act on each active
element, keep the others, and change no flag and nothing else. -/
def Sys2Proof.Claims.VectorIntegerOperations : Prop :=
  ∀ (s : State) (t : VTy) (q : QReg) (d a b : VReg),
    let w := vWidth t
    (Free (useVVV d a b) s →
      (vFmt t = none → ∀ p ∈ integerLanes t q d a b,
        Fills p.1 (useVVV d a b) q d w (fun i => p.2 (8 * w) (lane w i (getV a s)) (lane w i (getV b s))) 0 0 s) ∧
      (∀ p ∈ bitLanes t q d a b,
        Fills p.1 (useVVV d a b) q d w (fun i => p.2 (8 * w) (lane w i (getV a s)) (lane w i (getV b s))) 0 0 s)) ∧
    (Free (useVV d a) s →
      Fills (.vabs t q d a) (useVV d a) q d w (fun i =>
        let x := lane w i (getV a s)
        if (vFmt t).isSome then x &&& ~~~(1#(8 * w) <<< (8 * w - 1)) else if x.msb then -x else x) 0 0 s ∧
      Fills (.vpopc t q d a) (useVV d a) q d w (fun i =>
        BitVec.ofNat (8 * w) (onesBelow ((lane w i (getV a s)).setWidth 64) (8 * w))) 0 0 s) ∧
    (vFmt t = none → Free (withMore (useVVV d a b) [.v d]) s →
      let x i := lane w i (getV a s) * lane w i (getV b s)
      Fills (.vfma t q d a b) (withMore (useVVV d a b) [.v d]) q d w (fun i => x i + lane w i (getV d s)) 0 0 s ∧
      Fills (.vfms t q d a b) (withMore (useVVV d a b) [.v d]) q d w (fun i => x i - lane w i (getV d s)) 0 0 s)

/-- 06 R134, R135, R138 to R140; 04 R93: the element-wise operations on F types round under STATUS.RM, draw in ascending order
of the active elements under SR, and accrue the flags of the active elements and of a broadcast constant. -/
def Sys2Proof.Claims.VectorFloatOperations : Prop :=
  ∀ (s : State) (t : VTy) (q : QReg) (d a b : VReg) (f : FFmt), vFmt t = some f →
    let w := vWidth t
    let m := rmOf s
    let at_ (r : VReg) (i : Nat) := fdecode f (lane w i (getV r s)).toNat
    (Free (useVVV d a b) s →
      (∀ p ∈ roundingLanes t q d a b,
        FillsRounded p.1 (useVVV d a b) q d w (drawsOf m) (fun i k => p.2 f m (at_ a i) (at_ b i) k) 0 s) ∧
      FillsRounded (.vmin t q d a b) (useVVV d a b) q d w 0
        (fun i _ => (fminmax f false (lane w i (getV a s)).toNat (lane w i (getV b s)).toNat, 0)) 0 s ∧
      FillsRounded (.vmax t q d a b) (useVVV d a b) q d w 0
        (fun i _ => (fminmax f true (lane w i (getV a s)).toNat (lane w i (getV b s)).toNat, 0)) 0 s) ∧
    (Free (withMore (useVVV d a b) [.v d]) s →
      FillsRounded (.vfma t q d a b) (withMore (useVVV d a b) [.v d]) q d w (drawsOf m)
        (fun i k => ffmaV f m (at_ a i) (at_ b i) (at_ d i) k) 0 s ∧
      FillsRounded (.vfms t q d a b) (withMore (useVVV d a b) [.v d]) q d w (drawsOf m)
        (fun i k => ffmaV f m (at_ a i) (at_ b i) (at_ d i).neg k) 0 s)

/-- 02 R56, 06 R140: VMUL and VFMA with a literal or a constant broadcast it to every element, for I and F types; a constant in an
uncorrectable word of a penumbra context's bank is a machine error (01 R24). -/
def Sys2Proof.Claims.VectorConstants : Prop :=
  ∀ (s : State) (t : VTy) (q : QReg) (d a : VReg) (l : W32) (k : BitVec 10), ∀ p ∈ constantLanes t q d a l k s,
    let w := vWidth t
    let c := spread t p.2.2.2.2.1
    let s0 := afterConstant p.2.2.2.2.2 s
    Free p.2.2.1 s →
    (∀ e, constantError p.2.2.2.2.2 s = some e → exec p.2.1 s = .next (machineError e.1 e.2 s)) ∧
    (constantError p.2.2.2.2.2 s = none →
      (vFmt t = none →
        FillsOn s0 p.2.1 p.2.2.1 p.2.2.2.1 d w (fun i => lane w i (getV a s) * BitVec.ofNat (8 * w) c.1 +
          (if p.1 then lane w i (getV d s) else 0)) 0 0 s) ∧
      (∀ f, vFmt t = some f →
        FillsRoundedOn s0 p.2.1 p.2.2.1 p.2.2.2.1 d w (drawsOf (rmOf s)) (fun i n =>
          let x := fdecode f (lane w i (getV a s)).toNat
          if p.1 then ffmaV f (rmOf s) x (fdecode f c.1) (fdecode f (lane w i (getV d s)).toNat) n
          else fmulV f (rmOf s) x (fdecode f c.1) n) c.2 s))

/-- 06 R141 to R143: comparisons write a whole mask register, with zeros for inactive elements; VSEL takes each element from a
or b; the mask operations act bit by bit. -/
def Sys2Proof.Claims.VectorMasks : Prop :=
  ∀ (s : State) (t : VTy) (q qd : QReg) (d a b : VReg),
    let w := vWidth t
    (Free { useVVV 0 a b with w := none } s →
      (vFmt t = none → ∀ p ∈ integerCompares t q qd a b,
        Compares p.1 q qd a b w (fun i => p.2 (8 * w) (lane w i (getV a s)) (lane w i (getV b s))) 0 s) ∧
      (∀ f, vFmt t = some f → ∀ p ∈ floatCompares t q qd a b,
        let x i := fdecode f (lane w i (getV a s)).toNat
        let y i := fdecode f (lane w i (getV b s)).toNat
        Compares p.1 q qd a b w (fun i => p.2.1 (x i) (y i))
          (flagsBelow q w s (fun i => flagIf ((x i).isSNaN || (y i).isSNaN || (p.2.2 && ((x i).isNaN || (y i).isNaN))) flNV)
            (64 / w)) s)) ∧
    (Free (useVVV d a b) s →
      ∃ u, exec (.vsel t q d a b) s = .next u ∧ Retired (useVVV d a b) s u ∧ OnlyVector d s u ∧ u.ts.status = s.ts.status ∧
        ∀ i, i < 64 / w → (laneOn q w i s → lane w i (getV d u) = lane w i (getV a s)) ∧
          (¬ laneOn q w i s → lane w i (getV d u) = lane w i (getV b s))) ∧
    (Free useNone s → ∀ qa qb : QReg,
      ∀ p ∈ [(Instr.qand qd qa qb, getQ qa s &&& getQ qb s), (.qor qd qa qb, getQ qa s ||| getQ qb s),
             (.qxor qd qa qb, getQ qa s ^^^ getQ qb s), (.qnot qd qa, ~~~ getQ qa s)],
        ∃ u, exec p.1 s = .next u ∧ Retired useNone s u ∧ WritesMask qd p.2 s u ∧ u.ts.status = s.ts.status ∧ OnlyMask s u)

/-- 06 R144, 04 R99: VCVT converts the low elements that both types have, draws for active ones in order, keeps inactive ones, and
zeroes the destination elements beyond them. -/
def Sys2Proof.Claims.VectorConversions : Prop :=
  ∀ (s : State) (sat : Bool) (src t : VTy) (q : QReg) (d a : VReg), Free (useVV d a) s →
    let wd := vWidth t
    let ws := vWidth src
    let n := Nat.min (64 / ws) (64 / wd)
    let m := rmOf s
    let dr := if vconvRounds src t then drawsOf m else 0
    let r (i : Nat) := vconv src t sat m (drawFor m (dr * activeBelow q wd s i) s) (lane ws i (getV a s)).toNat
    ∃ u, exec (.vcvt sat src t q d a) s = .next u ∧ Retired (useVV d a) s u ∧ OnlyVector d s u ∧
      Accrues (flagsBelow q wd s (fun i => (r i).2) n) (dr * activeBelow q wd s n) s u ∧
      ∀ i, i < 64 / wd →
        (i < n → laneOn q wd i s → lane wd i (getV d u) = BitVec.ofNat (8 * wd) (r i).1) ∧
        (i < n → ¬ laneOn q wd i s → lane wd i (getV d u) = lane wd i (getV d s)) ∧
        (n ≤ i → lane wd i (getV d u) = 0)

/-- 06 R145, R149: VPERM, VSLIDE, VBCAST, VSPLAT, VEXT, VINS and VCLMUL. -/
def Obligations.VectorRearrangement : Prop :=
  ∀ (s : State) (t : VTy) (q : QReg) (d a b : VReg) (x y : Reg),
    let w := vWidth t
    let n := 64 / w
    let k := (getS x s).toNat
    (Free (useVVV d a b) s →
      Fills (.vperm t q d a b) (useVVV d a b) q d w (fun i => lane w ((lane w i (getV b s)).toNat % n) (getV a s)) 0 0 s ∧
      ∀ h : BitVec 2, ∃ u, exec (.vclmul h q d a b) s = .next u ∧ Retired (useVVV d a b) s u ∧ OnlyVector d s u ∧
        u.ts.status = s.ts.status ∧
        ∀ j, j < 4 → (laneOn q 16 j s → ∀ i, i < 128 → (getV d u).getLsbD (128 * j + i) =
            clBit (lane 8 (2 * j + h.toNat % 2) (getV a s)) (lane 8 (2 * j + h.toNat / 2) (getV b s)) i 64) ∧
          (¬ laneOn q 16 j s → lane 16 j (getV d u) = lane 16 j (getV d s))) ∧
    (Free (useVVS d a x) s →
      Fills (.vslideUp t q d a x) (useVVS d a x) q d w (fun i => if k ≤ i then lane w (i - k) (getV a s) else 0) 0 0 s ∧
      Fills (.vslideDn t q d a x) (useVVS d a x) q d w (fun i => if i + k < n then lane w (i + k) (getV a s) else 0) 0 0 s ∧
      Fills (.vbcast t q d a x) (useVVS d a x) q d w (fun _ => lane w (k % n) (getV a s)) 0 0 s) ∧
    (Free { len := 4, a := some (.s x), b := none, more := [], w := some (.v d) } s →
      Fills (.vsplat t q d x) { len := 4, a := some (.s x), b := none, more := [], w := some (.v d) } q d w
        (fun _ => (getS x s).setWidth (8 * w)) 0 0 s) ∧
    (Free { len := 4, a := some (.v a), b := some (.s x), more := [], w := some (.s y) } s →
      let z := lane w (k % n) (getV a s)
      Computes (.vext t y a x) { len := 4, a := some (.v a), b := some (.s x), more := [], w := some (.s y) } y
        (if (vFmt t).isSome then z.setWidth 64 else z.signExtend 64) 0 0 s) ∧
    (Free { len := 4, a := some (.s y), b := some (.s x), more := [.v d], w := some (.v d) } s →
      ∃ u, exec (.vins t d y x) s = .next u ∧
        Retired { len := 4, a := some (.s y), b := some (.s x), more := [.v d], w := some (.v d) } s u ∧ OnlyVector d s u ∧
        u.ts.status = s.ts.status ∧
        ∀ i, i < n → lane w i (getV d u) = if i = k % n then (getS y s).setWidth (8 * w) else lane w i (getV d s))

/-- 06 R146, R147; 04 R100: a reduction of an I type combines the active elements, whatever their order, and widens the result;
one of an F type combines them in the order of TreeSum; a scan of an I type gives element i the combination of the elements
up to i, or below i for .addx, and one of an F type combines them serially and accrues the flags of the active elements (06 R135; log
entry 60). -/
def Sys2Proof.Claims.VectorReductions : Prop :=
  ∀ (s : State) (t : VTy) (q : QReg) (d : Reg) (vd a : VReg),
    let w := vWidth t
    (Free (useSV d a) s → ∀ p ∈ reductionForms t q d a,
      (vFmt t = none →
        let c := integerComb p.2 (8 * w)
        let x := (inputs q w c.1 (getV a s) s).foldl c.2 c.1
        Computes p.1 (useSV d a) d (if p.2 = .minu ∨ p.2 = .maxu then x.setWidth 64 else x.signExtend 64) 0 0 s) ∧
      (∀ f, vFmt t = some f → p.2 = .add ∨ p.2 = .min ∨ p.2 = .max →
        let e := match p.2 with
          | .min => f.infBits false
          | .max => f.infBits true
          | _ => f.signBits true
        let r := treeSum (combOp p.2 t s) (if p.2 = .add then drawsOf (rmOf s) else 0) 6
          ((inputs q w (BitVec.ofNat (8 * w) e) (getV a s) s).map fun z => z.toNat) 0
        Computes p.1 (useSV d a) d (w64 r.1) r.2.1 r.2.2 s)) ∧
    (Free (useVV vd a) s → vFmt t = none →
      ∀ p ∈ [(Instr.vscanAdd t q vd a, VComb.add, false), (.vscanAddx t q vd a, .add, true), (.vscanMax t q vd a, .max, false),
             (.vscanMin t q vd a, .min, false)],
        let c := integerComb p.2.1 (8 * w)
        let x := inputs q w c.1 (getV a s) s
        Fills p.1 (useVV vd a) q vd w (fun i => (x.take (if p.2.2 then i else i + 1)).foldl c.2 c.1) 0 0 s) ∧
    (Free (useVV vd a) s → ∀ f, vFmt t = some f →
      ∀ p ∈ [(Instr.vscanAdd t q vd a, VComb.add, false, f.signBits true), (.vscanAddx t q vd a, .add, true, f.signBits true),
             (.vscanMax t q vd a, .max, false, f.infBits true), (.vscanMin t q vd a, .min, false, f.infBits false)],
        let x (i : Nat) := if (getQ q s).getLsbD (i * w) then (lane w i (getV a s)).toNat else p.2.2.2
        let dr := if p.2.1 = .add then drawsOf (rmOf s) else 0
        let on (i : Nat) := (getQ q s).getLsbD ((if p.2.2.1 then i + 1 else i) * w)
        let y := scanned (combOp p.2.1 t s) dr x on
        let last := if p.2.2.1 then 64 / w - 2 else 64 / w - 1
        Fills p.1 (useVV vd a) q vd w (fun i => BitVec.ofNat (8 * w) (if p.2.2.1 then (if i = 0 then 0 else (y (i - 1)).1) else (y i).1))
          (y last).2 (dr * last) s)

/-- 06 R148: VDOT adds to each active 32-bit lane of vd the products of the elements of a and b in that lane, exactly for I
types; for F types the two products are summed exactly and rounded to FP32, and that sum and the lane are rounded again. -/
def Sys2Proof.Claims.VectorDotProducts : Prop :=
  ∀ (s : State) (t : VTy) (q : QReg) (d a b : VReg), Free (withMore (useVVV d a b) [.v d]) s →
    let u := withMore (useVVV d a b) [.v d]
    (t = .i8 ∨ t = .i16 →
      let sum (unsigned : Bool) (i : Nat) : BitVec 32 := BitVec.ofInt 32 ((lane 4 i (getV d s)).toNat +
        dotSum unsigned (vWidth t) (lane 4 i (getV a s)) (lane 4 i (getV b s)) (4 / vWidth t))
      Fills (.vdot t q d a b) u q d 4 (sum false) 0 0 s ∧ Fills (.vdotU t q d a b) u q d 4 (sum true) 0 0 s) ∧
    (∀ f, vFmt t = some f → f = .f16 ∨ f = .bf16 →
      let m := rmOf s
      let y (r : VReg) (i j : Nat) := fdecode f (lane 2 (2 * i + j) (getV r s)).toNat
      let k (i : Nat) := 2 * drawsOf m * activeBelow q 4 s i
      let z (i : Nat) := faddV .f32 m (dotProd (y a i 0) (y b i 0)) (dotProd (y a i 1) (y b i 1)) (drawFor m (k i) s)
      let r (i : Nat) := faddV .f32 m (fdecode .f32 (lane 4 i (getV d s)).toNat) (fdecode .f32 (z i).1) (drawFor m (k i + 1) s)
      Fills (.vdot t q d a b) u q d 4 (fun i => BitVec.ofNat 32 (r i).1)
        (flagsBelow q 4 s (fun i => dotFlag (y a i 0) (y b i 0) ||| dotFlag (y a i 1) (y b i 1) ||| (z i).2 ||| (r i).2) 16)
        (k 16) s)

/-- The statements VectorIntegerOperations, VectorFloatOperations and VectorConstants together. -/
def Obligations.VectorArithmetic : Prop :=
  Sys2Proof.Claims.VectorIntegerOperations ∧ Sys2Proof.Claims.VectorFloatOperations ∧ Sys2Proof.Claims.VectorConstants

/-- The statements VectorMasks and VectorConversions together. -/
def Obligations.VectorMasksAndConversions : Prop :=
  Sys2Proof.Claims.VectorMasks ∧ Sys2Proof.Claims.VectorConversions

/-- The statements VectorReductions and VectorDotProducts together.
It rests on choices of the model where the log says so: entry 60. -/
def Obligations.VectorReductionsAndDots : Prop :=
  Sys2Proof.Claims.VectorReductions ∧ Sys2Proof.Claims.VectorDotProducts

namespace Sys2Proof.Claims

/-! ## Vector memory, versioned words, hints and overlays -/

/-- The address of element i of VLD and VST, of VLDS and VSTS, and of VLDX, VSTX and VAMO (06 R150, 13 R296). -/
def unitAt (t : VTy) (a b : Reg) (s : State) (i : Nat) : Word := getS a s + getS b s + BitVec.ofNat 64 (i * vWidth t)
/-- See `unitAt`. -/
def strideAt (a b : Reg) (s : State) (i : Nat) : Word := getS a s + BitVec.ofNat 64 i * getS b s
/-- See `unitAt`. -/
def indexAt (a : Reg) (b : VReg) (s : State) (i : Nat) : Word := getS a s + (lane 4 i (getV b s)).signExtend 64

/-- The active elements, in ascending order (06 R151). -/
def activeList (t : VTy) (q : QReg) (s : State) : List Nat :=
  (List.range (64 / vWidth t)).filter fun i => (getQ q s).getLsbD (i * vWidth t)

/-- The lowest active element that does not reach memory is `i`: the access, of the class that `f` gives it, finds nothing amiss at the
active ones below it. -/
def FirstBad (f : Cls → Nat → Cls) (t : VTy) (q : QReg) (k : Kind) (ver : VerUse) (at_ : Nat → Word) (i : Nat) (s : State) : Prop :=
  i ∈ activeList t q s ∧
    ∀ j ∈ activeList t q s, j < i → ∃ key cls e pa, reachAs f k (vWidth t) (at_ j) ver none s = .mem s key cls e pa

/-- The class of an access that is performed in its page's class (12 R260). -/
def pageCls (c : Cls) (_pa : Nat) : Cls := c

/-- The vector loads with their registers and element addresses. -/
noncomputable def vectorLoads (t : VTy) (q : QReg) (d : VReg) (a b : Reg) (x : VReg) (s : State) : List (Instr × Use × (Nat → Word)) :=
  [(.vld t q d a b, useVld d a b, unitAt t a b s), (.vlds t q d a b, useVld d a b, strideAt a b s),
   (.vldx t q d a x, { len := 4, a := some (.s a), b := some (.v x), more := [], w := some (.v d) }, indexAt a x s)]

/-- The vector stores with their registers and element addresses. -/
noncomputable def vectorStores (t : VTy) (q : QReg) (d : VReg) (a b : Reg) (x : VReg) (s : State) : List (Instr × Use × (Nat → Word)) :=
  [(.vst t q d a b, useVst d a b, unitAt t a b s), (.vsts t q d a b, useVst d a b, strideAt a b s),
   (.vstx t q d a x, { len := 4, a := some (.s a), b := some (.v x), more := [.v d], w := none }, indexAt a x s)]

/-- The operations of VAMO with what each writes over the old value of w bytes; .minu, .maxu and the bitwise ones have no F
type (13 R296). -/
def vectorAtomics (t : VTy) (q : QReg) (r : Reg) (a b : VReg) : List (Bool × Instr × (Nat → Nat → Nat)) :=
  let n := 8 * vWidth t
  let int (x : Nat) : Int := (BitVec.ofNat n x).toInt
  match vFmt t with
  | none =>
    [(true, .vamoAdd t q r a b, fun o x => (o + x) % 2 ^ n), (true, .vamoMin t q r a b, fun o x => if int o ≤ int x then o else x),
     (true, .vamoMax t q r a b, fun o x => if int x ≤ int o then o else x),
     (true, .vamoMinu t q r a b, fun o x => if o ≤ x then o else x), (true, .vamoMaxu t q r a b, fun o x => if x ≤ o then o else x),
     (true, .vamoAnd t q r a b, fun o x => o &&& x), (true, .vamoOr t q r a b, fun o x => o ||| x),
     (true, .vamoXor t q r a b, fun o x => o ^^^ x)]
  | some f =>
    [(false, .vamoAdd t q r a b, fun o x => (faddV f .rne (fdecode f o) (fdecode f x) 0).1),
     (false, .vamoMin t q r a b, fun o x => fminmax f false o x), (false, .vamoMax t q r a b, fun o x => fminmax f true o x)]

/-- `i` waits for another agent: it does not retire, the thread set stands at it in the state WAITING with every register as it
was, and memory is unchanged. -/
def Waits (i : Instr) (s : State) : Prop :=
  ∃ t, exec i s = .next t ∧ t.ts.pc = s.ts.pc ∧ t.ts.run = .waiting ∧ t.ts.s = s.ts.s ∧ t.ts.shS = s.ts.shS ∧
    t.ts.v = s.ts.v ∧ t.ts.q = s.ts.q ∧ t.ts.status = s.ts.status ∧ SameBytes s t

/-- Version b is later than version a (11 R257). -/
def later (a b : Nat) : Prop := 1 ≤ (b + 2 ^ 24 - a) % 2 ^ 24 ∧ (b + 2 ^ 24 - a) % 2 ^ 24 ≤ 2 ^ 23

/-- A hint or a cache operation retires, writes no register, and changes no byte and no retired operation. -/
def NoVisibleEffect (i : Instr) (u : Use) (s t : State) : Prop :=
  exec i s = .next t ∧ Retired u s t ∧ (∀ r, getS r t = getS r s) ∧ KeepsTs s t ∧ t.pend = s.pend ∧ SameBytes s t

end Sys2Proof.Claims

/-! ## Vector memory (06 R150 to R152; 13 R296, R297) -/

/-- 06 R150, R151: a vector load gives each active element the bytes at its address once every one has been checked, and keeps the
others; the lowest faulting active element is reported, with its address in EVAL, and no element is loaded. The link to the host is up,
and no line of a home slice holds an uncorrectable word. -/
def Sys2Proof.Claims.VectorLoads : Prop :=
  ∀ (s : State) (t : VTy) (q : QReg) (d : VReg) (a b : Reg) (x : VReg), ∀ p ∈ vectorLoads t q d a b x s,
    Free p.2.1 s → s.gwerid = .up → (∀ x ∈ s.l2, x.bad = []) →
    let w := vWidth t
    (∀ key : Nat → Nat, (∀ i ∈ activeList t q s, (∃ cls e pa, reach .load w (p.2.2 i) .either none s = .mem s (key i) cls e pa) ∧
        Readable (key i) w s) →
      ∃ u, exec p.1 s = .next u ∧ Retired p.2.1 s u ∧ (∀ r, getS r u = getS r s) ∧ (∀ r, r ≠ d → getV r u = getV r s) ∧
        u.ts.q = s.ts.q ∧ u.ts.status = s.ts.status ∧ u.pend = s.pend ∧ SameBytes s u ∧
        ∀ i, i < 64 / w →
          (laneOn q w i s → lane w i (getV d u) = BitVec.ofNat (8 * w) (leValue (memRead s.mem w (key i)))) ∧
          (¬ laneOn q w i s → lane w i (getV d u) = lane w i (getV d s))) ∧
    (∀ i y code detail, FirstBad pageCls t q .load .either p.2.2 i s → reach .load w (p.2.2 i) .either none s = .fault y code detail →
      code < 256 → detail < 256 → Faults p.1 code detail (p.2.2 i) s)

/-- 06 R150 to R152: a vector store writes no register; where its elements go beyond the core's own local memory they join the
operations still to be performed in ascending order and memory is unchanged; where they all lie in it and nothing holds them,
they land at once in that order, and every other byte is unchanged; a faulting element stops every store. -/
def Sys2Proof.Claims.VectorStores : Prop :=
  ∀ (s : State) (t : VTy) (q : QReg) (d : VReg) (a b : Reg) (x : VReg), ∀ p ∈ vectorStores t q d a b x s,
    Free p.2.1 s → Memory.wf s.mem = true → s.gwerid = .up →
    let w := vWidth t
    let bs (i : Nat) := leBytes w (lane w i (getV d s)).toNat
    (∀ (key : Nat → Nat) (pa : Nat → Nat) (cls : Nat → Cls),
      (∀ i ∈ activeList t q s, ∃ e, reach .store w (p.2.2 i) .forbid none s = .mem s (key i) (cls i) e (pa i)) →
      ((∀ i ∈ activeList t q s, landsNow (key i) w s = false) →
        ∃ u, exec p.1 s = .next u ∧ Retired p.2.1 s u ∧ (∀ r, getS r u = getS r s) ∧ u.ts.v = s.ts.v ∧ SameBytes s u ∧
          u.pend.length = s.pend.length + (activeList t q s).length ∧ (∀ n, n < s.pend.length → nth? u.pend n = nth? s.pend n) ∧
          ∀ n i, nth? (activeList t q s) n = some i →
            nth? u.pend (s.pend.length + n) = some (storeEntry (key i) (pa i) (cls i) (p.2.2 i) (bs i) (s.seq + n) s)) ∧
      ((∀ i ∈ activeList t q s, landsNow (key i) w s = true) →
        ∃ u, exec p.1 s = .next u ∧ Retired p.2.1 s u ∧ (∀ r, getS r u = getS r s) ∧ u.ts.v = s.ts.v ∧ u.pend = s.pend ∧
          (∀ i ∈ activeList t q s, (∀ j ∈ activeList t q s, i < j → key j + w ≤ key i ∨ key i + w ≤ key j) →
            memRead u.mem w (key i) = bs i) ∧
          ∀ k, (∀ i ∈ activeList t q s, k < key i ∨ key i + w ≤ k) → memGet u.mem k = memGet s.mem k)) ∧
    (∀ i y code detail, FirstBad pageCls t q .store .forbid p.2.2 i s → reach .store w (p.2.2 i) .forbid none s = .fault y code detail →
      code < 256 → detail < 256 → Faults p.1 code detail (p.2.2 i) s)

/-- 13 R296, R297: VAMO checks every active element, then posts one read-modify-write for each in ascending order, at its local
memory or its home slice, with no palette entry and no order; no byte, register or flag changes.
It rests on choices of the model where the log says so: entries 6 and 35. -/
def Obligations.VectorAtomics : Prop :=
  ∀ (s : State) (t : VTy) (q : QReg) (r : Reg) (a b : VReg), ∀ p ∈ vectorAtomics t q r a b,
    let w := vWidth t
    w = 4 ∨ w = 8 → (∀ f, vFmt t = some f → f = .f32 ∨ f = .f64) → Free (useVamo r a b) s →
    (∀ (key pa : Nat → Nat) (cls : Nat → Cls),
      (∀ i ∈ activeList t q s, ∃ e, reachAs homeCls .atomic w (indexAt r a s i) .forbid none s = .mem s (key i) (cls i) e (pa i)) →
      ∃ u, exec p.2.1 s = .next u ∧ Retired (useVamo r a b) s u ∧ u.ts.s = s.ts.s ∧ u.ts.shS = s.ts.shS ∧ u.ts.v = s.ts.v ∧
        u.ts.status = s.ts.status ∧ SameBytes s u ∧ u.pend.length = s.pend.length + (activeList t q s).length ∧
        ∀ n i, nth? (activeList t q s) n = some i → ∃ y op h, nth? u.pend (s.pend.length + n) = some y ∧ y.key = key i ∧
          y.pa = pa i ∧ y.ga = indexAt r a s i ∧ y.cls = (if cls i = .lm then .lm else .hs) ∧ y.pal = none ∧ y.rel = none ∧
          y.acq = none ∧ y.op = .amo op w (lane w i (getV b s)).toNat 0 h ∧
          ∀ o, amoNew op w o (lane w i (getV b s)).toNat 0 = some (p.2.2 o (lane w i (getV b s)).toNat)) ∧
    (∀ i y code detail, FirstBad homeCls t q .atomic .forbid (indexAt r a s) i s →
      reachAs homeCls .atomic w (indexAt r a s i) .forbid none s = .fault y code detail → code < 256 → detail < 256 →
      Faults p.2.1 code detail (indexAt r a s i) s)

/-! ## Versioned words (11 R256, R257; 13 R288 to R291) -/

/-- 11 R257, 13 R288 to R291: LDV delivers a live version, waits for one that is later than the newest, and takes VERSION_LOST
for one that is neither; STV makes the next version the newest, writes memory with it and delivers its number, and waits while
four are live, the home slice cannot hold the line, an earlier access that its release covers is still to be performed, or the mesh
holds its request or reply; RECL retires and is applied later.
It rests on choices of the model where the log says so: entries 6, 24 and 27. -/
def Obligations.VersionedWords : Prop :=
  ∀ (s : State) (o : Order) (p : Pal) (d a c : Reg), s.gwerid = .up →
    let ga := getS a s
    let v := (getS c s).toNat % 2 ^ 24
    let at_ (k : Kind) := reachAs homeCls k 8 ga .need (some p.toNat) s
    (Free (useABD d a (.reg c)) s →
      (∀ t key cls e pa, at_ .load = .mem t key cls e pa → cls ≠ .lm → mustWait key 8 t = false → readError key 8 t = none →
        let w := verOf key pa s
        (∀ x, w.live.find? (fun y => y.1 == v) = some x →
          ∃ u, exec (.ldv o p d a c) s = .next u ∧ Retired (useABD d a (.reg c)) s u ∧ WritesReg d x.2 s u ∧ KeepsTs s u ∧
            u.pend = s.pend ∧ u.versions = s.versions ∧ SameBytes s u) ∧
        (w.live.find? (fun y => y.1 == v) = none → later w.n v → Waits (.ldv o p d a c) s) ∧
        (w.live.find? (fun y => y.1 == v) = none → ¬ later w.n v → Traps (.ldv o p d a c) 0x25 0 ga false s)) ∧
      (∀ t key cls e pa, at_ .atomic = .mem t key cls e pa → cls ≠ .lm →
        mustWait key 8 t = false → readError key 8 t = none → Memory.wf s.mem = true →
        let w := verOf key pa s
        let goes : Prop := releaseReady o p t = true ∧ homeWait .hs pa t = false
        let vas := if vaOf ga s ∈ w.vas then w.vas else vaOf ga s :: w.vas
        let n := (w.n + 1) % 2 ^ 24
        (goes → w.live.length < 4 → sliceCan pa (correct key 8 t) = true →
          ∃ u, exec (.stv o p d a c) s = .next u ∧ Retired (useABD d a (.reg c)) s u ∧ WritesReg d (BitVec.ofNat 64 n) s u ∧
            KeepsTs s u ∧ u.pend = s.pend ∧ Stored key (leBytes 8 (getS c s).toNat) s u ∧
            u.versions.find? (fun y => y.pa == pa) =
              some { w with pid := myPid s, vas := vas, n := n, live := w.live ++ [(n, getS c s)] }) ∧
        (¬ goes ∨ 4 ≤ w.live.length ∨ sliceCan pa (correct key 8 t) = false → Stalls (.stv o p d a c) s)) ∧
      (∀ t code detail, code < 256 → detail < 256 →
        (at_ .load = .fault t code detail → Faults (.ldv o p d a c) code detail ga s) ∧
        (at_ .atomic = .fault t code detail → Faults (.stv o p d a c) code detail ga s))) ∧
    (Free (useAB a c) s → ∀ t key cls e pa, at_ .atomic = .mem t key cls e pa → cls ≠ .lm →
      ∃ u q, exec (.recl o p a c) s = .next u ∧ Retired (useAB a c) s u ∧ (∀ r, getS r u = getS r s) ∧ KeepsTs s u ∧ SameBytes s u ∧
        u.versions = s.versions ∧ u.pend = s.pend ++ [q] ∧ q.op = .recl v ∧ q.cls = .hs ∧ q.key = key ∧ q.pa = pa ∧
        q.rel = relCover o p t)

/-! ## Hints, cache operations and overlays (13 R284 to R287) -/

/-- 13 R284, R285; 22 R421: PREF changes nothing that a program reads; PREF.l1 of a cacheable page makes the core a holder of the line,
and PREF.l2 brings the line to its home slice where that has room. CLEAN writes back a line that the core has dirty and keeps it clean,
INVAL drops it, once the thread set's earlier writes to it have been performed, and both do nothing in the core's and a remote local
memory. A write-back to host memory over a down link is lost: the host's bytes stand, and CLEAN takes STORE_LOST. -/
def Sys2Proof.Claims.CacheHints : Prop :=
  ∀ (s : State) (base : Reg) (off : BitVec 12), Free (useA base) s →
    let ga : Word := getS base s + off.signExtend 64
    let line (pa : Nat) := dirLine (myPid s) pa
    (s.gwerid = .up → ∃ u, NoVisibleEffect (.prefL2 base off) (useA base) s u ∧
      ∀ t key e pa p, reach .load 1 ga .either none s = .mem t key .l1 e pa → partOf (myPid s) s = some p → p.rcd.g < 8 →
        isSharedPa pa = false → l2Can p.rcd (dirLine p.rcd.pid pa) t = true → l2Has (dirLine p.rcd.pid pa) u = true) ∧
    (s.gwerid = .up → ∃ u, NoVisibleEffect (.prefL1 base off) (useA base) s u ∧
      ∀ t key e pa p, reach .load 1 ga .either none s = .mem t key .l1 e pa → partOf (myPid s) s = some p →
        dirOf (dirLine p.rcd.pid pa) u = some .broadcast ∨ s.here ∈ dirHolders p.rcd (dirLine p.rcd.pid pa) u) ∧
    (ga.toNat / 2 ^ 53 = 0x400 ∨ ga.toNat / 2 ^ 53 = 0x401 →
      FallsThrough (.clean base off) (useA base) s ∧ FallsThrough (.inval base off) (useA base) s) ∧
    (ga.toNat / 2 ^ 53 ≠ 0x400 → ga.toNat / 2 ^ 53 ≠ 0x401 →
      (∀ t key cls e pa, reach .load 1 ga .forbid none s = .mem t key cls e pa → cls ≠ .lm → linePending pa t = true →
        s.gwerid = .up → Stalls (.clean base off) s ∧ Stalls (.inval base off) s) ∧
      (∀ t key cls e pa, reach .load 1 ga .forbid none s = .mem t key cls e pa → cls ≠ .lm → linePending pa t = false →
        (s.gwerid = .up → ∃ u, NoVisibleEffect (.clean base off) (useA base) s u ∧
          (cls = .l1 → l1Dirty (line pa) s.here t = true →
            dirOf (line pa) u = some (.sharers [s.here]) ∧ (line pa, false) ∈ u.core.l1 ∧ (line pa, true) ∉ u.core.l1)) ∧
        (s.gwerid = .down → isHostPa pa = true → Memory.wf t.mem = true → ∀ x, t.hostOld.find? (fun x => x.1 == line pa) = some x →
          ∃ u, exec (.clean base off) s = .next (machineError 0x84 (BitVec.ofNat 64 pa) u) ∧ Stored (pa / 64 * 64) x.2 t u) ∧
        (s.gwerid = .up → ∃ u, NoVisibleEffect (.inval base off) (useA base) s u ∧
          (cls = .l1 → (∀ dirty, (line pa, dirty) ∉ u.core.l1) ∧ dirOf (line pa) u ≠ some (.owned s.here)))) ∧
      (∀ t code detail, code < 256 → detail < 256 → reach .load 1 ga .forbid none s = .fault t code detail →
        Faults (.clean base off) code detail ga s ∧ Faults (.inval base off) code detail ga s))

/-- 13 R286, R287; 20 R397: CFETCH of a segment number outside 1 to 63 or with a bad directory entry takes SEGMENT_FAULT, is ILLEGAL
in a reserve bank, does nothing where its pages hold the segment, and else marks them LANDING and starts the copy; where its pages are
lent to a penumbra context it takes ACCESS, or waits while they are taken back (20 R400, R401); when the copy
ends the segment's bytes and zeros to the end of its last page land at once and the pages are RESIDENT. -/
def Sys2Proof.Claims.CodeOverlays : Prop :=
  (∀ (s : State) (a : Reg) (imm : BitVec 15),
    let n : Word := getS a s + imm.signExtend 64
    (s.tid = 4 ∨ s.tid = 5 → Traps (.cfetch a imm) 1 2 ((Instr.cfetch a imm).word.setWidth 64) false s) ∧
    (s.tid ≠ 4 → s.tid ≠ 5 → Free (useA a) s → s.gwerid = .up →
      (n.toNat = 0 ∨ 63 < n.toNat → Traps (.cfetch a imm) 6 0x41 n false s) ∧
      (0 < n.toNat → n.toNat ≤ 63 → ∀ l, myLaunch s = some l →
        let at_ := overlayDir l + 16 * (n.toNat - 1)
        ∀ va y t u, loadAt 8 (w64 at_) s = .val va t → loadAt 8 (w64 (at_ + 8)) t = .val y u →
        let lmoff := y % 2 ^ 32
        let size := y / 2 ^ 32 % 2 ^ 32
        (dirEntryOk va lmoff size = false → Traps (.cfetch a imm) 6 0x42 n false s) ∧
        (dirEntryOk va lmoff size = true →
          ((∃ p ∈ overlayPages lmoff size, (residency p u).1 = .landing) → Stalls (.cfetch a imm) s) ∧
          ((∀ p ∈ overlayPages lmoff size, residency p u = (.resident, n.toNat)) →
            ∃ x, exec (.cfetch a imm) s = .next x ∧ Retired (useA a) s x ∧ SameBytes s x ∧ x.core.tags = s.core.tags ∧
              x.core.landing = s.core.landing) ∧
          ((∀ p ∈ overlayPages lmoff size, (residency p u).1 ≠ .landing) →
            (∃ p ∈ overlayPages lmoff size, residency p u ≠ (.resident, n.toNat)) →
            let lent := lentAt lmoff ((overlayPages lmoff size).length * 4096) s.core
            (lent = some true → Stalls (.cfetch a imm) s) ∧
            (lent = some false → Traps (.cfetch a imm) 0x21 21 (BitVec.ofNat 64 (0x400 * 2 ^ 53 + lmoff)) false s) ∧
            ∀ z k c pa, lent = none → codePages (pageStarts va size) u = .ok z k c pa →
            ∃ x, exec (.cfetch a imm) s = .next x ∧ Retired (useA a) s x ∧ SameBytes s x ∧ (∀ r, getS r x = getS r s) ∧
              (∀ p ∈ overlayPages lmoff size, residency p x = (.landing, n.toNat)) ∧
              x.core.landing = s.core.landing ++
                [{ seg := n.toNat, va := va, lmoff := lmoff, size := size, pid := myPid s, lid := myLid s }]))))) ∧
  (∀ (s : State) (core seg : Nat) (l : Landing) (x : List Byte) (t : State),
    (getCore core s).landing.find? (fun l => l.seg == seg) = some l → (getCore core s).owner = some (l.pid, l.lid) →
    clocked s core = true → s.gwerid = .up → readCode l.pid (l.size / 64 + 2) l.va l.size [] s = .bytes x t → Memory.wf t.mem = true →
    ∃ u, exec (.segmentLanded core seg) s = .next u ∧
      Stored (lmKey core l.lmoff) (x ++ List.replicate ((overlayPages l.lmoff l.size).length * 4096 - l.size) 0) t u ∧
      (∀ p ∈ overlayPages l.lmoff l.size, lookupD (PageSt.resident, 0) (getCore core u).tags p = (.resident, seg)) ∧
      (∀ y ∈ (getCore core u).landing, y.seg ≠ seg))

/-- The statements VectorLoads and VectorStores together.
It rests on choices of the model where the log says so: entries 6, 24 and 35. -/
def Obligations.VectorMemory : Prop :=
  Sys2Proof.Claims.VectorLoads ∧ Sys2Proof.Claims.VectorStores

/-- The statements CacheHints and CodeOverlays together.
It rests on choices of the model where the log says so: entries 24, 25, 56 and 65. -/
def Obligations.CachesAndOverlays : Prop :=
  Sys2Proof.Claims.CacheHints ∧ Sys2Proof.Claims.CodeOverlays

namespace Sys2Proof.Claims

/-! ## Ordering, waiting, events, tasks, messages and commands -/

/-- `i` retires having written `v` to register `d`; every byte of memory and every other register is unchanged, and `p` holds of
the state after it. -/
def Gives (i : Instr) (u : Use) (d : Reg) (v : Word) (s : State) (p : State → Prop) : Prop :=
  ∃ t, exec i s = .next t ∧ Retired u s t ∧ WritesReg d v s t ∧ t.ts.v = s.ts.v ∧ t.ts.q = s.ts.q ∧ t.ts.status = s.ts.status ∧
    SameBytes s t ∧ p t

/-- `i` retires with every register and every byte of memory unchanged, and `p` holds of the state after it. -/
def Completes (i : Instr) (u : Use) (s : State) (p : State → Prop) : Prop :=
  ∃ t, exec i s = .next t ∧ Retired u s t ∧ (∀ r, getS r t = getS r s) ∧ t.ts.v = s.ts.v ∧ t.ts.q = s.ts.q ∧
    t.ts.status = s.ts.status ∧ SameBytes s t ∧ p t

/-- `i` does not retire: the thread set stands at it in the state WAITING, and `p` holds of the state. -/
def WaitsWith (i : Instr) (s : State) (p : State → Prop) : Prop :=
  ∃ t, exec i s = .next t ∧ t.ts.pc = s.ts.pc ∧ t.ts.run = .waiting ∧ (∀ r, getS r t = getS r s) ∧ SameBytes s t ∧ p t

/-- `i` is ILLEGAL with a DETAIL; EVAL is the instruction word (05 R133, 10 R221). -/
def IllegalWith (i : Instr) (detail : Nat) (s : State) : Prop := Traps i 1 detail (i.word.setWidth 64) false s

/-- The linked waiters of the partition at a word among the first `n` (13 R303). -/
def linkedBefore (pa n : Nat) (s : State) : Nat := ((s.waiters.take n).filter fun w => w.pid == myPid s && w.pa == pa && w.got.isNone).length

/-- No core is pre-empted or being pre-empted: completions go to inboxes, and not to spill queues (19 R386). -/
def NoneResting (s : State) : Prop := (∀ l ∈ s.launches, l.held = []) ∧ ∀ c, (getCore c s).pre = .none

/-- Every step of an update has been run on the copy of an entry: its new generation, with the membership `mem` (none for PALINV) (12
R271, 13 R300). -/
def updatedCopy (l : Launch) (n : Nat) (mem : Option PalMem) (k : PalCopy) : PalCopy :=
  { gen := (vecGet l.palGen (n - 4) + 1) % 65536, mem := mem.getD k.mem, inv := mem.isNone, old := some (k.gen, k.mem) }

/-- A launch of one core, this one, with no update under way and the old slot of the entry free: an update runs every step at once
(13 R300). -/
def AtOnce (l : Launch) (n : Nat) (s : State) : Prop :=
  l.lgw = 0 ∧ l.lgh = 0 ∧ s.here = l.row0 * 64 + l.col0 ∧ s.core.owner = some (myPid s, myLid s) ∧ l.palReqs = [] ∧
    (∀ p ∈ s.pend, ¬ (p.core = s.here ∧ p.tid = s.tid)) ∧ s.core.matq = [] ∧ oldFree (myPid s) (myLid s) s.here n s = true

/-- Line `line` of the focused thread set's quad, without waiters that still want a result (08 R190 to R192). -/
def NoWaiters (e : EvLine) : Prop := ∀ w ∈ e.waiters, w.result ≠ none

/-- The thread set has no place among a line's waiters. -/
def NotWaiting (e : EvLine) (s : State) : Prop := ∀ w ∈ e.waiters, ¬ (w.core = s.here ∧ w.tid = s.tid)

/-- The thread set waits at the tail of the line's waiters. -/
def AtTail (e f : EvLine) (arrived : Bool) (s : State) : Prop :=
  f.waiters = e.waiters ++ [{ core := s.here, tid := s.tid, arrived := arrived, result := none }]

/-- The waiters of a line after the oldest that wants a result, `x`, has got `v` (08 R192). -/
def Served (e : EvLine) (x : EvWaiter) (v : Word) : List EvWaiter :=
  e.waiters.map fun y => if y.core = x.core ∧ y.tid = x.tid ∧ y.result = none then { y with result := some v } else y

/-- A signal on an event line with a waiter `x`: COUNT and GEN have risen, and the waiter takes the count (08 R192). -/
def SignalServed (e : EvLine) (x : EvWaiter) : EvLine :=
  let f := { e with count := Nat.min 65535 (e.count + 1) - 1, gen := (e.gen + 1) % 2 ^ 32 }
  { f with waiters := Served e x f.word }

/-- Line `f` is barrier line `e` after it has fired with `n` arrivals counted: a new generation, the counted arrivals taken off, and every
waiter with its result (08 R192). -/
def Fired (e f : EvLine) (n : Nat) : Prop :=
  f.gen = (e.gen + 1) % 2 ^ 32 ∧ f.count = n - evCin e.cfg ∧ f.arrivals = 0 ∧ NoWaiters f

/-- The chain messages after line core `c` of a launch has fired as `e`: one more where CHEN is set (08 R194). -/
def chainsAfter (pid lid c : Nat) (e : EvLine) (s : State) : List ChainMsg :=
  if evChen e.cfg then s.chains ++ [{ pid := pid, lid := lid, core := c, num := s.seq, cfg := e.cfg, left := chainCores e.cfg }]
  else s.chains

/-- The member number of the focused thread set: 4 × the core's place in its quad + its own number (08 R190). -/
def memberNo (s : State) : Nat := 4 * (s.here / 64 % 4) + s.tid

end Sys2Proof.Claims

/-! ## Ordering and waiting (12 R262 to R273; 13 R298 to R304; 10 R226, R227) -/

/-- 12 R266, 13 R298, R299: FENCE retires where every earlier covered access that it releases, and every earlier covered read that it
acquires after (a retired atomic), has been performed, waits until then, and takes STALE_PALETTE where its entry is INVALID. An accepted
matrix operation of the thread set that has still to read its operands is such an access and such a read. -/
def Sys2Proof.Claims.Fences : Prop :=
  ∀ (s : State) (o : Order) (p : Pal), Free useNone s →
    let mine (q : Pend) : Prop := q ∈ s.pend ∧ q.core = s.here ∧ q.tid = s.tid ∧ q.pid = myPid s ∧ q.lid = myLid s
    let reads : Prop := o ≠ .rlx ∧ ∃ m ∈ s.core.matq, m.kind ≠ .zero ∧ m.tid = s.tid ∧ m.pid = myPid s ∧ m.lid = myLid s
    let released (q : Pend) : Prop := (o = .rel ∨ o = .acqrel) ∧ q.releases (covers p.toNat s) = true
    let acquired (q : Pend) : Prop := (o = .acq ∨ o = .acqrel) ∧ clsCovered (covers p.toNat s) q.cls = true ∧
      ∃ op w x c h, q.op = .amo op w x c h
    (palOk p.toNat s = true → (∀ q, mine q → ¬ released q ∧ ¬ acquired q) → ¬ reads → FallsThrough (.fence o p) useNone s) ∧
    (palOk p.toNat s = true → (∃ q, mine q ∧ (released q ∨ acquired q)) ∨ reads → Stalls (.fence o p) s) ∧
    (palOk p.toNat s = false → Traps (.fence o p) 0x24 0 0 false s)

/-- 13 R303, R304: WAITA returns a word that differs from the operand, or the word that a WAKE released it with, and else joins the
word's queue, of which a home slice holds 512 places; WAKE releases the oldest waiters with the word's value and returns how
many, once what it releases has been performed and the mesh lets its request pass; neither has a place to wait in local memory, the
constant bank, the event unit or the firmware registers.
It rests on choices of the model where the log says so: entry 27. -/
def Obligations.WaitAndWake : Prop :=
  ∀ (s : State) (o : Order) (p : Pal) (d a c : Reg), Free (useABD d a (.reg c)) s → s.gwerid = .up →
    let ga := getS a s
    let tag := ga.toNat / 2 ^ 53
    let u := useABD d a (.reg c)
    let at_ (k : Kind) := reachAs homeCls k 8 ga .forbid (some p.toNat) s
    (ga.toNat % 8 ≠ 0 → Traps (.waita o p d a c) 0x20 0 ga false s ∧ Traps (.wake o p d a c) 0x20 2 ga false s) ∧
    (ga.toNat % 8 = 0 → tag = 0x400 ∨ tag = 0x401 →
      Traps (.waita o p d a c) 0x21 0 ga false s ∧ Traps (.wake o p d a c) 0x21 2 ga false s) ∧
    (ga.toNat % 8 = 0 → tag = 0x403 → ga.toNat / 2 ^ 12 % 2 ^ 41 = 0 →
      Traps (.waita o p d a c) 0x21 12 ga false s ∧ Traps (.wake o p d a c) 0x21 14 ga false s) ∧
    (ga.toNat % 8 = 0 → tag = 0x403 → ga.toNat / 2 ^ 12 % 2 ^ 41 ≠ 0 →
      Traps (.waita o p d a c) 0x21 0 ga false s ∧ Traps (.wake o p d a c) 0x21 2 ga false s) ∧
    (ga.toNat % 8 = 0 → tag = 0x404 → s.ts.palHold = [] →
      Traps (.waita o p d a c) 0x21 16 ga false s ∧ Traps (.wake o p d a c) 0x21 18 ga false s) ∧
    (ga.toNat % 8 = 0 → tag ≠ 0x400 → tag ≠ 0x401 → tag ≠ 0x403 →
      (∀ b x, (at_ .load = .fw b x → Traps (.waita o p d a c) 0x21 16 ga false s) ∧
        (at_ .atomic = .fw b x → Traps (.wake o p d a c) 0x21 18 ga false s)) ∧
      (∀ t, (at_ .load = .wait t → Stalls (.waita o p d a c) s) ∧ (at_ .atomic = .wait t → Stalls (.wake o p d a c) s)) ∧
      (∀ t key cls e pa, mineAt key 8 t ≠ [] → (at_ .load = .mem t key cls e pa → Stalls (.waita o p d a c) s) ∧
        (at_ .atomic = .mem t key cls e pa → Stalls (.wake o p d a c) s)) ∧
      (∀ t key cls e pa, at_ .load = .mem t key cls e pa → mineAt key 8 t = [] →
        let x := BitVec.ofNat 64 (memValue s.mem 8 key)
        (∀ w v, myWaiter pa s = some w → w.got = some v →
          Gives (.waita o p d a c) u d v s fun t => ∀ y ∈ t.waiters, ¬ (y.core = s.here ∧ y.tid = s.tid)) ∧
        (∀ w, myWaiter pa s = some w → w.got = none → Waits (.waita o p d a c) s) ∧
        (myWaiter pa s = none → readError key 8 t = none →
          (x ≠ getS c s → Gives (.waita o p d a c) u d x s fun t => t.waiters = s.waiters) ∧
          (x = getS c s → waitersAt pa s < 512 → WaitsWith (.waita o p d a c) s fun t =>
            t.waiters = s.waiters ++ [{ pid := myPid s, pa := pa, core := s.here, tid := s.tid, got := none }]) ∧
          (x = getS c s → 512 ≤ waitersAt pa s → Stalls (.waita o p d a c) s))) ∧
      (∀ t key cls e pa, at_ .atomic = .mem t key cls e pa → mineAt key 8 t = [] →
        releaseReady o p t = false ∨ homeWait .hs pa t = true → Stalls (.wake o p d a c) s) ∧
      (∀ t key cls e pa, at_ .atomic = .mem t key cls e pa → mineAt key 8 t = [] →
        releaseReady o p t = true → homeWait .hs pa t = false → readError key 8 t = none →
        let k := Nat.min (getS c s).toNat (linkedBefore pa s.waiters.length s)
        Gives (.wake o p d a c) u d (BitVec.ofNat 64 k) s fun t =>
          ∀ i w, nth? s.waiters i = some w → nth? t.waiters i = some
            (if w.pid = myPid s ∧ w.pa = pa ∧ w.got = none ∧ linkedBefore pa i s < k then
              { w with got := some (BitVec.ofNat 64 (memValue s.mem 8 key)) } else w)) ∧
      (∀ t code detail, code < 256 → detail < 256 →
        (at_ .load = .fault t code detail → Faults (.waita o p d a c) code detail ga s) ∧
        (at_ .atomic = .fault t code detail → Faults (.wake o p d a c) code detail ga s)))

/-- 10 R226, R227; 20 R397: BARL is ILLEGAL outside thread sets 0 to 3, in a launch of one core, and with a shape beyond the
launch's; the first issue arrives in the current phase of the shape, or in the next where this core has arrived in that one, and
waits until every core of the block has arrived; then the thread set goes on and the phase has passed. What it waits for is the one
waitphase of its thread set. -/
def Sys2Proof.Claims.LaunchBarrier : Prop :=
  ∀ (s : State) (o : Order) (p : Pal) (a : Reg),
    let i := Instr.barl o p a
    let x := (getS a s).toNat
    let la := x / 2 ^ 18 % 8
    let lb := x / 2 ^ 21 % 8
    (4 ≤ s.tid ∨ (rectLgw s.ts.rect = 0 ∧ rectLgh s.ts.rect = 0) → IllegalWith i 2 s) ∧
    (s.tid < 4 → ¬ (rectLgw s.ts.rect = 0 ∧ rectLgh s.ts.rect = 0) → Free (useA a) s →
      (x ≠ la * 2 ^ 18 + lb * 2 ^ 21 ∨ rectLgw s.ts.rect < la ∨ rectLgh s.ts.rect < lb → IllegalWith i 1 s) ∧
      (x = la * 2 ^ 18 + lb * 2 ^ 21 → la ≤ rectLgw s.ts.rect → lb ≤ rectLgh s.ts.rect →
        let r := barlOf la lb s.ts
        let key := la * 8 + lb
        let ph := lookupD 0 s.core.phase key
        let now := if ph < lookupD 0 s.core.arrived key then ph + 1 else ph
        let passed (k : Nat) (t : State) : Prop :=
          (barlOf la lb t.ts).pending = false ∧ k + 1 ≤ lookupD 0 t.core.phase key
        (r.pending = true →
          ((∀ c ∈ subCores s.here la lb, coreArrived (myPid s) (myLid s) la lb s.ts.waitphase c s = true) →
            Completes i (useA a) s (passed s.ts.waitphase)) ∧
          ((∃ c ∈ subCores s.here la lb, coreArrived (myPid s) (myLid s) la lb s.ts.waitphase c s = false) → Waits i s)) ∧
        (r.pending = false → palOk p.toNat s = false → Traps i 0x24 0 0 false s) ∧
        (r.pending = false → palOk p.toNat s = true → releaseReady o p s = false → Stalls i s) ∧
        (r.pending = false → palOk p.toNat s = true → releaseReady o p s = true →
          let t := barArrive la lb s
          ((∀ c ∈ subCores s.here la lb, coreArrived (myPid s) (myLid s) la lb now c t = true) →
            Completes i (useA a) s (passed now)) ∧
          ((∃ c ∈ subCores s.here la lb, coreArrived (myPid s) (myLid s) la lb now c t = false) →
            WaitsWith i s fun z => z.ts.waitphase = now ∧
              barlOf la lb z.ts = { a := la, b := lb, pending := true, arrivedAt := some now }))))

/-- 12 R262 to R272, 13 R300 to R302: PALGET writes the 264-byte membership record of an entry and returns its status; PALSET reads
a record, refuses a bad one with 1, and hands a good one to the palette home with 0; PALINV hands over a request without one; a launch
of one core runs every step at once; the entry's INVALIDATE and INSTALL messages change the copy of the core they reach and are
acknowledged, and so does its acknowledgement reach the home; one that a failed link, a drain or an earlier message of its flow holds
stays as it is (22 R415, R417).
It rests on choices of the model where the log says so: entry 17. -/
def Obligations.PaletteUpdates : Prop :=
  (∀ (s : State) (o : Order) (d a e : Reg),
    let n := (getS e s).toNat
    let off := getS a s
    (15 < n → Free (useABD d a (.reg e)) s → IllegalWith (.palget o d a e) 1 s) ∧
    (n ≤ 15 → Free (useABD d a (.reg e)) s → off.toNat % 8 = 0 → Memory.wf s.mem = true →
      ∀ t key cls f pa, ownAt .store 264 off s = .mem t key cls f pa → landsNow key 264 s = true →
        ∃ u, exec (.palget o d a e) s = .next u ∧ Retired (useABD d a (.reg e)) s u ∧ WritesReg d (palStatus n s) s u ∧
          Stored key (leBytes 264 (palRecord n s).value) s u) ∧
    (s.tid = 4 ∨ s.tid = 5 → IllegalWith (.palset o d a e) 2 s ∧ IllegalWith (.palinv o e) 2 s) ∧
    (s.tid ≠ 4 → s.tid ≠ 5 → Free (useABD d a (.reg e)) s → s.gwerid = .up →
      (n < 4 ∨ 14 < n → IllegalWith (.palset o d a e) 1 s) ∧
      (4 ≤ n → n ≤ 14 →
        (off.toNat % 8 ≠ 0 ∨ (if s.ts.status.getLsbD 0 then 0x100000 else 0xFC000) < off.toNat + 264 →
          Gives (.palset o d a e) (useABD d a (.reg e)) d 1 s fun t => t.launches = s.launches) ∧
        (off.toNat % 8 = 0 → off.toNat + 264 ≤ 0xFC000 → ∀ x t, ownLoad 8 264 off s = .val x t →
          (recordOk x s = false → Gives (.palset o d a e) (useABD d a (.reg e)) d 1 s fun u => u.launches = s.launches) ∧
          (recordOk x s = true → NoneResting s → ∀ l, myLaunch s = some l →
            (l.lgw ≠ 0 ∨ l.lgh ≠ 0 → Gives (.palset o d a e) (useABD d a (.reg e)) d 0 s fun u =>
              ∃ k r, launchOf (myPid s) (myLid s) u = some k ∧ r ∈ k.palReqs ∧ r.entry = n ∧ r.core = s.here ∧ r.tid = s.tid ∧
                r.mem = some (palMemOf x)) ∧
            (AtOnce l n s → Gives (.palset o d a e) (useABD d a (.reg e)) d 0 s fun u =>
              vecGet u.core.pal (n - 4) = updatedCopy l n (some (palMemOf x)) (vecGet s.core.pal (n - 4))))))) ∧
    (s.tid ≠ 4 → s.tid ≠ 5 → Free { len := 4, a := none, b := some (.s e), more := [], w := none } s →
      (n < 4 ∨ 14 < n → IllegalWith (.palinv o e) 1 s) ∧
      (4 ≤ n → n ≤ 14 → NoneResting s → ∀ l, myLaunch s = some l →
        (l.lgw ≠ 0 ∨ l.lgh ≠ 0 → Completes (.palinv o e) { len := 4, a := none, b := some (.s e), more := [], w := none } s fun u =>
          ∃ k r, launchOf (myPid s) (myLid s) u = some k ∧ r ∈ k.palReqs ∧ r.entry = n ∧ r.core = s.here ∧ r.tid = s.tid ∧
            r.mem = none) ∧
        (AtOnce l n s → Completes (.palinv o e) { len := 4, a := none, b := some (.s e), more := [], w := none } s fun u =>
          vecGet u.core.pal (n - 4) = updatedCopy l n none (vecGet s.core.pal (n - 4)))))) ∧
  (∀ (s0 : State) (n : Nat) (m : PalMsg),
    let s := palServiceAll s0
    let copy (t : State) := vecGet (getCore m.core t).pal (m.entry - 4)
    nth? s.palMsgs n = some m → (getCore m.core s).owner = some (m.pid, m.lid) →
    (m.step = .invalidate → oldFree m.pid m.lid m.core m.entry s = true → m.stuck s = false →
      ∃ u, exec (.paletteInvalidate n) s0 = .next u ∧ nth? u.palMsgs n = some { m with step := .ack, num := s.seq } ∧
        copy u = { gen := m.gen, mem := m.mem.getD (copy s).mem, inv := true, old := some ((copy s).gen, (copy s).mem) } ∧
        SameBytes s u) ∧
    (m.step = .invalidate → oldFree m.pid m.lid m.core m.entry s = false ∨ m.stuck s = true → exec (.paletteInvalidate n) s0 = .next s) ∧
    (m.step = .install → m.stuck s = false →
      ∃ u, exec (.paletteInstall n) s0 = .next u ∧ nth? u.palMsgs n = some { m with step := .ack, num := s.seq } ∧
        copy u = { copy s with gen := m.gen, mem := m.mem.getD (copy s).mem, inv := false } ∧ SameBytes s u) ∧
    (m.step = .install → m.stuck s = true → exec (.paletteInstall n) s0 = .next s)) ∧
  (∀ (s0 : State) (n : Nat) (m : PalMsg), nth? (palServiceAll s0).palMsgs n = some m → m.step = .ack →
    m.stuck (palServiceAll s0) = true → exec (.paletteAck n) s0 = .next (palServiceAll s0)) ∧
  (∀ (s0 : State) (n : Nat) (m : PalMsg) (l : Launch) (r : PalReq),
    let s := palServiceAll s0
    nth? s.palMsgs n = some m → m.step = .ack → m.stuck s = false → NoneResting s → launchOf m.pid m.lid s = some l →
    (l.palReqs.filter fun q => q.entry == m.entry && q.started && q.done.isNone) = [r] →
    ∃ u k, exec (.paletteAck n) s0 = .next u ∧ launchOf m.pid m.lid u = some k ∧ SameBytes s u ∧
      ((∃ c ∈ r.waiting, c ≠ m.core) → { r with waiting := r.waiting.filter fun c => c != m.core } ∈ k.palReqs) ∧
      ((∀ c ∈ r.waiting, c = m.core) → r.mem ≠ none → r.installing = false →
        ∀ c ∈ l.cores, ∃ x ∈ u.palMsgs, x.core = c ∧ x.step = .install ∧ x.entry = r.entry ∧ x.gen = m.gen ∧ x.mem = r.mem))

/-! ## Event lines (08 R189 to R194; 10 R224, R225) -/

/-- 08 R190 to R194, 10 R224, R225: what EVWAIT and EVSIG do at a barrier, an event line and a mutex of the launch, with waiters and
without, what a configuration store does, and what a chain message does at each core that it reaches; both instructions are ILLEGAL
outside thread sets 0 to 3 and fault elsewhere. The order of a flow and its holds are those of 22 R415 and R417.
It rests on choices of the model where the log says so: entries 15, 17 and 18. -/
def Obligations.EventLines : Prop :=
  (∀ (s : State) (d base : Reg) (off : BitVec 12),
    let ga : Word := getS base s + off.signExtend 64
    (4 ≤ s.tid → IllegalWith (.evwait d base off) 2 s ∧ IllegalWith (.evsig base off) 2 s) ∧
    (s.tid < 4 → Free (useAD d base) s →
      (evLine? ga s = none → Traps (.evwait d base off) 0x21 16 ga false s) ∧
      (∀ n, evLine? ga s = some n →
        let e := lineOf s.here n s
        let w := EvLine.word
        let i := Instr.evwait d base off
        let u := useAD d base
        (∀ x r, myWait e s = some x → x.result = some r → Gives i u d r s fun t => NotWaiting (lineOf s.here n t) s) ∧
        (∀ x, myWait e s = some x → x.result = none → Waits i s) ∧
        (NotWaiting e s → drained (true, true) s = false → Stalls i s) ∧
        (NotWaiting e s → drained (true, true) s = true →
          (e.cfg.toNat / 2 ^ 16 % 4 = 0 → Traps i 0x21 16 ga false s) ∧
          (e.cfg.toNat / 2 ^ 16 % 4 = 1 →
            let f := { e with arrivals := if e.cfg.getLsbD (memberNo s) then e.arrivals ||| 2 ^ memberNo s else e.arrivals }
            (f.fires = false → WaitsWith i s fun t => AtTail e (lineOf s.here n t) (e.cfg.getLsbD (memberNo s)) s ∧
              (lineOf s.here n t).arrivals = f.arrivals ∧ t.chains = s.chains) ∧
            (f.fires = true →
              Gives i u d (w { e with gen := (e.gen + 1) % 2 ^ 32, count := e.count - evCin e.cfg, arrivals := 0 }) s fun t =>
                Fired e (lineOf s.here n t) e.count ∧ NotWaiting (lineOf s.here n t) s ∧
                t.chains = chainsAfter (myPid s) (myLid s) (lineCore s.here n) e s)) ∧
          (e.cfg.toNat / 2 ^ 16 % 4 = 2 →
            (e.count = 0 → WaitsWith i s fun t => AtTail e (lineOf s.here n t) false s) ∧
            (e.count ≠ 0 → Gives i u d (w { e with count := e.count - 1 }) s fun t =>
              lineOf s.here n t = { e with count := e.count - 1 })) ∧
          (e.cfg.toNat / 2 ^ 16 % 4 = 3 →
            let f := { e with held := true, holder := memberNo s, gen := (e.gen + 1) % 2 ^ 32 }
            (e.held = true → WaitsWith i s fun t => AtTail e (lineOf s.here n t) false s) ∧
            (e.held = false → Gives i u d (w f) s fun t => lineOf s.here n t = f))))) ∧
    (s.tid < 4 → Free (useA base) s →
      (evLine? ga s = none → Traps (.evsig base off) 0x21 17 ga false s) ∧
      (∀ n, evLine? ga s = some n → drained (true, true) s = false → Stalls (.evsig base off) s) ∧
      (∀ n, evLine? ga s = some n → drained (true, true) s = true →
        let e := lineOf s.here n s
        let i := Instr.evsig base off
        let line (f : EvLine) (t : State) : Prop := lineOf s.here n t = f
        let f := { e with arrivals := e.arrivals ||| 2 ^ memberNo s }
        (e.cfg.toNat / 2 ^ 16 % 4 = 0 → Traps i 0x21 17 ga false s) ∧
        (e.cfg.toNat / 2 ^ 16 % 4 = 1 → e.cfg.getLsbD (memberNo s) = true →
          (f.fires = false → Completes i (useA base) s (line f)) ∧
          (f.fires = true → Completes i (useA base) s fun t => Fired e (lineOf s.here n t) e.count ∧
            t.chains = chainsAfter (myPid s) (myLid s) (lineCore s.here n) e s)) ∧
        (e.cfg.toNat / 2 ^ 16 % 4 = 1 → e.cfg.getLsbD (memberNo s) = false → Completes i (useA base) s (line e)) ∧
        (e.cfg.toNat / 2 ^ 16 % 4 = 2 → NoWaiters e →
          Completes i (useA base) s (line { e with count := Nat.min 65535 (e.count + 1), gen := (e.gen + 1) % 2 ^ 32 })) ∧
        (e.cfg.toNat / 2 ^ 16 % 4 = 2 → ∀ x, e.waiters.find? (fun y => y.result.isNone) = some x →
          Completes i (useA base) s (line (SignalServed e x))) ∧
        (e.cfg.toNat / 2 ^ 16 % 4 = 3 → e.held = true → e.holder = memberNo s → NoWaiters e →
          Completes i (useA base) s (line { e with held := false })) ∧
        (e.cfg.toNat / 2 ^ 16 % 4 = 3 → e.held = true → e.holder = memberNo s →
          ∀ x, e.waiters.find? (fun y => y.result.isNone) = some x → Completes i (useA base) s fun t =>
            let g := lineOf s.here n t
            g.held = true ∧ g.holder = 4 * (x.core / 64 % 4) + x.tid % 4 ∧ g.gen = (e.gen + 1) % 2 ^ 32 ∧
              g.waiters = Served e x g.word) ∧
        (e.cfg.toNat / 2 ^ 16 % 4 = 3 → ¬ (e.held = true ∧ e.holder = memberNo s) →
          Completes i (useA base) s (line { e with misuse := true }))))) ∧
  (∀ (s : State) (n : BitVec 5) (a : Reg), Free (withMore useNone [.s a]) s →
    let x := getS a s
    let e := lineOf s.here n.toNat s
    (lineMine n.toNat s = true → evCfgOk x s = true →
      Completes (.eventConfigStore n a) (withMore useNone [.s a]) s fun t =>
        let f := lineOf s.here n.toNat t
        f.cfg = x ∧ f.misuse = false ∧ f.held = false ∧ f.holder = 0 ∧ f.count = 0 ∧ f.gen = 0 ∧ f.arrivals = 0 ∧
          ∀ w ∈ e.waiters, w.result = none → { w with result := some (e.word ||| 1 <<< 63) } ∈ f.waiters) ∧
    (lineMine n.toNat s = false ∨ evCfgOk x s = false →
      Traps (.eventConfigStore n a) 0x21 17 (BitVec.ofNat 64 (0x404 * 2 ^ 53 + 256 + 8 * n.toNat)) false s)) ∧
  (∀ (s : State) (n : Nat) (m : ChainMsg), nth? s.chains n = some m →
    let i := Instr.chainMessage n
    let k (c : Nat) (t : State) := vecGet (ownedCore m.pid m.lid c t).lines (bitsOf m.cfg.toNat 28 5 % 8)
    let counted (c : Nat) : EvLine := { k c s with count := Nat.min 65535 ((k c s).count + 1) }
    (m.left ≠ [] → (∀ c ∈ m.left, m.waits s c = true) → exec i s = .next s) ∧
    (∀ c, m.left = [c] → m.waits s c = false →
      (ownedBy m.pid m.lid c s = false → exec i s = .next (countFwDrop m.pid { s with chains := dropNth s.chains n })) ∧
      (ownedBy m.pid m.lid c s = true → ∃ u, exec i s = .next u ∧ SameBytes s u ∧
        (evType (k c s).cfg = 2 → u.chains = dropNth s.chains n ∧
          (NoWaiters (k c s) → k c u = { counted c with gen := ((k c s).gen + 1) % 2 ^ 32 }) ∧
          ∀ x, (k c s).waiters.find? (fun y => y.result.isNone) = some x → k c u = SignalServed (k c s) x) ∧
        (evType (k c s).cfg = 1 →
          ((counted c).fires = false → u.chains = dropNth s.chains n ∧ k c u = counted c) ∧
          ((counted c).fires = true → Fired (k c s) (k c u) (counted c).count ∧
            u.chains = chainsAfter m.pid m.lid c (k c s) { s with chains := dropNth s.chains n })))) ∧
    (m.left.Nodup → ∃ u, exec i s = .next u ∧
      (∀ c ∈ m.left, m.waits s c = false → ownedBy m.pid m.lid c s = true → evType (k c s).cfg = 1 → (counted c).fires = false →
        k c u = counted c) ∧
      (∀ c ∈ m.left, m.waits s c = true → k c u = k c s ∧
        nth? u.chains n = some { m with left := m.left.filter fun c => m.waits s c })))

/-- The statements Fences and LaunchBarrier together.
It rests on choices of the model where the log says so: entries 17 and 23. -/
def Obligations.FencesAndLaunchBarrier : Prop :=
  Sys2Proof.Claims.Fences ∧ Sys2Proof.Claims.LaunchBarrier

namespace Sys2Proof.Claims

/-- The counter condition of 15 R324: the counter has come within 2^31 beyond the threshold. -/
def reached (c h : Nat) : Bool := decide ((c + 2 ^ 32 - h) % 2 ^ 32 < 2 ^ 31)

/-- A command armed on counter `n` fires where the condition holds of its new value (15 R324). -/
def fires (n v : Nat) (m : Cmd) : Cmd := if m.trg = n ∧ m.fired = false ∧ reached v m.thr = true then { m with fired := true } else m

/-- Counter `n` of the thread set's context has the value `v`, and the commands armed on it have been looked at. -/
def CounterIs (n v : Nat) (s t : State) : Prop :=
  myCounter n t = v ∧ ∀ q ∈ trgQueues s.tid, vecGet t.core.queues q = (vecGet s.core.queues q).map (fires n v)

/-- The numbers of the focused thread set's accesses that are still to be performed: of its retired operations, and of its accepted
matrix operations that read operands (12 R266). -/
def earlierAccesses (s : State) : List Nat :=
  (s.pend.filter fun p => p.core == s.here && p.tid == s.tid && p.pid == myPid s && p.lid == myLid s).map (fun p => p.id) ++
    (s.core.matq.filter fun o => o.kind != .zero && (o.tid == s.tid && o.pid == myPid s && o.lid == myLid s)).map fun o => o.seq

/-- The command that a word gives at its enqueue: what the statements below say of it (15 R318). -/
def Enqueued (w : BitVec 256) (byEnqv : Bool) (s : State) (m : Cmd) : Prop :=
  m.tcw = w ∧ m.byEnqv = byEnqv ∧ m.tid = s.tid ∧ m.pid = myPid s ∧ m.lid = myLid s ∧ m.priv = s.ts.priv ∧
    m.f = s.ts.status.getLsbD 0 ∧ m.started = false ∧ m.fin = none ∧ m.seq = s.seq ∧
    (w.extractLsb' 216 6 = 0 → m.fired = true) ∧
    m.after = earlierAccesses s

/-- Slot `i` of the focused thread set. -/
def slotAt (i : Nat) (s : State) : Slot := vecGet s.ts.slots i

/-- Slot `i` is `k` after it, and every other slot is as before. -/
def SlotIs (i : Nat) (k : Slot) (s t : State) : Prop := slotAt i t = k ∧ ∀ j, j < 8 → j ≠ i → slotAt j t = slotAt j s

/-- The number of elements that a slot has in all (06 R155). -/
def elements (k : Slot) : Nat := k.counts.foldl (fun a b => a * b) 1

/-- Slot `i` is bound to register `r`, to be read, and the element at its position, which has arrived, gives the register `v` (06 R158). -/
def Ready (r : RegRef) (i v : Nat) (s : State) : Prop :=
  boundSlot r s = some i ∧ (match r with
    | .s n => n ≠ 0 ∧ n.toNat < 24
    | .v _ => True) ∧
  (slotAt i s).write = false ∧ (slotAt i s).st = .active ∧ (slotAt i s).held = none ∧ (slotAt i s).pos < elements (slotAt i s) ∧
  ∃ x, (slotAt i s).buf.find? (fun y => y.1 == (slotAt i s).pos) = some ((slotAt i s).pos, x) ∧ v = (slotAt i s).value x.toNat

/-- The state of a bound slot with position `n` and no held fault (06 R154). -/
def settledAt (k : Slot) (n : Nat) : SlotSt := if n = elements k then .done else .active

/-- The instruction has popped slot `i`: its position is one further (06 R158). -/
def Popped (i : Nat) (s t : State) : Prop :=
  (slotAt i t).pos = (slotAt i s).pos + 1 ∧ (slotAt i t).st = settledAt (slotAt i s) ((slotAt i s).pos + 1)

/-- `i` retires with `v` in scalar register `d`, every other register and byte as before, and each of the slots `js` moved on once. -/
def GivesPopping (i : Instr) (u : Use) (d : Reg) (v : Word) (js : List Nat) (s : State) : Prop :=
  ∃ t, exec i s = .next t ∧ Retired u s t ∧ WritesReg d v s t ∧ t.ts.v = s.ts.v ∧ SameBytes s t ∧ t.pend = s.pend ∧
    (∀ j ∈ js, Popped j s t) ∧ ∀ j, j < 8 → j ∉ js → slotAt j t = slotAt j s

end Sys2Proof.Claims

/-! ## Tasks and messages (08 R181 to R188, R195 to R197; 10 R228 to R234) -/

/-- 08 R182, R183, R187; 10 R228: CPOST returns 3 for a stage that the launch has not, 2 for a bad record, 1 where no core or no room
is there for it, and 0 where the record has joined the ring of the core that its KEY gives, once the thread set's earlier accesses have
been performed and the mesh lets the record pass (22 R415, R417); it is ILLEGAL outside thread sets 0 to 3 of a launch with stages. -/
def Sys2Proof.Claims.ContinuationPost : Prop :=
  ∀ (s : State) (d a : Reg) (stage : BitVec 3),
    let i := Instr.cpost d a stage
    let u := useAD d a
    let off := getS a s
    (myLaunch s = none ∨ 4 ≤ s.tid → IllegalWith i 2 s) ∧
    (∀ l, myLaunch s = some l → (l.stages = [] → IllegalWith i 2 s) ∧
      (l.stages ≠ [] → s.tid < 4 → Free u s → s.gwerid = .up →
        (l.stages.length ≤ stage.toNat → Gives i u d 3 s fun t => t.launches = s.launches) ∧
        (stage.toNat < l.stages.length →
          (off.toNat % 64 ≠ 0 ∨ (if s.ts.status.getLsbD 0 then 0x100000 else 0xFC000) < off.toNat + 64 → Gives i u d 2 s fun t => t.launches = s.launches) ∧
          (off.toNat % 64 = 0 → off.toNat + 64 ≤ 0xFC000 → ∀ x t, ownLoad 64 64 off s = .val x t →
            (recordValid x = false → Gives i u d 2 s fun t => t.launches = s.launches) ∧
            (recordValid x = true →
              let h := recHome (bitsOf x 0 64) t
              (recTarget l stage.toNat h t = none → Gives i u d 1 s fun t => t.launches = s.launches) ∧
              (∀ c, recTarget l stage.toNat h t = some c →
                let ring (v : State) := vecGet (ownedCore l.pid l.lid c v).rings stage.toNat
                let full (v : State) := vecGet (ownedCore l.pid l.lid c v).ringFull stage.toNat
                ownedBy l.pid l.lid c t = true →
                (32 ≤ (ring t).length → Gives i u d 1 s fun v => ring v = ring t ∧ full v = full t + 1) ∧
                ((ring t).length < 32 → drained (true, true) t = false ∨ meshWait s.here c t = true → Stalls i s) ∧
                ((ring t).length < 32 → drained (true, true) t = true → meshWait s.here c t = false →
                  Gives i u d 0 s fun v => ring v = ring t ++ [{ data := leBytes 64 x, home := h }] ∧ full v = full t)))))))

/-- 10 R229, R230; 20 R406: TASKEND waits until its thread set's writes have been performed and then ends the task, IDLE in a launch
with stages and ENDED elsewhere; YIELD marks its thread set as having yielded; both are ILLEGAL in slice context 6. -/
def Sys2Proof.Claims.TaskControl : Prop :=
  ∀ s : State,
    (s.tid = 6 → IllegalWith .taskend 2 s ∧ IllegalWith .yield 2 s) ∧
    (s.tid ≠ 6 →
      ((∃ p ∈ s.pend, p.core = s.here ∧ p.tid = s.tid ∧ p.pid = myPid s ∧ p.lid = myLid s) → ∃ t, exec .taskend s = .next t ∧ t.ts.pc = s.ts.pc ∧ t.ts.run = .stalled) ∧
      ((∀ p ∈ s.pend, ¬ (p.core = s.here ∧ p.tid = s.tid)) → s.tid < 4 →
        ∃ t, exec .taskend s = .next t ∧ t.ts.pc = s.ts.pc + 4 ∧ t.ts.run = (if staged s then .idle else .ended) ∧
          (staged s = true → t.ts.pins = []) ∧ (∀ r, getS r t = getS r s) ∧ SameBytes s t) ∧
      ((∀ p ∈ s.pend, ¬ (p.core = s.here ∧ p.tid = s.tid)) → s.tid = 4 ∨ s.tid = 5 → bankIdle s.here s.tid s = false →
        ∃ t, exec .taskend s = .next t ∧ t.ts.pc = s.ts.pc + 4 ∧ t.ts.run = .ended ∧ SameBytes s t)) ∧
    (Free useNone s → s.tid ≠ 6 →
      Completes .yield useNone s fun t => t.core = { s.core with yielded := some s.tid, count := 0 })

/-- 08 R195 to R197, 10 R223, R231 to R234, 22 R415, R417: SEND reads 64 bytes when it issues, puts them on their way where they will
find room and its flow is not draining, and else waits with them held; executed again, it sends what it holds; delivery, behind the
messages that go before it and what its flow carries before it, gives the inbox two entries, or the spill entries one where that has no
room; IBXPOP and IBXPEEK copy the oldest entry's 32 bytes and return its first eight, or 0; IBXWAIT
returns the kind and the number of entries once there is one.
It rests on choices of the model where the log says so: entry 17. -/
def Obligations.Messages : Prop :=
  (∀ (s : State) (a b : Reg),
    let dst := (getS a s).toNat
    (4 ≤ s.tid → IllegalWith (.send a b) 2 s) ∧
    (s.tid < 4 → Free (useAB a b) s → s.gwerid = .up →
      let sends (h : HeldSend) (t : State) : Prop :=
        let c := h.dst / 2 ^ 8 % 2 ^ 5 * 64 + h.dst % 2 ^ 6
        let n := h.dst / 2 ^ 16 % 4
        let goes := sendRoom c n t = true ∧ flowStopped (msgFlow s.here c t) s.seq t = false
        (goes → Completes (.send a b) (useAB a b) s fun u => heldSend { u with ts := { u.ts with pc := s.ts.pc } } = none ∧
          u.msgs = s.msgs ++
            [{ pid := myPid s, lid := myLid s, core := s.here, tid := s.tid, dst := c, dts := n, data := h.data,
               after := earlierAccesses s, num := s.seq }]) ∧
        (¬ goes → Stalls (.send a b) s ∧ ∃ u, exec (.send a b) s = .next u ∧ heldSend u = some h ∧ u.msgs = s.msgs)
      (∀ h, heldSend s = some h → sends h s) ∧
      (heldSend s = none → dst / 2 ^ 18 ≠ 0 ∨ dst / 2 ^ 13 % 8 ≠ 0 ∨ dst / 2 ^ 6 % 4 ≠ 0 → IllegalWith (.send a b) 1 s) ∧
      (heldSend s = none → dst / 2 ^ 18 = 0 → dst / 2 ^ 13 % 8 = 0 → dst / 2 ^ 6 % 4 = 0 →
        ∀ x t, ownLoad 32 64 (getS b s) s = .val x t → sends { pc := s.ts.pc, dst := dst, data := leBytes 64 x } t))) ∧
  (∀ (s : State) (n : Nat) (m : Msg), nth? s.msgs n = some m →
    (∀ x ∈ s.msgs.take n, x.before m = false) → flowWaits (msgFlow m.core m.dst s) m.num s = false →
    (∀ p ∈ s.pend, p.id ∉ m.after) → (∀ o ∈ (getCore m.core s).matq, o.seq ∉ m.after) → (getCore m.dst s).owner = some (m.pid, m.lid) → (getCore m.dst s).pre = .none →
    let l := (getCore m.dst s).inboxOf m.dts
    let fits : Prop := (l.filter fun e => e.kind != 3).length + 2 ≤ 12 ∧ l.length + 2 ≤ 16 ∧ (getCore m.dst s).spilled m.dts = false
    ∃ u, exec (.messageDelivery n) s = .next u ∧ u.msgs = dropNth s.msgs n ∧ SameBytes s u ∧
      (fits → (getCore m.dst u).spill = (getCore m.dst s).spill ∧ (getCore m.dst u).inboxOf m.dts = l ++
        [{ kind := 1, data := m.data.take 32, ux := none }, { kind := 2, data := m.data.drop 32, ux := none }]) ∧
      (¬ fits → (getCore m.dst u).inboxOf m.dts = l ∧
        (getCore m.dst u).spill = (getCore m.dst s).spill ++ [(m.dts, { kind := 1, data := m.data, ux := none })])) ∧
  (∀ (s : State) (n : Nat) (m : Msg), nth? s.msgs n = some m →
    (∃ x ∈ s.msgs.take n, x.before m = true) ∨ m.injected s = false ∨ flowWaits (msgFlow m.core m.dst s) m.num s = true →
    exec (.messageDelivery n) s = .next s) ∧
  (∀ (s : State) (d a : Reg),
    (s.tid = 6 → IllegalWith (.ibxpop d a) 2 s ∧ IllegalWith (.ibxpeek d a) 2 s ∧ IllegalWith (.ibxwait d) 2 s) ∧
    (s.tid ≠ 6 →
      (Free (useAD d a) s → (getS a s).toNat % 32 = 0 → ∀ t key cls f pa, ownAt .store 32 (getS a s) s = .mem t key cls f pa →
        mineAt key 32 s = [] →
        (s.core.inboxOf s.tid = [] → Gives (.ibxpop d a) (useAD d a) d 0 s (fun t => t.core = s.core) ∧
          Gives (.ibxpeek d a) (useAD d a) d 0 s fun t => t.core = s.core) ∧
        (∀ e rest, s.core.inboxOf s.tid = e :: rest → e.data.length = 32 → landsNow key 32 s = true → s.core.spill = [] →
          Memory.wf s.mem = true →
          (∃ u, exec (.ibxpop d a) s = .next u ∧ Retired (useAD d a) s u ∧
            WritesReg d (BitVec.ofNat 64 (leValue (e.data.take 8))) s u ∧ Stored key e.data s u ∧ u.core.inboxOf s.tid = rest) ∧
          (∃ u, exec (.ibxpeek d a) s = .next u ∧ Retired (useAD d a) s u ∧
            WritesReg d (BitVec.ofNat 64 (leValue (e.data.take 8))) s u ∧ Stored key e.data s u ∧
            u.core.inboxOf s.tid = e :: rest))) ∧
      (Free (useD d) s →
        (s.core.inboxOf s.tid = [] → Waits (.ibxwait d) s) ∧
        (∀ e rest, s.core.inboxOf s.tid = e :: rest → e.kind < 4 → rest.length < 31 →
          Gives (.ibxwait d) (useD d) d (BitVec.ofNat 64 (2 ^ 8 * e.kind + (rest.length + 1))) s fun t => t.core = s.core))))

/-! ## Commands and trigger counters (15 R313 to R325) -/

/-- 15 R318, 12 R273: ENQ reads a 32-byte command word from local memory, ENQV takes it from a vector register; the command joins the
tail of its class's queue with its issuer's identity, PRIV and level and with the retired operations that it is to follow; a full
queue or window table, or a retired operation of its own on its parameter block, stalls it with the word that it has read, and an
INVALID palette entry traps. -/
def Sys2Proof.Claims.CommandEnqueue : Prop :=
  ∀ (s : State),
    let joins (i : Instr) (u : Use) (w : BitVec 256) (byEnqv : Bool) (idx : List Nat) (t : State) : Prop :=
      let e := bitsOf w.toNat 240 4
      let m0 := cmdOf w byEnqv idx (palGen e t) t
      let m := prepared m0 t
      let cq := queueFor s.tid (bitsOf w.toNat 244 4)
      let stalls := queueCap cq ≤ (vecGet s.core.queues cq).length ∨ 96 < windowCount t + m.reads.length + m.writes.length ∨
        blockWaits m0 t = true
      s.ts.palHold = [] → palOk e t = true →
      (¬ stalls →
        ∃ x q, exec i s = .next x ∧ Retired u s x ∧ (∀ r, getS r x = getS r s) ∧ SameBytes s x ∧
          vecGet x.core.queues cq = vecGet s.core.queues cq ++ [q] ∧ Enqueued w byEnqv s q) ∧
      (stalls → Stalls i s)
    (∀ a : Reg, Free (useA a) s → ∀ x t,
      s.ts.enqWord = some x ∧ t = s ∨
        s.ts.enqWord = none ∧ ∃ y, ownLoad 32 32 (getS a s) s = .val x y ∧ t = { y with ts := { y.ts with enqWord := some x } } →
      joins (.enq a) (useA a) (BitVec.ofNat 256 x) false [] t ∧
      (s.ts.palHold = [] → palOk (bitsOf x 240 4) s = false → x < 2 ^ 256 → Traps (.enq a) 0x24 0 (getS a s) false s)) ∧
    (∀ a : VReg,
      let w := (getV a s).setWidth 256
      let ix := w.extractLsb' 248 8 = 0x12 ∨ w.extractLsb' 248 8 = 0x13
      let u : Use := { len := 4, a := some (.v a), b := none, more := if ix then [.v (a + 1), .v (a + 2)] else [], w := none }
      Free u s →
      joins (.enqv a) u w true (if ix then lanes (getV (a + 1) s) ++ lanes (getV (a + 2) s) else []) s ∧
      (s.ts.palHold = [] → palOk (bitsOf w.toNat 240 4) s = false → Traps (.enqv a) 0x24 0 0 false s))

/-- 15 R324, R325; 20 R397: TRGADD adds to a counter and TRGSET sets it, both after the thread set's earlier accesses and with the
firing of the commands armed on it; TRGSET without force is refused with 1 while an armed command has not fired; TRGWAIT waits
for the counter's condition and TRGGET reads it. A counter above 7 is ILLEGAL in a reserve bank. -/
def Sys2Proof.Claims.TriggerCounters : Prop :=
  ∀ (s : State) (n : BitVec 6) (d a : Reg),
    let k := n.toNat
    let x := (getS a s).toNat % 2 ^ 32
    let bank := (s.tid = 4 ∨ s.tid = 5) ∧ 8 ≤ k
    let armed := ∃ q ∈ trgQueues s.tid, ∃ m ∈ vecGet s.core.queues q, m.trg = k ∧ m.fired = false
    (bank → IllegalWith (.trgadd n a) 2 s ∧ (∀ f, IllegalWith (.trgset f n d a) 2 s) ∧ IllegalWith (.trgwait n a) 2 s ∧
      IllegalWith (.trgget n d) 2 s) ∧
    (¬ bank →
      (Free (useA a) s →
        (drained (true, true) s = true →
          Completes (.trgadd n a) (useA a) s (CounterIs k ((myCounter k s + x) % 2 ^ 32) s)) ∧
        (drained (true, true) s = false → Stalls (.trgadd n a) s) ∧
        (reached (myCounter k s) x = true → Completes (.trgwait n a) (useA a) s fun t => t.core = s.core) ∧
        (reached (myCounter k s) x = false → s.ts.trgWait ≠ some (k, x, true) → Waits (.trgwait n a) s)) ∧
      (Free (useAD d a) s → ∀ f,
        (armed → f = false → Gives (.trgset f n d a) (useAD d a) d 1 s fun t => t.core = s.core) ∧
        (¬ armed ∨ f = true → drained (true, true) s = true →
          Gives (.trgset f n d a) (useAD d a) d 0 s (CounterIs k x s)) ∧
        (¬ armed ∨ f = true → drained (true, true) s = false → Stalls (.trgset f n d a) s)) ∧
      (Free (useD d) s → Gives (.trgget n d) (useD d) d (BitVec.ofNat 64 (myCounter k s)) s fun t => t.core = s.core))

/-! ## Streams (06 R154 to R163) -/

/-- 06 R154 to R157, R161, R162: SBIND binds a FREE slot to a register that nothing is bound to, from a valid descriptor, and else
takes STREAM_STATE with the DETAIL of the reason; SFREE and SDRAIN wait for a write slot's elements to be performed; SFREE frees,
SDRAIN empties the buffer of a read slot, SSKIP moves the position, not beyond the end, and SSTAT reads the status word.
It rests on choices of the model where the log says so: entry 30. -/
def Obligations.StreamControl : Prop :=
  ∀ (s : State) (n : BitVec 3),
    let i := n.toNat
    let k := slotAt i s
    let waiting := ∃ p ∈ s.pend, p.core = s.here ∧ p.tid = s.tid ∧ p.pid = myPid s ∧ p.lid = myLid s ∧ p.slot = some i
    (∀ (write vec : Bool) (d a : Reg), Free (useA a) s → s.gwerid = .up →
      let x := Instr.sbind write vec n d a
      let off := (getS a s).toNat
      let named := (vec = false ∧ (d = 0 ∨ 24 ≤ d.toNat)) ∨ ∃ j, boundSlot (bindReg vec d) s = some j
      (k.st ≠ .free → Traps x 7 1 (BitVec.ofNat 64 i) false s) ∧
      (k.st = .free → named → Traps x 7 2 (BitVec.ofNat 64 i) false s) ∧
      (k.st = .free → ¬ named → off % 64 ≠ 0 ∨ (if s.ts.status.getLsbD 0 then 0x100000 else 0xFC000) < off + 64 → Traps x 7 3 (BitVec.ofNat 64 i) false s) ∧
      (k.st = .free → ¬ named → off % 64 = 0 → off + 64 ≤ 0xFC000 →
        ∀ p t, loadAt 64 (BitVec.ofNat 64 (0x400 * 2 ^ 53 + off)) s = .val p t →
        (descriptorValid p vec write = false → Traps x 7 3 (BitVec.ofNat 64 i) false s) ∧
        (descriptorValid p vec write = true → Completes x (useA a) s fun u =>
          ∃ b, SlotIs i b s u ∧ b.st = .active ∧ b.write = write ∧ b.vec = vec ∧ b.reg = d.toNat ∧ b.pos = 0 ∧ b.buf = [] ∧
            b.held = none ∧ b.base = BitVec.ofNat 64 (p % 2 ^ 64) ∧ b.esize = p / 2 ^ 448 % 2 ^ 8 ∧
            b.sext = decide (p / 2 ^ 456 % 2 = 1) ∧
            b.counts = [p / 2 ^ 64 % 2 ^ 32, p / 2 ^ 96 % 2 ^ 32, p / 2 ^ 128 % 2 ^ 32, p / 2 ^ 160 % 2 ^ 32] ∧
            b.strides = [BitVec.ofNat 64 (p / 2 ^ 192), BitVec.ofNat 64 (p / 2 ^ 256), BitVec.ofNat 64 (p / 2 ^ 320),
              BitVec.ofNat 64 (p / 2 ^ 384)]))) ∧
    (Free useNone s →
      (k.write = true → waiting → Stalls (.sfree n) s) ∧
      (k.write = false ∨ ¬ waiting → Completes (.sfree n) useNone s (SlotIs i Slot.empty s)) ∧
      (k.st = .free → Traps (.sdrain n) 7 4 (BitVec.ofNat 64 i) false s) ∧
      (k.st ≠ .free → k.write = true → waiting → Stalls (.sdrain n) s) ∧
      (k.st ≠ .free → k.write = true → ¬ waiting → Completes (.sdrain n) useNone s (SlotIs i k s)) ∧
      (k.st ≠ .free → k.write = false →
        Completes (.sdrain n) useNone s (SlotIs i { k with buf := [], held := none, st := settledAt k k.pos } s))) ∧
    (∀ d : Reg, Free (useD d) s →
      (k.st = .free → Gives (.sstat n d) (useD d) d 0 s (SlotIs i k s)) ∧
      (k.st ≠ .free → Gives (.sstat n d) (useD d) d
        (BitVec.ofNat 64 ((elements k - k.pos) * 2 ^ 16 + k.reg * 2 ^ 8 + (if k.vec then 2 ^ 7 else 0) +
          (if k.write then 2 ^ 6 else 0) + (match k.st with
            | .free => 0
            | .active => 1
            | .done => 2
            | .faulted => 3))) s (SlotIs i k s))) ∧
    (∀ a : Reg, Free (useA a) s →
      let pos := Nat.min (k.pos + (getS a s).toNat) (elements k)
      (k.st = .free → Traps (.sskip n a) 7 4 (BitVec.ofNat 64 i) false s) ∧
      (k.st ≠ .free → k.held = none → Completes (.sskip n a) (useA a) s
        (SlotIs i { k with pos := pos, buf := k.buf.filter (fun b => decide (pos ≤ b.1)), st := settledAt k pos } s)))

/-- 06 R158 to R160: an instruction that reads a register bound to an ACTIVE read slot reads the next element, and the slot moves on
when it retires while the register keeps its own contents; one that writes a register bound to an ACTIVE write slot appends a
store of the low bytes of its result, or waits while the slot's buffer of 512 bytes is full; the wrong direction and a DONE slot take
STREAM_STATE; the fetch-ahead reads an element before an instruction wants it and holds the fault that it meets. Every source that is
bound gives its element, once however often the instruction names it: shown by ADD, by all integer instructions with both sources bound,
by SEL with three, by INS with its source, by the data register of ST, and by the element operations on vector registers, whose inactive
elements an append writes as zero. -/
def Sys2Proof.Claims.StreamRegisters : Prop :=
  (∀ (s : State) (d a b : Reg) (i : Nat), boundSlot (.s a) s = some i → boundSlot (.s b) s = none → boundSlot (.s d) s = none →
    s.gwerid = .up →
    let u := useABD d a (.reg b)
    let k := slotAt i s
    let x := Instr.add d a (.reg b)
    s.ts.pc.toNat + 4 < fetchLimit s → a.toNat < 24 → a ≠ 0 →
    (k.write = true → Traps x 7 5 (BitVec.ofNat 64 i) false s) ∧
    (k.write = false → k.st = .done → Traps x 7 6 (BitVec.ofNat 64 i) false s) ∧
    (k.write = false → k.st = .active → k.held = none → k.pos < elements k →
      (∀ v, k.buf.find? (fun y => y.1 == k.pos) = some (k.pos, v) →
        ∃ t, exec x s = .next t ∧ Retired u s t ∧ getS d t = (if d = 0 then 0 else BitVec.ofNat 64 (k.value v.toNat) + getS b s) ∧
          getS a t = getS a s ∧ SameBytes s t ∧ (slotAt i t).pos = k.pos + 1 ∧
          (slotAt i t).st = settledAt k (k.pos + 1)) ∧
      (k.buf.find? (fun y => y.1 == k.pos) = none → ∀ v t, loadAt k.bytes (k.addr k.pos) s = .val v t →
        ∃ t, exec x s = .next t ∧ Retired u s t ∧ getS d t = (if d = 0 then 0 else BitVec.ofNat 64 (k.value v) + getS b s) ∧
          getS a t = getS a s ∧ SameBytes s t ∧ (slotAt i t).pos = k.pos + 1 ∧
          (slotAt i t).st = settledAt k (k.pos + 1)))) ∧
  (∀ (s : State) (d a b : Reg) (i : Nat), boundSlot (.s d) s = some i → boundSlot (.s a) s = none → boundSlot (.s b) s = none →
    s.gwerid = .up →
    let u := useABD d a (.reg b)
    let k := slotAt i s
    let x := Instr.add d a (.reg b)
    s.ts.pc.toNat + 4 < fetchLimit s → d.toNat < 24 → d ≠ 0 →
    (k.write = false → Traps x 7 5 (BitVec.ofNat 64 i) false s) ∧
    (k.write = true → k.st = .done → Traps x 7 6 (BitVec.ofNat 64 i) false s) ∧
    (k.write = true → k.st = .active → bufferFull i k s = true → Stalls x s) ∧
    (k.write = true → k.st = .active → bufferFull i k s = false →
      ∀ t key cls e pa, reach .store k.bytes (k.addr k.pos) .forbid none s = .mem t key cls e pa →
      ∃ y q, exec x s = .next y ∧ Retired u s y ∧ (∀ r, getS r y = getS r s) ∧ SameBytes s y ∧ (slotAt i y).pos = k.pos + 1 ∧
        y.pend = s.pend ++ [q] ∧ q.key = key ∧ q.slot = some i ∧ q.op = .store (leBytes k.bytes (getS a s + getS b s).toNat))) ∧
  (∀ (s : State) (d a b c : Reg) (i j : Nat) (x y : Nat), s.ts.pc.toNat + 4 < fetchLimit s →
    let e (v : Nat) : Word := BitVec.ofNat 64 v
    Ready (.s a) i x s → boundSlot (.s d) s = none →
    (Ready (.s b) j y s → ∀ p ∈ integerForms d a (.reg b) (e x) (e y), GivesPopping p.1 (useABD d a (.reg b)) d p.2 [i, j] s) ∧
    (Ready (.s b) j y s → ∀ l z, Ready (.s c) l z s →
      GivesPopping (.sel d c a (.reg b)) (withMore (useABD d a (.reg b)) [.s c]) d (if e z = 0 then e y else e x) [i, j, l] s) ∧
    (∀ (imm : BitVec 15) (n : BitVec 6), ∀ p ∈ immediateForms d a imm n (e x), GivesPopping p.1 (useAD d a) d p.2 [i] s) ∧
    (∀ w p : BitVec 6, w.toNat + 1 + p.toNat ≤ 64 →
      GivesPopping (.ins d a w p) (withMore (useAD d a) [.s d]) d (putField (getS d s) (e x) w p) [i] s) ∧
    (∀ (z : StSize) (off : BitVec 12), boundSlot (.s b) s = none → b ≠ a → s.gwerid = .up →
      let t := { s with ts := { s.ts with s := vecSet s.ts.s a.toNat (e x) } }
      let ga : Word := getS b s + off.signExtend 64
      ∀ v key cls f pa, reach .store (storeSize z) ga .forbid none t = .mem v key cls f pa → landsNow key (storeSize z) v = false →
        ∃ u, exec (.st z a b off) s = .next u ∧ Retired (withMore (useA b) [.s a]) s u ∧ (∀ r, getS r u = getS r s) ∧ SameBytes s u ∧
          u.pend = s.pend ++ [storeEntry key pa cls ga (leBytes (storeSize z) x) s.seq s] ∧ Popped i s u)) ∧
  (∀ (s : State) (ty : VTy) (q : QReg) (d a b : VReg), s.ts.pc.toNat + 4 < fetchLimit s → vFmt ty = none → locked (useVVV d a b) s = false →
    let w := vWidth ty
    let u := useVVV d a b
    ∀ p ∈ integerLanes ty q d a b,
      (∀ i j x y, Ready (.v a) i x s → Ready (.v b) j y s → boundSlot (.v d) s = none →
        let f (n : Nat) := p.2 (8 * w) (lane w n (BitVec.ofNat 512 x)) (lane w n (BitVec.ofNat 512 y))
        ∃ t, exec p.1 s = .next t ∧ Retired u s t ∧ (∀ r, r ≠ d → getV r t = getV r s) ∧ (∀ r, getS r t = getS r s) ∧ SameBytes s t ∧
          Popped i s t ∧ Popped j s t ∧ ∀ n, n < 64 / w → (laneOn q w n s → lane w n (getV d t) = f n) ∧
            (¬ laneOn q w n s → lane w n (getV d t) = lane w n (getV d s))) ∧
      (∀ i, boundSlot (.v d) s = some i → boundSlot (.v a) s = none → boundSlot (.v b) s = none → s.gwerid = .up →
        let k := slotAt i s
        k.write = true → k.st = .active → k.bytes = 64 → bufferFull i k s = false →
        ∀ t key cls e pa, reach .store 64 (k.addr k.pos) .forbid none s = .mem t key cls e pa →
        ∃ y z x, exec p.1 s = .next y ∧ Retired u s y ∧ y.ts.v = s.ts.v ∧ SameBytes s y ∧ (slotAt i y).pos = k.pos + 1 ∧
          y.pend = s.pend ++ [z] ∧ z.key = key ∧ z.slot = some i ∧ z.op = .store (leBytes 64 (x : VWord).toNat) ∧
          ∀ n, n < 64 / w → lane w n x =
            (if (getQ q s).getLsbD (n * w) then p.2 (8 * w) (lane w n (getV a s)) (lane w n (getV b s)) else 0))) ∧
  (∀ (s : State) (n : BitVec 3), (getTs s.here s.tid s).run = .ready → s.gwerid = .up →
    let k := slotAt n.toNat s
    let m := k.pos + k.buf.length
    k.st = .active → k.write = false → m < elements k → (k.buf.length + 1) * k.bytes ≤ 512 →
    (∀ x t, loadAt k.bytes (k.addr m) s = .val x t →
      ∃ u, exec (.streamFetchAhead s.here s.tid n) s = .next u ∧ SameBytes s u ∧ u.ts.s = s.ts.s ∧
        slotAt n.toNat u = { k with buf := k.buf ++ [(m, BitVec.ofNat 512 x)] }) ∧
    (∀ c, loadAt k.bytes (k.addr m) s = .fault c →
      ∃ u, exec (.streamFetchAhead s.here s.tid n) s = .next u ∧ SameBytes s u ∧ u.ts.s = s.ts.s ∧
        slotAt n.toNat u = { k with st := .faulted, held := some (m, c) }))

/-- 15 R326: an instruction that would write a vector register which a matrix command has locked stalls before it retires. -/
def Sys2Proof.Claims.LockedRegister : Prop :=
  ∀ (s : State) (t : VTy) (q : QReg) (d a b : VReg), plain (useVVV d a b) s = true → s.ts.locks.getLsbD d.toNat = true →
    ∀ p ∈ integerLanes t q d a b ++ bitLanes t q d a b, exec p.1 s = .next { s with ts := { s.ts with run := .stalled } }

namespace Sys2Proof.Claims

/-- Register `r` has a LIVE bit: not s0, nor a shadow copy (19 R378, 05 R126). -/
def keepsLive (r : Reg) (s : State) : Prop := r ≠ 0 ∧ ¬ (s.ts.status.getLsbD 3 = true ∧ 24 ≤ r.toNat)

/-- The instruction at the pc carries a mark on its first (0) or second (1) source field: thread sets 0 to 3 alone run marked, in the
code that the launch loaded (19 R379). -/
def Marked (f : Nat) (s : State) : Prop :=
  s.tid < 4 ∧ lookupD (PageSt.resident, 0) s.core.tags (s.ts.pc.toNat / 4096) = (.resident, 0) ∧
    (lookupD 0 s.core.marks (s.ts.pc.toNat / 4)).testBit f = true

/-- LIVE after an instruction: bit `n` is set for the register that it writes, else clear for a marked source, else as it was. -/
def LiveIs (written marked : Nat → Prop) (s t : State) : Prop :=
  ∀ n, n < 64 → (written n → t.ts.live.getLsbD n = true) ∧ (¬ written n → marked n → t.ts.live.getLsbD n = false) ∧
    (¬ written n → ¬ marked n → t.ts.live.getLsbD n = s.ts.live.getLsbD n)

end Sys2Proof.Claims

/-! ## The LIVE mask (19 R378, R379) -/

/-- 19 R378, R379: an instruction that retires sets the LIVE bit of the register that it writes and clears that of each marked source,
its own write taking precedence, and leaves every other bit; s0 and the shadow copies have none. One that traps, and one that slice
context 6 runs, changes no bit. Shown by the integer instructions, the immediate forms and the element operations on vectors.
It rests on choices of the model where the log says so: entry 12. -/
def Obligations.LiveMask : Prop :=
  (∀ (s : State) (d a b : Reg), s.tid ≠ 6 → Free (useABD d a (.reg b)) s →
    ∀ p ∈ integerForms d a (.reg b) (getS a s) (getS b s), ∃ t, exec p.1 s = .next t ∧
      LiveIs (fun n => n = d.toNat ∧ keepsLive d s)
        (fun n => (n = a.toNat ∧ keepsLive a s ∧ Marked 0 s) ∨ (n = b.toNat ∧ keepsLive b s ∧ Marked 1 s)) s t) ∧
  (∀ (s : State) (d a : Reg) (imm : BitVec 15) (k : BitVec 6), s.tid ≠ 6 → Free (useAD d a) s →
    ∀ p ∈ immediateForms d a imm k (getS a s), ∃ t, exec p.1 s = .next t ∧
      LiveIs (fun n => n = d.toNat ∧ keepsLive d s) (fun n => n = a.toNat ∧ keepsLive a s ∧ Marked 0 s) s t) ∧
  (∀ (s : State) (ty : VTy) (q : QReg) (d a b : VReg), s.tid ≠ 6 → vFmt ty = none → Free (useVVV d a b) s →
    ∀ p ∈ integerLanes ty q d a b, ∃ t, exec p.1 s = .next t ∧
      LiveIs (fun n => n = 32 + d.toNat) (fun n => (n = 32 + a.toNat ∧ Marked 0 s) ∨ (n = 32 + b.toNat ∧ Marked 1 s)) s t) ∧
  (∀ (s : State) (d a b : Reg), s.tid = 6 → Free (useABD d a (.reg b)) s →
    ∀ p ∈ integerForms d a (.reg b) (getS a s) (getS b s), ∃ t, exec p.1 s = .next t ∧ t.ts.live = s.ts.live) ∧
  (∀ (s : State) (c : BitVec 15), CanTrap s → ∃ t, exec (.trap c) s = .next t ∧ t.ts.live = s.ts.live)

/-- The statements ContinuationPost and TaskControl together.
It rests on choices of the model where the log says so: entry 27. -/
def Obligations.TasksAndContinuations : Prop :=
  Sys2Proof.Claims.ContinuationPost ∧ Sys2Proof.Claims.TaskControl

/-- The statements CommandEnqueue and TriggerCounters together.
It rests on choices of the model where the log says so: entry 32. -/
def Obligations.CommandsAndTriggers : Prop :=
  Sys2Proof.Claims.CommandEnqueue ∧ Sys2Proof.Claims.TriggerCounters

/-- The statements StreamRegisters and LockedRegister together.
It rests on choices of the model where the log says so: entry 30. -/
def Obligations.BoundAndLockedRegisters : Prop :=
  Sys2Proof.Claims.StreamRegisters ∧ Sys2Proof.Claims.LockedRegister

namespace Sys2Proof.Claims

/-! ## The matrix unit and the engines -/

/-- An accepted operation joins the core's matrix queue and nothing else that a program reads changes; `p` holds of it. -/
def Accepts (i : Instr) (u : Use) (s : State) (p : MatOp → Prop) : Prop :=
  Completes i u s fun t => ∃ o, t.core.matq = s.core.matq ++ [o] ∧ p o ∧ o.ctx = s.core.mctx ∧ o.tid = s.tid ∧ o.pid = myPid s ∧
    o.lid = myLid s ∧ o.gang = false ∧ t.core.accs = s.core.accs

/-- An operand range lies in reach, none of its pages is lent to a penumbra context, and nothing keeps the instruction from naming it. -/
def OperandAt (ga : Word) (n x off : Nat) (s : State) : Prop :=
  matAddr ga n s = .ok x off ∧ lentAt off n (getCore x s) = none ∧ matBusy x off n s = false

/-- An operand range of `i` meets a page lent to a penumbra context: ACCESS with DETAIL[4:2] = 5, or a wait while the window is being
taken back (20 R400, R401). -/
def LentOperand (i : Instr) (k : Kind) (ga : Word) (n : Nat) (s : State) : Prop :=
  ∀ x off, matAddr ga n s = .ok x off →
    (lentAt off n (getCore x s) = some false → Traps i 0x21 (20 + k.bits) ga false s) ∧
    (lentAt off n (getCore x s) = some true → Stalls i s)

/-- The metadata of a sparse A tile can be read and each of its masks has N ones (16 R344). -/
def MetadataOk (x off : Nat) (c : Word) (s : State) : Prop :=
  let ks := 2 * matK (ctxA c)
  let key := lmKey x (off + sparseValueBytes (ctxA c) ks (spnN (ctxSpn c)))
  readError key (metaBytes ks) s = none ∧ badMask ks (spnN (ctxSpn c)) (memValue s.mem (metaBytes ks) key) = none

/-- Room for an operation with `k` windows, beside the place that an arrival at the gang barrier holds (16 R330, R336, R345). -/
def HasRoom (k : Nat) (s : State) : Prop :=
  s.core.matq.length + (if (gangHeld s).isSome then 1 else 0) < 4 ∧ windowCount s + k ≤ 96

/-- The context is VALID and lets the accumulator be named (16 R337, R339). -/
def NamesAcc (d : Sys2Proof.Acc) (s : State) : Prop :=
  s.core.mctx.getLsbD 63 = true ∧ ¬ (ctxTy s.core.mctx = .f64 ∧ d.toNat % 2 = 1)

/-- No arrival at the gang barrier is the focused thread set's. -/
def NoArrival (s : State) : Prop := ∀ g, s.core.gang = some g → g.tid ≠ s.tid

/-- The engine commands, each with its opcode, its start and its next chunk. -/
noncomputable def engineForms (core cq n : Nat) :
    List (Instr × Nat × (Nat → Nat → Cmd → State → Chunk) × (Nat → Nat → Cmd → State → Chunk)) :=
  [(.tmma core cq n, 0x01, tileStart, tileStep), (.tmmas core cq n, 0x02, tileStart, tileStep),
   (.tmrec core cq n, 0x03, tileStart, tileStep), (.copy core cq n, 0x10, xferStart, copyStep),
   (.fill core cq n, 0x11, xferStart, copyStep), (.gather32 core cq n, 0x12, xferStart, rowStep),
   (.scatter32 core cq n, 0x13, xferStart, rowStep), (.merge core cq n, 0x14, xferStart, mergeStep),
   (.compact core cq n, 0x15, xferStart, compactStep), (.osum core cq n, 0x20, sumStart, sumStep),
   (.osumb core cq n, 0x21, sumStart, sumStep), (.omax core cq n, 0x22, sumStart, sumStep),
   (.obcast core cq n, 0x23, sumStart, sumStep), (.olink core cq n, 0x30, olinkStart, olinkStep)]

/-- `i` leaves command `n` of a queue satisfying `p`, and memory as in `t`. -/
def Leaves (i : Instr) (core cq n : Nat) (s t : State) (p : Cmd → Prop) : Prop :=
  ∃ u before m, exec i s = .next u ∧ SameBytes t u ∧ cmdAt core cq n u = some (before, m) ∧ p m

/-- What a performed part of a command makes of it (15 R319; 17 R356): it goes on, or it ends with a completion, and its windows and
lock bits are then released; it waits; it meets a fault, and ends with MEM_FAULT; or it reads data that cannot be read, and ends with
ENGINE_ERROR. -/
def Progress (i : Instr) (core cq n : Nat) (m : Cmd) (s : State) (r : Chunk) : Prop :=
  match r with
  | .go t x => (∃ b, cmdAt core cq n t = some (b, m)) →
      Leaves i core cq n s t fun y => y = { x with started := true, ticket := none }
  | .ends t x st => x.seq = m.seq → (∃ b, cmdAt core cq n t = some (b, m)) →
      Leaves i core cq n s t fun y => y.fin = some (x.completion st x.units) ∧ y.reads = [] ∧ y.writes = [] ∧ y.locks = []
  | .at_ t x st addr => x.seq = m.seq → (∃ b, cmdAt core cq n t = some (b, m)) →
      Leaves i core cq n s t fun y => y.fin = some { x.completion st x.units with faddr := addr }
  | .fault t code detail addr => (∃ b, cmdAt core cq n t = some (b, m)) →
      Leaves i core cq n s (countCmdRefused core m code detail addr t) fun y =>
        y.fin = some { m.completion 0x20 m.units with faddr := addr, fcode := code, fdetail := detail }
  | .bad => Leaves i core cq n s s fun y => y.fin = some (m.completion 0x12 0)
  | .wait t => ∃ u, exec i s = .next u ∧ SameBytes t u
  | .err _ => ∃ u b y, exec i s = .next u ∧ cmdAt core cq n u = some (b, y) ∧ y.fin = some (m.completion 0x30 m.units)
  | .with_ t x y => x.seq = m.seq → (∃ b, cmdAt core cq n t = some (b, m)) → Leaves i core cq n s t fun z => z.fin = some y

/-- Elements of `b` bytes are written in order, element i at key `kw i` with the bytes `data i`: each that no later one overlaps
stands there afterwards, and every byte outside them is unchanged. -/
def WritesElements (n b : Nat) (kw : Nat → Nat) (data : Nat → List Byte) (s u : State) : Prop :=
  (∀ i, i < n → (∀ j, i < j → j < n → kw j + b ≤ kw i ∨ kw i + b ≤ kw j) → memRead u.mem b (kw i) = data i) ∧
  ∀ k, (∀ i, i < n → k < kw i ∨ kw i + b ≤ k) → memGet u.mem k = memGet s.mem k

/-- No word of memory stands corrected or uncorrectable in a cache, and the Gwerid link is up: an access of an engine moves no error count
and loses nothing (01 R24, 11 R258, 22 R421). -/
def Unmarked (s : State) : Prop := s.soft = [] ∧ s.l1soft = [] ∧ (∀ x ∈ s.l2, x.bad = [] ∧ x.soft = []) ∧ s.gwerid = .up

/-- A command reads `b` bytes at an address from memory, at key `k`, and nothing keeps it waiting. -/
def CanRead (c cq : Nat) (m : Cmd) (b : Nat) (ga : Word) (k : Nat) (s : State) : Prop :=
  (∃ cls pa, cmdReach c cq m .load b ga s = .ok s k cls pa) ∧ readError k b s = none

/-- A command may write `b` bytes at an address, at key `k`. -/
def CanWrite (c cq : Nat) (m : Cmd) (b : Nat) (ga : Word) (k : Nat) (s : State) : Prop :=
  (∃ cls pa, cmdReach c cq m .store b ga s = .ok s k cls pa) ∧ storeLost k b s = false

/-- The bytes of a value of a value type, and of a record (17 R361). -/
def valueBytes (vt : Nat) : Nat := if vt = 2 then 8 else 4
/-- See `valueBytes`. -/
def pairBytes (vt : Nat) : Nat := if vt = 2 then 16 else 8

/-- The record that bytes hold: its index and its value (17 R361). -/
def recordIn (vt : Nat) (b : List Byte) : Nat × Nat := (leValue (b.take 4), leValue (b.drop (if vt = 2 then 8 else 4)))

/-- The bytes of a record: the index in bytes 0 to 3, and the value in the last ones (17 R361). -/
def recordOf (vt : Nat) (r : Nat × Nat) : List Byte :=
  if vt = 2 then leBytes 4 r.1 ++ leBytes 4 0 ++ leBytes 8 r.2 else leBytes 4 r.1 ++ leBytes 4 r.2

/-- The sum of two values: modulo 2^32, or a floating-point sum rounded to nearest even (17 R361). -/
def valueSum (vt a b : Nat) : Nat :=
  if vt = 0 then (a + b) % 2 ^ 32
  else if vt = 1 then (faddV .f32 .rne (fdecode .f32 a) (fdecode .f32 b) 0).1
  else (faddV .f64 .rne (fdecode .f64 a) (fdecode .f64 b) 0).1

/-- Records with strictly rising indices below `len` (17 R361). -/
def Rising (len : Nat) (l : List (Nat × Nat)) : Prop := l.Pairwise (fun x y => x.1 < y.1) ∧ ∀ x ∈ l, x.1 < len

/-- `r` is the merge of `a` and `b`: it rises strictly and holds, for every index present in either, the sum where both hold it and
else the one present value (17 R361). -/
def IsMerge (vt : Nat) (a b r : List (Nat × Nat)) : Prop :=
  r.Pairwise (fun x y => x.1 < y.1) ∧
  ∀ k v, (k, v) ∈ r ↔
    (∃ x y, (k, x) ∈ a ∧ (k, y) ∈ b ∧ v = valueSum vt x y) ∨ ((k, v) ∈ a ∧ ∀ y, (k, y) ∉ b) ∨ ((k, v) ∈ b ∧ ∀ x, (k, x) ∉ a)

/-- A value is numerically zero (17 R362). -/
def zeroValue (vt v : Nat) : Prop := if vt = 0 then v = 0 else if vt = 1 then v % 2 ^ 31 = 0 else v % 2 ^ 63 = 0

/-- `i` ends command `n` of a queue with OK and `units` more UNITS, having written `k` elements of `b` bytes at keys `kw`, and last the
result words, with `outn` and `form`, at key `kr`; every other byte is as before. -/
def EndsWriting (i : Instr) (core cq n : Nat) (m : Cmd) (k b : Nat) (kw : Nat → Nat) (data : Nat → List Byte) (kr outn form units : Nat)
    (s : State) : Prop :=
  ∃ u rest y z, exec i s = .next u ∧ cmdAt core cq n u = some (rest, y) ∧ y.fin = some z ∧ z.status = 0 ∧ z.units = m.units + units ∧
    memRead u.mem 8 kr = leBytes 4 outn ++ [BitVec.ofNat 8 form, 0, 0, 0] ∧
    (∀ i, i < k → (∀ j, i < j → j < k → kw j + b ≤ kw i ∨ kw i + b ≤ kw j) → kw i + b ≤ kr ∨ kr + 8 ≤ kw i →
      memRead u.mem b (kw i) = data i) ∧
    ∀ q, (q < kr ∨ kr + 8 ≤ q) → (∀ i, i < k → q < kw i ∨ kw i + b ≤ q) → memGet u.mem q = memGet s.mem q

/-- A tile command may reach `b` bytes at an offset of a core's local memory for a kind of access, at key `k`. -/
def TileAt (c x off b : Nat) (m : Cmd) (kind : Kind) (k : Nat) (s : State) : Prop :=
  (∃ cls pa, tileReach c x off b m kind s = .ok s k cls pa) ∧ (kind = .load → readError k b s = none)

/-- The core and the offset of an address field of a tile command (16 R349). -/
def fieldCore (c a : Nat) : Nat := quadCore c (a / 2 ^ 14)
/-- See `fieldCore`. -/
def fieldOff (a : Nat) : Nat := a % 2 ^ 14 * 64

/-- The three tile commands. -/
noncomputable def tileForms (core cq n : Nat) : List (Instr × Nat) := [(.tmma core cq n, 1), (.tmmas core cq n, 2), (.tmrec core cq n, 3)]

end Sys2Proof.Claims

/-! ## Matrix instructions (16 R330 to R348) -/

/-- 16 R330 to R337, R339, R341, R343, R344, R348: MMA, MMAS, MREC and MZERO are accepted with their operand places, context and
microprogram where their operands are in reach, wait for room, and else trap; MFMT waits for the accepted operations and sets
the context; MUPROG waits for accepted MRECs and loads the microprogram; outside thread sets 0 to 3 all are ILLEGAL, before any cause of
a slot that they name (01 R31). An operand in a lent page takes ACCESS (20 R400).
It rests on choices of the model where the log says so: entry 33. -/
def Obligations.MatrixInstructions : Prop :=
  ∀ (s : State) (d : Sys2Proof.Acc) (a b : Reg),
    let c := s.core.mctx
    let ga := getS a s
    let gb := getS b s
    let na (sparse : Bool) := aBytes sparse c
    let nb (sparse : Bool) := bBytes sparse c
    (4 ≤ s.tid → ∀ i ∈ [Instr.mma d a b, .mmas d a b, .mrec d a b, .mzero d, .mfmt a, .mldc d a, .mstc d a, .muprog a],
      IllegalWith i 2 s) ∧
    (s.gwerid = .up → Free (useAB a b) s →
      (s.tid < 4 → c.getLsbD 63 = false →
        Traps (.mma d a b) 0x68 2 0 false s ∧ Traps (.mmas d a b) 0x68 2 0 false s ∧ Traps (.mrec d a b) 0x68 2 0 false s) ∧
      (s.tid < 4 → NamesAcc d s →
        (∀ ax ao bx bo, OperandAt ga (na false) ax ao s → OperandAt gb (nb false) bx bo s →
          (HasRoom 2 s → Accepts (.mma d a b) (useAB a b) s fun o => o.kind = .mma ∧ o.d = d.toNat ∧ o.aCore = ax ∧ o.aOff = ao ∧
            o.bCore = bx ∧ o.bOff = bo ∧ o.wins = [winAt ax ao (na false), winAt bx bo (nb false)]) ∧
          (4 ≤ s.core.matq.length → Stalls (.mma d a b) s)) ∧
        LentOperand (.mma d a b) .load ga (na false) s ∧
        (∀ detail, matAddr ga (na false) s = .bad detail → detail < 256 → Traps (.mma d a b) 0x69 detail ga false s) ∧
        (ctxSpn c = 0 → Traps (.mmas d a b) 0x68 3 0 false s) ∧
        (∀ ax ao bx bo, ctxSpn c ≠ 0 → OperandAt ga (na true) ax ao s → OperandAt gb (nb true) bx bo s → MetadataOk ax ao c s →
          HasRoom 2 s → Accepts (.mmas d a b) (useAB a b) s fun o => o.kind = .mmas ∧ o.d = d.toNat ∧ o.aCore = ax ∧ o.aOff = ao ∧
            o.bCore = bx ∧ o.bOff = bo) ∧
        (∀ ax ao bx bo, bitsOfCode (ctxA c) = 16 → s.core.prog.nops ≠ 0 → OperandAt ga (na false) ax ao s →
          OperandAt gb (na false) bx bo s → HasRoom 2 s →
          Accepts (.mrec d a b) (useAB a b) s fun o => o.kind = .recur ∧ o.d = d.toNat ∧ o.aCore = ax ∧ o.aOff = ao ∧
            o.bCore = bx ∧ o.bOff = bo ∧ o.prog = s.core.prog))) ∧
    (s.gwerid = .up → Free useNone s → s.tid < 4 → NamesAcc d s →
      (HasRoom 0 s → Accepts (.mzero d) useNone s fun o => o.kind = .zero ∧ o.d = d.toNat) ∧
      (4 ≤ s.core.matq.length → Stalls (.mzero d) s)) ∧
    (s.gwerid = .up → Free (useA a) s → s.tid < 4 →
      (NamesAcc d s → LentOperand (.mldc d a) .load ga (imageBytes c) s ∧
        LentOperand (.mstc d a) .store ga (1024 * ofmtBytes (ctxTy c) (ctxOfmt c)) s) ∧
      LentOperand (.muprog a) .load ga 32 s ∧
      (s.core.matq ≠ [] → Stalls (.mfmt a) s) ∧
      (s.core.matq = [] → mfmtOk ga = false → Traps (.mfmt a) 0x68 1 0 false s) ∧
      (s.core.matq = [] → mfmtOk ga = true → Completes (.mfmt a) (useA a) s fun t => t.core = { s.core with mctx := ga }) ∧
      (∀ x off, OperandAt ga 32 x off s → (∀ o ∈ s.core.matq, o.kind ≠ .recur) → readError (lmKey x off) 32 s = none →
        (∀ p, microProgOf (memValue s.mem 32 (lmKey x off)) = some p → Completes (.muprog a) (useA a) s fun t => t.core.prog = p) ∧
        (microProgOf (memValue s.mem 32 (lmKey x off)) = none → Traps (.muprog a) 0x68 4 0 false s)))

/-- 16 R337, R338, R340, R342: MLDC reads an accumulator image, and a pair of accumulators under FP64; MSTC stores one, converted, with
its draws and MSTAT bits; each is charged its slice cycles; the slice performs the operation at the head of its queue, unless its turn
belongs to a ready chunk of its owner or its die's clocks stand (25 R473), and leaves every other accumulator alone.
It rests on choices of the model where the log says so: entries 33 and 63. -/
def Obligations.AccumulatorsAndOperations : Prop :=
  (∀ (s : State) (d : Sys2Proof.Acc) (a : Reg) (x off : Nat), s.gwerid = .up → Free (useA a) s → s.tid < 4 → NamesAcc d s →
    accBusy d.toNat s = false →
    let c := s.core.mctx
    (OperandAt (getS a s) (imageBytes c) x off s → readError (lmKey x off) (imageBytes c) s = none →
      Completes (.mldc d a) (useA a) s fun t =>
        (ctxTy c ≠ .f64 → ∀ k, k < 1024 →
          ((vecGet t.core.accs d.toNat)[k]?).getD 0 = BitVec.ofNat 32 (memValue s.mem 4 (lmKey x off + 4 * k))) ∧
        (ctxTy c = .f64 → ∀ k, k < 1024 →
          ((vecGet t.core.accs d.toNat)[k]?).getD 0 = BitVec.ofNat 32 (memValue s.mem 4 (lmKey x off + 8 * k)) ∧
          ((vecGet t.core.accs (d.toNat + 1))[k]?).getD 0 = BitVec.ofNat 32 (memValue s.mem 4 (lmKey x off + 8 * k + 4))) ∧
        ∀ j, j < 4 → j ≠ d.toNat → (ctxTy c = .f64 → j ≠ d.toNat + 1) → vecGet t.core.accs j = vecGet s.core.accs j) ∧
    (let m := ormMode (ctxOrm c) s
     let r := storeImage (ctxTy c) (ctxOfmt c) m (drawOf s) (readAcc c d.toNat s.core)
     let n := 1024 * ofmtBytes (ctxTy c) (ctxOfmt c)
     s.here < 2 ^ 28 → OperandAt (getS a s) n s.here off s → s.pend = [] → s.bad = [] → quadWindows s.seq (myPid s, myLid s) s.here s = [] → r.1.length = n →
     Memory.wf s.mem = true →
      ∃ t, exec (.mstc d a) s = .next t ∧ Retired (useA a) s t ∧ (∀ q, getS q t = getS q s) ∧ Stored (lmKey s.here off) r.1 s t ∧
        t.core.mstat = s.core.mstat ||| w64 r.2 ∧ t.core.accs = s.core.accs ∧
        t.ts.srctr = s.ts.srctr + BitVec.ofNat 48 (convDraws (ctxOfmt c) m))) ∧
  (∀ (s : State) (core : Nat) (o : MatOp) (rest : List MatOp), (getCore core s).matq = o :: rest → o.gang = false →
    (clocked s core = false → exec (.matrixOperation core) s = .next s) ∧
    (chunkTurn core s = true → s.here < 2048 → core < 2048 → exec (.matrixOperation core) s = .next s) ∧
    (clocked s core = true → s.gwerid = .up → (∀ k, quadCore core k = core → chunkTurn core s = false) → opError o s = none →
    let r := opResult o s (getCore core s)
    ∃ t, exec (.matrixOperation core) s = .next t ∧ SameBytes s t ∧ (getCore core t).matq = rest ∧
      (getCore core t).mstat = (getCore core s).mstat ||| w64 r.2 ∧
      (ctxTy o.ctx ≠ .f64 → vecGet (getCore core t).accs o.d = accVec r.1) ∧
      (o.kind = .zero → ∀ k, k < 1024 → ((vecGet (getCore core t).accs o.d)[k]?).getD 0 = 0) ∧
      (∀ j, j < 4 → o.d < 4 → j ≠ o.d → (ctxTy o.ctx = .f64 → j ≠ (o.d + 1) % 4) →
        vecGet (getCore core t).accs j = vecGet (getCore core s).accs j)))

/-- 16 R345, R346: a member of the quad arrives at the gang barrier with the operands that it supplies and waits; the last arrival starts a
joint operation on every member, as its next, where their selectors and formats agree, and else decides MATRIX_GANG for all; each member
then goes on, and one for which a trap has been decided takes it first.
It rests on choices of the model where the log says so: entry 33. -/
def Obligations.GangBarrier : Prop :=
  ∀ (s : State) (sparse : Bool) (d : Sys2Proof.Acc) (a b : Reg),
    let i := if sparse then Instr.mgangMmas d a b else Instr.mgangMma d a b
    let c := s.core.mctx
    let m := s.here / 64 % 4
    (∀ g x, s.core.gang = some g → g.tid = s.tid → g.decided = some x →
      exec i s = .next (takeTrap x.code x.detail x.val false { s with core := { s.core with gang := none } })) ∧
    ((∀ g, s.core.gang = some g → g.tid = s.tid → g.decided = none) → 4 ≤ s.tid ∨ rectLgh s.ts.rect < 2 → IllegalWith i 2 s) ∧
    (s.tid < 4 → 2 ≤ rectLgh s.ts.rect → Free (useAB a b) s →
      (∀ g, s.core.gang = some g → g.tid = s.tid → g.decided = none →
        (g.started = true → Completes i (useAB a b) s fun t => t.core.gang = none) ∧
        (g.started = false → Waits i s)) ∧
      (NoArrival s → s.core.matq ≠ [] → Waits i s) ∧
      (NoArrival s → s.core.matq = [] → s.gwerid = .up → NamesAcc d s → (sparse = true → ctxSpn c ≠ 0) →
        ∀ ax ao bx bo,
        (if m = 0 ∨ m = 2 then OperandAt (getS a s) (aBytes sparse c) ax ao s ∧ (sparse = true → MetadataOk ax ao c s)
          else ax = 0 ∧ ao = 0) →
        (if m < 2 then OperandAt (getS b s) (bBytes sparse c) bx bo s else bx = 0 ∧ bo = 0) →
        (s.core.gang.isSome = true → Waits i s) ∧ (s.core.gang = none → windowCount s + 2 ≤ 96 →
        let wins := (if m = 0 ∨ m = 2 then [winAt ax ao (aBytes sparse c)] else []) ++
          (if m < 2 then [winAt bx bo (bBytes sparse c)] else [])
        let g : GangArrival := { tid := s.tid, sparse := sparse, d := d.toNat, aCore := ax, aOff := ao, bCore := bx, bOff := bo,
                                 wins := wins, ctx := c, decided := none, started := false }
        let t := { s with core := { s.core with gang := some g } }
        (gangFull t = none → WaitsWith i s fun u => u.core.gang = some g) ∧
        (∀ l, gangFull t = some l → (s.here, g) ∈ l → gangMask l = 0 →
          Completes i (useAB a b) s fun u => u.core.gang = none ∧ ∀ p ∈ l, ∃ o,
            (getCore p.1 u).matq = o :: (getCore p.1 s).matq ∧ o.gang = true ∧ o.d = p.2.d ∧ o.ctx = p.2.ctx ∧
              o.kind = (if p.2.sparse then .mmas else .mma)) ∧
        (∀ l, gangFull t = some l → gangMask l ≠ 0 → WaitsWith i s fun u => ∀ p ∈ l,
          (getCore p.1 u).gang = some { p.2 with decided := some { code := 0x6A, detail := gangMask l, val := 0 } }))))

/-! ## Engine commands (15 R313 to R328; 16 R349 to R351; 17 R352 to R363; 23 R443 to R454) -/

/-- 15 R314, R317, R319, R321; 17 R356: a command of an opcode starts where it is ready, earlier ready commands of its queue have started
and what it follows has been performed, ends at once where its header or its chain fails, and else makes its operand checks; a
started one performs its next chunk; neither happens while its engine is not its own (16 R331; 19 R383; 20 R398) or the clocks of its
die stand (25 R473); the outcome of the start or of the chunk decides how it goes on. -/
def Sys2Proof.Claims.EngineCommands : Prop :=
  ∀ (s : State) (core cq n : Nat) (before : List Cmd) (m : Cmd), cmdAt core cq n s = some (before, m) → m.fin = none →
    ∀ p ∈ engineForms core cq n, m.opc = p.2.1 →
      (engineHolds core cq m s = true ∨ clocked s core = false → exec p.1 s = .next s) ∧
      (clocked s core = true → m.started = true → engineHolds core cq m s = false → Progress p.1 core cq n m s (p.2.2.2 core cq m s)) ∧
      (clocked s core = true → m.started = false → engineHolds core cq m s = false → startable core cq before m s = true →
        (∀ st, m.startFails = some st → Leaves p.1 core cq n s s fun y => y.fin = some (m.completion st 0)) ∧
        (m.startFails = none → Progress p.1 core cq n m s (p.2.2.1 core cq m s))) ∧
      (m.started = false → startable core cq before m s = false → exec p.1 s = .next s)

/-- 17 R353 to R357, R359, R360: one chunk of COPY, FILL, GATHER32 and SCATTER32 reads every element, checks every write, and then
writes them in ascending order; a row with index 0xFFFFFFFF is skipped; the command goes on, or ends with OK after the last. -/
def Sys2Proof.Claims.TransferChunks : Prop :=
  ∀ (s : State) (core cq n : Nat) (before : List Cmd) (m : Cmd) (kr kw : Nat → Nat), cmdAt core cq n s = some (before, m) →
    m.fin = none → m.started = true → engineHolds core cq m s = false → clocked s core = true → Unmarked s → Memory.wf s.mem = true →
    cq = 1 ∨ cq = 5 ∨ cq = 7 →
    let x := leValue m.blk
    let b := m.eb
    let after (i : Instr) (k bytes pos : Nat) (last : Bool) (data : Nat → List Byte) : Prop :=
      ∃ u y rest, exec i s = .next u ∧ WritesElements k b kw data s u ∧ cmdAt core cq n u = some (rest, y) ∧ y.pos = pos ∧
        y.units = m.units + (bytes + 63) / 64 ∧ (last = false → y.fin = none) ∧
        (last = true → ∃ z, y.fin = some z ∧ z.status = 0 ∧ z.units = m.units + (bytes + 63) / 64)
    (let total := blkTotal x
     let k := Nat.min (4096 / b) (total - m.pos)
     let src (i : Nat) : Word := elemAddr ((blkCounts x).zip (blkStrides x 32)) (m.pos + i) (w64 (blkAt x 0 8))
     let dst (i : Nat) : Word := elemAddr ((blkCounts x).zip (blkStrides x 64)) (m.pos + i) (w64 (blkAt x 8 8))
     (∀ i, i < k → CanWrite core cq m b (dst i) (kw i) s) →
      (m.opc = 0x10 → (∀ i, i < k → CanRead core cq m b (src i) (kr i) s) →
        after (.copy core cq n) k (k * b) (m.pos + k) (decide (m.pos + k = total)) fun i => memRead s.mem b (kr i)) ∧
      (m.opc = 0x11 →
        after (.fill core cq n) k (k * b) (m.pos + k) (decide (m.pos + k = total)) fun _ => leBytes b (blkAt x 0 8))) ∧
    (let rb := blkAt x 16 4
     let idx := nth 0 m.idx m.pos
     let k := if idx = 0xFFFFFFFF then 0 else rb / b
     let bytes := if idx = 0xFFFFFFFF then 0 else rb
     let far : Word := w64 idx * w64 (blkAt x 24 8)
     let near : Word := w64 m.pos * w64 (blkAt x 32 8)
     let base (j : Nat) : Word := w64 (blkAt x j 8)
     (m.opc = 0x12 → (∀ i, i < k → CanRead core cq m b (base 0 + far + w64 (i * b)) (kr i) s ∧
        CanWrite core cq m b (base 8 + near + w64 (i * b)) (kw i) s) →
        after (.gather32 core cq n) k bytes (m.pos + 1) (decide (m.pos + 1 = m.nrows)) fun i => memRead s.mem b (kr i)) ∧
     (m.opc = 0x13 → (∀ i, i < k → CanRead core cq m b (base 0 + near + w64 (i * b)) (kr i) s ∧
        CanWrite core cq m b (base 8 + far + w64 (i * b)) (kw i) s) →
        after (.scatter32 core cq n) k bytes (m.pos + 1) (decide (m.pos + 1 = m.nrows)) fun i => memRead s.mem b (kr i)))

/-- 17 R361, R362: the whole result of a MERGE or COMPACT that fits one chunk: the sparse form is the merge of the two inputs, the dense
form the value of each index, with zero where no input holds it, and COMPACT leaves the values that are not zero, each with its index;
the result words follow, and UNITS counts the bytes read and written. -/
def Sys2Proof.Claims.MergeAndCompactResults : Prop :=
  ∀ (s : State) (core cq n : Nat) (before : List Cmd) (m : Cmd) (ka kb kw : Nat → Nat) (kr : Nat) (cls : Cls) (pa : Nat),
    cmdAt core cq n s = some (before, m) → m.fin = none → m.started = true → engineHolds core cq m s = false → clocked s core = true →
    Unmarked s → Memory.wf s.mem = true → cq = 1 ∨ cq = 5 ∨ cq = 7 → m.vt < 3 → m.pos = 0 → m.aux = [0, 0, 0, 0] →
    tileReach core core (m.pblk + 120) 8 m .store s = .ok s kr cls pa →
    let x := leValue m.blk
    let w := valueBytes m.vt
    let z := pairBytes m.vt
    let word (j : Nat) : Word := w64 (blkAt x j 8)
    (m.opc = 0x14 →
      let na := blkAt x 16 4
      let nb := blkAt x 20 4
      let len := blkAt x 36 4
      let a := (List.range na).map fun i => recordIn m.vt (memRead s.mem z (ka i))
      let b := (List.range nb).map fun i => recordIn m.vt (memRead s.mem z (kb i))
      (∀ i, i < na → CanRead core cq m z (word 0 + w64 (i * z)) (ka i) s) →
      (∀ i, i < nb → CanRead core cq m z (word 8 + w64 (i * z)) (kb i) s) → Rising len a → Rising len b →
      ∀ r, IsMerge m.vt a b r →
        ((na + nb) * 256 ≤ m.dth * len → r.length ≤ blkAt x 32 4 → r.length < 4096 / z →
          (∀ i, i < r.length → CanWrite core cq m z (word 24 + w64 (i * z)) (kw i) s) →
          EndsWriting (.merge core cq n) core cq n m r.length z kw (fun i => recordOf m.vt ((r[i]?).getD (0, 0))) kr r.length 0
            (((na + nb) * z + r.length * z + 63) / 64) s) ∧
        (m.dth * len < (na + nb) * 256 → len ≤ 4096 / w →
          (∀ i, i < len → CanWrite core cq m w (word 24 + w64 (i * w)) (kw i) s) →
          ∀ val : Nat → Nat, (∀ k v, (k, v) ∈ r → val k = v) → (∀ k, (∀ v, (k, v) ∉ r) → val k = 0) →
            EndsWriting (.merge core cq n) core cq n m len w kw (fun i => leBytes w (val i)) kr len 1
              (((na + nb) * z + len * w + 63) / 64) s)) ∧
    (m.opc = 0x15 →
      let len := blkAt x 16 4
      let v (k : Nat) : Nat := leValue (memRead s.mem w (ka k))
      (∀ k, k < len → CanRead core cq m w (word 0 + w64 (k * w)) (ka k) s) →
      ∀ r : List (Nat × Nat), r.Pairwise (fun p q => p.1 < q.1) →
        (∀ p, p ∈ r ↔ ∃ k, k < len ∧ ¬ zeroValue m.vt (v k) ∧ p = (blkAt x 20 4 + k, v k)) →
        r.length ≤ blkAt x 24 4 → r.length < 4096 / z →
        (∀ i, i < r.length → CanWrite core cq m z (word 8 + w64 (i * z)) (kw i) s) →
        EndsWriting (.compact core cq n) core cq n m r.length z kw (fun i => recordOf m.vt ((r[i]?).getD (0, 0))) kr r.length 0
          ((len * w + r.length * z + 63) / 64) s)

/-- 16 R349, R351: the parts of a tile command for block (i, j): its load gives the accumulator zero, INIT, or the block of C; depth
chunk k multiplies A tile (i, k) and B tile (k, j), or runs the microprogram on them, into the accumulator; its store converts the
accumulator to CFMT and writes it to C, and the command ends after the last. -/
def Sys2Proof.Claims.TileChunks : Prop :=
  ∀ (s : State) (core cq n : Nat) (before : List Cmd) (m : Cmd) (i j : Nat), cmdAt core cq n s = some (before, m) → m.fin = none →
    m.started = true → engineHolds core cq m s = false → clocked s core = true → Unmarked s → Memory.wf s.mem = true → cq = 0 →
    j < m.nb → ∀ p ∈ tileForms core cq n, m.opc = p.2 →
    let first := (i * m.nb + j) * (m.kb + 2)
    let block := fieldOff m.cadr + m.tc * (i * m.nb + j)
    let becomes (P : Cmd → Prop) : Prop :=
      ∃ u rest y, exec p.1 s = .next u ∧ SameBytes s u ∧ cmdAt core cq n u = some (rest, y) ∧ y.fin = none ∧ y.pos = m.pos + 1 ∧ P y
    (m.pos = first →
      (m.accIn = false → becomes fun y => y.units = m.units + 16 ∧
        y.acc = List.replicate 1024 (if p.2 = 3 then m.micro.init.toNat else 0)) ∧
      (m.accIn = true → ∀ kc, TileAt core (fieldCore core m.cadr) block m.tc m .load kc s → becomes fun y => y.units = m.units + 16 ∧
        let e := ofmtBytes m.accTy 0
        y.acc.length = 1024 ∧ ∀ q, q < 1024 → m.tc = 1024 * e → nth 0 y.acc q = memValue s.mem e (kc + e * q))) ∧
    (∀ k, k < m.kb → m.pos = first + 1 + k → ∀ qa qb,
      TileAt core (fieldCore core m.aadr) (fieldOff m.aadr + m.ta * (i * m.kb + k)) m.ta m .load qa s →
      TileAt core (fieldCore core m.badr) (fieldOff m.badr + m.tb * (j * m.kb + k)) m.tb m .load qb s →
      let xa := memValue s.mem m.ta qa
      let rows := tileRows (i * m.kb + k) xa m
      let cols := tileCols (memValue s.mem m.tb qb) m
      tileBadMask xa m = none →
      becomes fun y => y.units = m.units + m.chunkCycles ∧
        y.acc = if p.2 = 3 then (recOp m.micro m.acc rows cols).1 else (mmaOp m.accTy m.acc rows cols).1) ∧
    (m.pos = first + 1 + m.kb → ∀ kc, TileAt core (fieldCore core m.cadr) block m.tc m .store kc s →
      let r := storeImage m.accTy m.cfmt m.rm (fun k => cmdDraw m (1024 * (i * m.nb + j) + k)) m.acc
      let cycles := if m.accTy = .f64 then 32 else 16
      r.1.length = m.tc →
      ∃ u rest y, exec p.1 s = .next u ∧ Stored kc r.1 s u ∧ cmdAt core cq n u = some (rest, y) ∧
        (i + 1 = m.mb ∧ j + 1 = m.nb → ∃ z, y.fin = some z ∧ z.status = 0 ∧ z.units = m.units + cycles) ∧
        (¬ (i + 1 = m.mb ∧ j + 1 = m.nb) → y.fin = none ∧ y.pos = m.pos + 1 ∧ y.units = m.units + cycles))

/-- 15 R319 to R321: COMMAND_COMPLETION of a command that has ended adds one to its completion counter, writes its entry, with the
device time, to the inbox of its thread set where that has room, and takes the command out of its queue; while an earlier completion of
the thread set or the room is wanting, the command stays. -/
def Sys2Proof.Claims.CommandCompletion : Prop :=
  ∀ (s : State) (core cq n : Nat) (before : List Cmd) (m : Cmd) (x : Completion), cmdAt core cq n s = some (before, m) →
    m.fin = some x → m.tid < 4 → (getCore core s).owner = some (m.pid, m.lid) → (getCore core s).pre = .none →
    let i := Instr.commandCompletion core cq n
    let room := (getCore core s).spilled m.tid = false ∧
      ((getCore core s).inboxOf m.tid).length + 2 * inFlight m.pid m.lid core m.tid s < 16
    let gone (u : State) := ∀ q ∈ vecGet (getCore core u).queues cq, q.seq ≠ m.seq
    (m.ord = none → room → earlierWaits core m s.seq (completeStep2 core cq m x s) = false →
      ∃ u, exec i s = .next u ∧ SameBytes s u ∧ gone u ∧
        (getCore core u).inboxOf m.tid = (getCore core s).inboxOf m.tid ++
          [{ kind := 3, data := Completion.bytes { x with tdone := w64 s.time }, ux := none }] ∧
        (m.cen = true → (getCore core u).counter m.tid m.cctr = ((getCore core s).counter m.tid m.cctr + 1) % 2 ^ 32)) ∧
    (∀ o, m.ord = some o →
      (room → earlierWaits core m o s = false →
        ∃ u, exec i s = .next u ∧ SameBytes s u ∧ gone u ∧ (getCore core u).inboxOf m.tid = (getCore core s).inboxOf m.tid ++
          [{ kind := 3, data := x.bytes, ux := none }]) ∧
      (¬ room ∨ earlierWaits core m o s = true → exec i s = .next s))

/-- The statements EngineCommands and CommandCompletion together.
It rests on choices of the model where the log says so: entries 32 and 63. -/
def Obligations.EngineCommandsRun : Prop :=
  Sys2Proof.Claims.EngineCommands ∧ Sys2Proof.Claims.CommandCompletion

/-- The statements TransferChunks, MergeAndCompactResults and TileChunks together.
It rests on choices of the model where the log says so: entry 34. -/
def Obligations.TransferAndTileResults : Prop :=
  Sys2Proof.Claims.TransferChunks ∧ Sys2Proof.Claims.MergeAndCompactResults ∧ Sys2Proof.Claims.TileChunks

namespace Sys2Proof.Claims

/-- Partition `p` has queue `x` with number `q` in a state, with no entries left to skip and memory in canonical form. -/
def QueueIn (st : QueueSt) (pid q : Nat) (p : Partition) (x : Queue) (s : State) : Prop :=
  partOf pid s = some p ∧ queueOf pid q s = some x ∧ x.st = st ∧ x.skip = 0 ∧ x.point.ring < 2 ^ 32 ∧ x.door ≠ none ∧
    Memory.wf s.mem = true

/-- See `QueueIn`: the queue is RUNNING. -/
def RunningQueue (pid q : Nat) (p : Partition) (x : Queue) (s : State) : Prop := QueueIn .running pid q p x s

/-- Queue `x` has stopped (09 R200): its copies are gone, STATE, ERROR, RDIDX and ERRADDR of its descriptor tell why, and its interrupt
has been raised. -/
def Stopped (p : Partition) (q : Nat) (x : Queue) (err addr : Nat) (s u : State) : Prop :=
  queueOf p.rcd.pid q u = some { x with st := .stopped, copies := [], gateRead := false, ticket := none } ∧
    descField p.rcd q 9 1 u = 2 ∧ descField p.rcd q 10 1 u = err ∧ descField p.rcd q 16 4 u = x.point.ring ∧
    descField p.rcd q 24 8 u = addr % 2 ^ 64 ∧ (s.gwerid = .up → u.irqs = s.irqs ++ [p.rcd.vecbase + descField p.rcd q 11 1 s])

/-- The packet `v` of a type is at the processing point of a queue in a state, and no BARRIER holds it (09 R208). -/
def PacketIn (st : QueueSt) (ty pid q : Nat) (p : Partition) (x : Queue) (v : Nat) (s : State) : Prop :=
  QueueIn st pid q p x s ∧ x.pointCopy = some v ∧ pType v = ty ∧ (pBarrier v = true → ∀ l ∈ s.launches, ¬ (l.pid = pid ∧ l.q = q))

/-- See `PacketIn`: the queue is RUNNING. -/
def PacketAt (ty pid q : Nat) (p : Partition) (x : Queue) (v : Nat) (s : State) : Prop := PacketIn .running ty pid q p x v s

/-- The processing point has gone on to position `c` (09 R208), RDIDX shows its ring index, and NOTIFY has been served (09 R201). -/
def PassedTo (c : Cursor) (p : Partition) (q : Nat) (v : Nat) (s u : State) : Prop :=
  (∃ y, queueOf p.rcd.pid q u = some y ∧ y.st = .running ∧ y.point = c ∧ y.gateRead = false ∧ ∀ k ∈ y.copies, ∃ x,
    queueOf p.rcd.pid q s = some x ∧ k ∈ x.copies) ∧
    descField p.rcd q 16 4 u = c.ring ∧
    (s.gwerid = .up → u.irqs = s.irqs ++ if pNotify v then [p.rcd.vecbase + descField p.rcd q 11 1 s] else [])

/-- The packet at the point stops its queue with an error at its own address. -/
def PacketStops (i : Instr) (p : Partition) (q : Nat) (x : Queue) (err : Nat) (s : State) : Prop :=
  ∃ u, exec i s = .next u ∧ Stopped p q x err (packetVa p.rcd q x.point s) s u

/-- The position after the one at which a packet stands, at its own level (09 R208). -/
def after (x : Queue) : Cursor := x.point.advance 1

/-- A read of the front end gives a value. -/
def FrontReads (p : Partition) (q n va x : Nat) (s t : State) : Prop := ∃ key, feRead p.rcd q n va s = .ok t x key

end Sys2Proof.Claims

/-! ## Queues and packets (09 R198 to R209) -/

/-- 09 R199, R200; 22 R419: a doorbell value that arrives within the ring publishes entries, and one beyond it stops the queue with
BAD_INDEX; none arrives over a Gwerid link that is down; software's
writes of STATE start a DISABLED or STOPPED queue at RDIDX, where its descriptor meets its limits, and disable a RUNNING or STOPPED
one; any other write leaves the state, which the device shows again. -/
def Sys2Proof.Claims.QueueControl : Prop :=
  (∀ (s : State) (pid q : Nat) (d : W32) (p : Partition) (x : Queue), RunningQueue pid q p x s →
    (s.gwerid = .down → exec (.doorbell pid q d) s = .next s) ∧
    (s.gwerid = .up → (d.toNat + 2 ^ 32 - x.point.ring) % 2 ^ 32 ≤ ringSize p.rcd q s →
      ∃ u, exec (.doorbell pid q d) s = .next u ∧ queueOf pid q u = some { x with door := some d.toNat } ∧
        descField p.rcd q 16 4 u = x.point.ring ∧ u.irqs = s.irqs) ∧
    (s.gwerid = .up → ringSize p.rcd q s < (d.toNat + 2 ^ 32 - x.point.ring) % 2 ^ 32 →
      ∃ u, exec (.doorbell pid q d) s = .next u ∧
        Stopped p q { x with door := some d.toNat } 5 (entryVa p.rcd q x.point.ring s) s u)) ∧
  (∀ (s : State) (pid q : Nat) (b : Byte) (p : Partition) (x : Queue), partOf pid s = some p → queueOf pid q s = some x →
    x.skip = 0 → Memory.wf s.mem = true →
    let i := Instr.queueStateWrite pid q b
    let r := descField p.rcd q 16 4 s
    let fresh : Queue := { x with point := { ring := r, l1 := none, l2 := none }, copies := [], gateRead := false, ticket := none }
    (x.st = .disabled ∨ x.st = .stopped → b = 1 →
      (descOk p.rcd q s = true → (∀ d, x.door = some d → (d + 2 ^ 32 - r) % 2 ^ 32 ≤ ringSize p.rcd q s) → ∃ u, exec i s = .next u ∧ queueOf pid q u = some { fresh with st := .running } ∧
        descField p.rcd q 9 1 u = 1 ∧ (x.st = .stopped → descField p.rcd q 10 1 u = 0)) ∧
      (descOk p.rcd q s = false → ∃ u, exec i s = .next u ∧ Stopped p q fresh 2 (descAddr p.rcd q) s u)) ∧
    (x.st = .running ∨ x.st = .stopped → b = 0 →
      ∃ u y, exec i s = .next u ∧ queueOf pid q u = some y ∧ y.st = .disabled ∧ y.point = x.point ∧ descField p.rcd q 9 1 u = 0 ∧
        (x.st = .running → y.copies = [])) ∧
    (x.st = .halted ∨ (1 < b.toNat) ∨ (x.st = .running ∧ b = 1) ∨ (x.st = .disabled ∧ b = 0) →
      ∃ u, exec i s = .next u ∧ queueOf pid q u = some x ∧ descField p.rcd q 9 1 u = x.st.code))

/-- 09 R200, R209: the fetch unit copies the next published packet, at most eight past the processing point; a read that faults at the
processing point stops the queue with READ_FAULT, and one further on does nothing. -/
def Sys2Proof.Claims.PacketFetch : Prop :=
  ∀ (s : State) (pid q : Nat) (p : Partition) (x : Queue), RunningQueue pid q p x s →
    let c := x.fetchPos
    let va := packetVa p.rcd q c s
    -- at ring level the packet lies at least one entry before the doorbell value, and not more than the ring before it (09 R199)
    (∀ d, x.door = some d → c.l1 = none → (published p.rcd c x s = true ↔
      1 ≤ (d + 2 ^ 32 - c.ring) % 2 ^ 32 ∧ (d + 2 ^ 32 - c.ring) % 2 ^ 32 ≤ ringSize p.rcd x.q s)) ∧
    (published p.rcd c x s = true → c = x.point ∨ x.ahead < 8 → ∀ t v, FrontReads p q 64 va v s t →
      ∃ u, exec (.packetFetch pid q) s = .next u ∧ SameBytes s u ∧
        queueOf pid q u = some { x with copies := x.copies ++ [{ pos := c, data := leBytes 64 v }] }) ∧
    (published p.rcd c x s = true → ∀ t code detail, feRead p.rcd q 64 va s = .fault t code detail →
      (c = x.point → ∃ u, exec (.packetFetch pid q) s = .next u ∧ Stopped p q x 4 va t u) ∧
      (c ≠ x.point → exec (.packetFetch pid q) s = .next s)) ∧
    (published p.rcd c x s = false ∨ (c ≠ x.point ∧ 8 ≤ x.ahead) → exec (.packetFetch pid q) s = .next s)

/-- 09 R200, R201, R204 to R208: NOP_PACKET passes; INDIRECT and LOOP enter their buffers; PREDICATE compares a masked word and skips
packets of its own level; FETCH_FENCE discards every copy once its gate word has its value, which GATE_POLL reads again;
TIMESTAMP stores the device time; a packet that breaks a limit, lies too deep or has no type stops its queue. -/
def Sys2Proof.Claims.Packets : Prop :=
  ∀ (s : State) (pid q : Nat) (p : Partition) (x : Queue) (v : Nat),
    (PacketAt 7 pid q p x v s →
      (pFlagsBad v = false → pf v 2 62 = 0 → ∃ u, exec (.nopPacket pid q) s = .next u ∧ PassedTo (after x) p q v s u) ∧
      (pFlagsBad v = true ∨ pf v 2 62 ≠ 0 → PacketStops (.nopPacket pid q) p q x 2 s)) ∧
    (∀ i ty, (i, ty) ∈ [(Instr.indirect pid q, 2), (Instr.loop pid q, 4)] → PacketAt ty pid q p x v s →
      (x.point.level = 2 → PacketStops i p q x 3 s) ∧
      (x.point.level < 2 → pFlagsBad v = true ∨ pBufBad v = true → PacketStops i p q x 2 s) ∧
      (x.point.level < 2 → pFlagsBad v = false → pBufBad v = false → (ty = 4 → pf v 4 2 ≠ 0) → ∃ u c, exec i s = .next u ∧
        PassedTo c p q v s u ∧ c.level = x.point.level + 1 ∧ c.ring = x.point.ring ∧ packetVa p.rcd q c s = pf v 8 8)) ∧
    (PacketAt 3 pid q p x v s →
      (predicateBad v = true → PacketStops (.predicate pid q) p q x 2 s) ∧
      (predicateBad v = false → ∀ t w, FrontReads p q 8 (pf v 8 8) w s t →
        let a := w &&& pf v 24 8
        let b := pf v 16 8
        let go := (pf v 2 1 = 0 ∧ a = b) ∨ (pf v 2 1 = 1 ∧ a ≠ b) ∨ (pf v 2 1 = 2 ∧ b ≤ a) ∨ (pf v 2 1 = 3 ∧ a < b)
        (go → ∃ u, exec (.predicate pid q) s = .next u ∧ PassedTo (after x) p q v s u) ∧
        (¬ go → x.point.level ≠ 0 →
          ∃ u, exec (.predicate pid q) s = .next u ∧ PassedTo (x.point.advance (1 + pf v 3 1)) p q v s u) ∧
        (¬ go → x.point.level = 0 → ∀ d, x.door = some d → pf v 3 1 ≤ (d + 2 ^ 32 - (after x).ring) % 2 ^ 32 →
          ∃ u, exec (.predicate pid q) s = .next u ∧
            PassedTo { after x with ring := ((after x).ring + pf v 3 1) % 2 ^ 32 } p q v s u))) ∧
    (PacketAt 5 pid q p x v s →
      (x.gateRead = false →
        (fenceBad v = true → PacketStops (.fetchFence pid q) p q x 2 s) ∧
        (fenceBad v = false → pf v 8 8 = 0 →
          ∃ u y, exec (.fetchFence pid q) s = .next u ∧ PassedTo (after x) p q v s u ∧ queueOf pid q u = some y ∧ y.copies = [])) ∧
      (∀ t w, fenceBad v = false → pf v 8 8 ≠ 0 → FrontReads p q 8 (pf v 8 8) w s t →
        ∀ i, (i = .fetchFence pid q ∧ x.gateRead = false) ∨ (i = .gatePoll pid q ∧ x.gateRead = true) →
          (w = pf v 16 8 → ∃ u y, exec i s = .next u ∧ PassedTo (after x) p q v s u ∧ queueOf pid q u = some y ∧ y.copies = []) ∧
          (w ≠ pf v 16 8 → ∃ u, exec i s = .next u ∧ queueOf pid q u = some { x with gateRead := true } ∧ SameBytes s u))) ∧
    (PacketAt 6 pid q p x v s → pFlagsBad v = false → pf v 2 6 = 0 → pf v 8 8 % 8 = 0 → pf v 16 48 = 0 →
      let va := (pf v 8 8 + x.point.shift) % 2 ^ 64
      (2 ^ 53 ≤ va → PacketStops (.timestamp pid q) p q x 6 s) ∧
      (va < 2 ^ 53 → ∀ t key e pa, placeVa pid va .store .forbid s = .ok t key e pa → storeLost key 8 t = false →
        key + 8 ≤ physKey p.rcd (descAddr p.rcd q) ∨ physKey p.rcd (descAddr p.rcd q) + 64 ≤ key →
        ∃ u, exec (.timestamp pid q) s = .next u ∧ PassedTo (after x) p q v s u ∧ memValue u.mem 8 key = s.time % 2 ^ 64)) ∧
    (∀ ty, PacketAt ty pid q p x v s → ty = 0 ∨ 8 ≤ ty → PacketStops (.badTypePacket pid q) p q x 1 s)

namespace Sys2Proof.Claims

/-- The processing point has passed the packet `v`, in a queue that has gone on. -/
def PassedLaunch (pid q : Nat) (x : Queue) (u : State) : Prop := ∃ y, queueOf pid q u = some y ∧ y.point = after x ∧ y.st = x.st

/-- The state in which a launch packet is checked: after a fall of its partition's capacity, the latest admitted deadlines have been
demoted until the rest fits (09 R218). -/
def demotedAfterFall (p : Partition) (s : State) : State :=
  if p.capFell = true then modPart p.rcd.pid (fun y => { y with capFell := false }) (demoteUntil p.rcd s.launches.length s) else s

/-- A launch packet is refused with a code (09 R213): nothing is admitted to the launches of `s0`, and the launch id stays. -/
def Refuses (pid q : Nat) (x : Queue) (code : Nat) (s0 s : State) : Prop :=
  ∃ u, exec (.launch pid q) s = .next u ∧ PassedLaunch pid q x u ∧
    (∀ l ∈ u.launches, l ∈ s0.launches ∨ (l.st = .completed ∧ l.outcome = 1 ∧ l.code = code)) ∧
    (partOf pid u).map (fun y => y.lastLid) = (partOf pid s).map fun y => y.lastLid

end Sys2Proof.Claims

/-- 09 R202, R203, R211, R213: the launch packet at the processing point is refused by the first check that it fails, with that check's
code, and is else admitted with the next launch id, the deadline, budgets and image that it declares, and its admission time; where the
capacity of the partition has fallen, launches are demoted first (09 R218).
It rests on choices of the model where the log says so: entries 38 and 39. -/
def Obligations.LaunchPacket : Prop :=
  ∀ (s : State) (pid q : Nat) (p : Partition) (x : Queue) (v : Nat),
    let s0 := demotedAfterFall p s
    (PacketIn .halted 1 pid q p x v s → Refuses pid q x 7 s0 s) ∧ (PacketAt 1 pid q p x v s →
    (lpMalformed v (isPenQueue p.rcd q) = true → Refuses pid q x 2 s0 s) ∧
    (lpMalformed v (isPenQueue p.rcd q) = false →
      (shapeBad pid v (isPenQueue p.rcd q) s0 = true → Refuses pid q x 4 s0 s) ∧
      (shapeBad pid v (isPenQueue p.rcd q) s0 = false →
        (∀ t code detail, feRead p.rcd q 64 (pf v 48 8) s0 = .fault t code detail → Refuses pid q x 6 s0 s) ∧
        (∀ t h, FrontReads p q 64 (pf v 48 8) h s0 t →
          (lpN v < pf h 6 1 → Refuses pid q x 4 s0 s) ∧
          (pf h 6 1 ≤ lpN v →
            (headerOk h (windowOf p.rcd q) = false → Refuses pid q x 6 s0 s) ∧
            (headerOk h (windowOf p.rcd q) = true →
              let dated := lpDeadline v ≠ noDeadline
              (dated → lpDeadline v ≤ s.time → Refuses pid q x 3 s0 s) ∧
              ((dated → s.time < lpDeadline v) →
                (quotaBad p.rcd v t = true → Refuses pid q x 5 s0 s) ∧
                (quotaBad p.rcd v t = false →
                  let late := infeasible p.rcd (launchFrom p.rcd x v h 0 t) t
                  (dated → late = true → Refuses pid q x 1 s0 s) ∧
                  ((dated → late = false) →
                    ∃ u l, exec (.launch pid q) s = .next u ∧ PassedLaunch pid q x u ∧ u.launches = s0.launches ++ [l] ∧
                      l.pid = pid ∧ l.lid = (p.lastLid + 1) % 2 ^ 32 ∧ l.st = .admitted ∧ l.code = 0 ∧ l.tadmit = s.time ∧
                      l.deadline = lpDeadline v ∧ l.lgw = lpLgw v ∧ l.lgh = lpLgh v ∧ l.prio = lpPrio v ∧ l.image = pf v 48 8 ∧
                      (∀ k, k < 4 → vecGet l.declared k = lpBudget v k ∧ vecGet l.charged k = 0 ∧
                        (vecGet l.unlimited k = true ↔ ¬ dated ∧ lpBudget v k = budgetOnes k)) ∧
                      l.entry = pf v 44 4 ∧ l.imgBytes = pf h 0 4 ∧ l.kwords = pf h 4 2 ∧ l.lmbase = pf h 56 4)))))))))

/-- The statements QueueControl, PacketFetch and Packets together.
It rests on choices of the model where the log says so: entries 37, 45, 47 and 49. -/
def Obligations.QueuesAndPackets : Prop :=
  Sys2Proof.Claims.QueueControl ∧ Sys2Proof.Claims.PacketFetch ∧ Sys2Proof.Claims.Packets

namespace Sys2Proof.Claims

/-- A running launch of the partition that is not marked for eviction. -/
def RunningLaunch (pid lid : Nat) (l : Launch) (s : State) : Prop :=
  launchOf pid lid s = some l ∧ l.st = .running ∧ l.kill = none

/-- The launch of a partition with an id has become something of which `P` holds. -/
def LaunchBecomes (i : Instr) (pid lid : Nat) (s : State) (P : State → Launch → Prop) : Prop :=
  ∃ u y, exec i s = .next u ∧ launchOf pid lid u = some y ∧ P u y

/-- A launch has ended with an OUTCOME (08 R180, 19 R387): what is left of it, until its record is written, is that outcome, and the
cores that it held are free. -/
def LaunchEnds (i : Instr) (l : Launch) (outcome : Nat) (s : State) : Prop :=
  ∃ u, exec i s = .next u ∧ (∀ k ∈ u.launches, k.pid = l.pid → k.lid = l.lid → k.st = .completed ∧ k.outcome = outcome) ∧
    (∀ c ∈ l.cores, (getCore c s).owner = some (l.pid, l.lid) → (getCore c u).owner = none)

/-- Thread sets 0 to 3 of core `c` hold the launch values of 01 R35 and issue nothing yet. -/
def LaunchValues (l : Launch) (c rank : Nat) (u : State) : Prop :=
  ∀ t, t < 4 → let x := getTs c t u
    x.pc = BitVec.ofNat 20 (l.entry / 4 * 4) ∧ x.fbuf = [] ∧ x.run = .ended ∧ x.status = 0 ∧ x.live = 0 ∧ x.srctr = 0 ∧ (∀ i, i < 32 → vecGet x.s i = 0) ∧
      (∀ i, i < 32 → vecGet x.v i = 0) ∧ (∀ i, i < 8 → vecGet x.q i = 0 ∧ (vecGet x.slots i).st = .free) ∧ x.tvec = w64 l.tvec ∧
      x.uxvec = w64 l.uxvec ∧ x.rankid = w64 rank ∧ x.coord = w64 (rowOf c % 32 * 256 + colOf c) ∧ x.launchid = w64 l.lid ∧
      x.rect = rectOf l.lgh l.lgw l.row0 l.col0 ∧ x.deadline = w64 l.deadline ∧ x.srseed = w64 l.seed ∧ x.partid = w64 l.pid ∧
      x.tsid = w64 t ∧ x.prio = w64 l.prio

end Sys2Proof.Claims

/-! ## Launches (01 R35; 08 R178 to R180; 09 R211, R212, R216) -/

/-- 01 R35; 08 R178, R179; 09 R216: the dispatcher gives the waiting launch that goes first the first free aligned position; a placed
launch whose cores can be claimed owns them, with its image, its constants and the launch values of their thread sets, and its
thread sets become READY once the image has landed, which is the launch's start. -/
def Sys2Proof.Claims.LaunchPlacementAndStart : Prop :=
  (∀ (s : State) (pid : Nat) (l : Launch) (rest : List Launch) (pos : Nat × Nat), waitingLaunches pid s = l :: rest →
    launchOf pid l.lid s = some l → l.st = .admitted → freePosition l [] s = some pos →
    LaunchBecomes (.launchDispatch pid) pid l.lid s fun _ y => y = { l with st := .placed, row0 := pos.1, col0 := pos.2 }) ∧
  (∀ (s : State) (pid lid : Nat) (l : Launch) (p : Partition) (x : List Byte) (t : State), launchOf pid lid s = some l →
    partOf pid s = some p → l.st = .placed → l.kill = none → (∀ c ∈ l.cores, claimable c s = true ∧ c < 2048) → s.tid < 7 →
    l.cores.Nodup → readImage l s = .bytes x t → x.length = l.imgBytes + 4 * l.kwords → l.kwords ≤ 1024 →
    stagingHost l t = none → l.lmbase + l.imgBytes ≤ 0xFC000 → Memory.wf t.mem = true →
    LaunchBecomes (.launchStart pid lid) pid lid s fun u y => y = { l with st := .multicast } ∧
      ∀ c rank, nth? l.cores rank = some c → (getCore c u).owner = some (pid, lid) ∧ LaunchValues l c rank u ∧
        memRead u.mem l.imgBytes (lmKey c l.lmbase) = x.take l.imgBytes ∧
        memRead u.mem (4 * l.kwords) (constKey c 0) = x.drop l.imgBytes) ∧
  (∀ (s : State) (pid lid : Nat) (l : Launch), launchOf pid lid s = some l → l.st = .multicast → s.tid < 7 →
    LaunchBecomes (.imageMulticastDone pid lid) pid lid s fun u y => y = { l with st := .running, tstart := s.time } ∧
      SameBytes s u ∧ ∀ c ∈ l.cores, ∀ t, t < 4 → (getTs c t u).run = .ready ∧ (getTs c t u).pc = (getTs c t s).pc)

/-- 08 R180; 09 R211, R212; 19 R387: a launch whose thread sets have ended and whose commands and messages are gone completes with
OUTCOME 0, and one marked for eviction, or evicted by firmware, ends with its OUTCOME; a class that reaches zero overruns as POLICY
says, a grace that runs out (one of 0 with the first charge after every thread set has taken the event) evicts with KILLED_BUDGET, and a deadline that passes is noted. -/
def Sys2Proof.Claims.LaunchEnd : Prop :=
  (∀ (s : State) (pid lid : Nat) (l : Launch), launchOf pid lid s = some l → launchDone l s = true →
    LaunchEnds (.launchComplete pid lid) l 0 s) ∧
  (∀ (s : State) (pid lid o : Nat) (l : Launch), launchOf pid lid s = some l → l.st ≠ .completed →
    (∀ c ∈ l.cores, coreRetiring c s = false) →
    (∀ k, l.kill = some k → LaunchEnds (.eviction pid lid o) l k s) ∧
    (l.kill = none → 1 ≤ o → o ≤ 4 → LaunchEnds (.eviction pid lid o) l o s)) ∧
  (∀ (s : State) (pid lid : Nat) (k : BitVec 2) (l : Launch), RunningLaunch pid lid l s → l.demoted = false →
    let n := k.toNat
    vecGet l.unlimited n = false → vecGet l.trapped n = false → vecGet l.charged n ≠ 0 →
    vecGet l.declared n ≤ vecGet l.charged n →
    (l.policy = 0 → l.ctxs = [] → l.cores.Nodup → s.tid < 7 →
      LaunchBecomes (.budgetOverrun pid lid k) pid lid s fun u y => vecGet y.grace n = some (vecGet l.declared n / 16) ∧
        vecGet y.trapped n = true ∧ y.ovTrap = true ∧ y.overC = some (l.overC.getD n) ∧
        ∀ c ∈ l.cores, (getCore c s).owner = some (pid, lid) → ∀ t, t < 4 → (getTs c t s).run.live = true →
          (getTs c t u).sched = (getTs c t s).sched ++ [{ code := 0x40, detail := n, val := w64 (vecGet l.declared n / 16) }]) ∧
    (l.policy = 1 → LaunchBecomes (.budgetOverrun pid lid k) pid lid s fun _ y =>
      y = { l with overC := some (l.overC.getD n), demoted := true }) ∧
    (l.policy = 2 → LaunchBecomes (.budgetOverrun pid lid k) pid lid s fun _ y =>
      y = { l with overC := some (l.overC.getD n), kill := some 2 })) ∧
  (∀ (s : State) (pid lid : Nat) (k : BitVec 2) (l : Launch) (g : Nat), RunningLaunch pid lid l s → l.demoted = false →
    vecGet l.grace k.toNat = some g → g ≠ 0 →
    (vecGet l.declared k.toNat + g ≤ vecGet l.charged k.toNat → LaunchBecomes (.graceExpiry pid lid k) pid lid s fun _ y =>
      y = { l with graceUsed := true, kill := some 2 }) ∧
    (vecGet l.charged k.toNat < vecGet l.declared k.toNat + g → exec (.graceExpiry pid lid k) s = .next s)) ∧
  (∀ (s : State) (pid lid : Nat) (k : BitVec 2) (l : Launch), RunningLaunch pid lid l s → l.demoted = false →
    vecGet l.grace k.toNat = some 0 →
    (overTaken l k.toNat s = true → (k = 0 ∨ ∃ n, vecGet l.graceFrom k.toNat = some n ∧ n < vecGet l.charged k.toNat) →
      LaunchBecomes (.graceExpiry pid lid k) pid lid s fun _ y => y = { l with graceUsed := true, kill := some 2 }) ∧
    (overTaken l k.toNat s = false ∨ (k ≠ 0 ∧ ∃ n, vecGet l.graceFrom k.toNat = some n ∧ vecGet l.charged k.toNat ≤ n) →
      exec (.graceExpiry pid lid k) s = .next s)) ∧
  (∀ (s : State) (pid lid : Nat) (l : Launch), launchOf pid lid s = some l → l.st = .running →
    LaunchBecomes (.deadlineMissed pid lid) pid lid s fun u y => u.core = s.core ∧ SameBytes s u ∧
      y = if l.deadline ≠ noDeadline ∧ l.deadline ≤ s.time then { l with missed := true } else l)

/-! ## Stages (08 R181 to R188) -/

/-- 08 R182, R184: the oldest record of a core's stage goes to its lowest IDLE thread set: its eight words to s1 to s8, the pc to the
stage's entry, its ranges pinned; a fault of its footprint is taken there at once. -/
def Sys2Proof.Claims.RecordDispatch : Prop :=
  ∀ (s : State) (core : Nat) (o : Nat × Nat) (l : Launch) (stage t : Nat) (r : StageRec) (rest : List StageRec),
    let k := getCore core s
    let x := leValue r.data
    k.owner = some o → RunningLaunch o.1 o.2 l s → k.stage = some stage → vecGet k.rings stage = r :: rest → s.tid < 7 →
    (List.range 4).find? (fun j => (vecGet k.tsets j).run == .idle) = some t → k.pre = .none → pinsMeet t x k = false → k.lent = [] →
    let f := fetchRanges l core t x (takeBack core x s)
    f.merr = none → f.wait = false →
    ∃ u, exec (.recordDispatch core) s = .next u ∧ vecGet (getCore core u).rings stage = rest ∧
      (∀ i, i < 8 → vecGet (getTs core t u).s (i + 1) = w64 (bitsOf x (64 * i) 64)) ∧
      (getTs core t u).pins = recPins x ∧ (getTs core t u).run ≠ .idle ∧
      (f.fault = none → (getTs core t u).pc = BitVec.ofNat 20 (nth 0 l.stages stage / 4 * 4) ∧ (getTs core t u).run = .ready) ∧
      (∀ e, f.fault = some e → (getTs core t s).tvec.getLsbD 0 = true → (getTs core t u).pc = vecTarget (getTs core t s).tvec ∧
        (getTs core t u).epc = zext64 (BitVec.ofNat 20 (nth 0 l.stages stage / 4 * 4) : PcWord) ∧ (getTs core t u).eval = e.val)

namespace Sys2Proof.Claims

/-- A launch with stages holds all its cores, none of them twice. -/
def HoldsCores (pid lid : Nat) (l : Launch) (s : State) : Prop :=
  RunningLaunch pid lid l s ∧ l.cores.Nodup ∧ ∀ c ∈ l.cores, (getCore c s).owner = some (pid, lid)

end Sys2Proof.Claims

/-- 08 R186 to R188: rebalancing takes the lightest ⌈A/4⌉ cores of the stage with the least load for the stage with the greatest
pressure where their loads differ enough, and begins new counts of full rings; a moving core joins its stage once its thread
sets are IDLE; where every core of a staged launch is idle, with empty rings, its thread sets end. -/
def Sys2Proof.Claims.StageUpkeep : Prop :=
  (∀ (s : State) (pid lid : Nat) (l : Launch), HoldsCores pid lid l s → 2 ≤ l.stages.length →
    ∃ u, exec (.stageRebalance pid lid) s = .next u ∧ (∀ c ∈ l.cores, ∀ i, i < 8 → vecGet (getCore c u).ringFull i = 0) ∧
      ((∀ i, i < l.stages.length → (stageLoad l s i).2.1 < 2) → ∀ c ∈ l.cores,
        (getCore c u).stage = (getCore c s).stage ∧ (getCore c u).joining = (getCore c s).joining) ∧
      ∀ d r, d < l.stages.length → r < l.stages.length → d ≠ r → 2 ≤ (stageLoad l s d).2.1 →
        (∀ i, i < l.stages.length → i ≠ d → 2 ≤ (stageLoad l s i).2.1 → loadLt (stageLoad l s d) (stageLoad l s i) = true) →
        (∀ i, i < l.stages.length → i ≠ r → pressureLt (stageLoad l s i) (stageLoad l s r) = true) →
        let y := stageLoad l s d
        let x := stageLoad l s r
        2 * y.1 * x.2.1 + x.2.1 * y.2.1 ≤ x.1 * y.2.1 + x.2.2 * x.2.1 * y.2.1 →
        ∃ cs : List Nat, cs.length = (y.2.1 + 3) / 4 ∧ cs.Nodup ∧
          (∀ c ∈ cs, c ∈ stageCores l d s ∧ (getCore c u).stage = none ∧ (getCore c u).joining = some r) ∧
          ∀ c ∈ stageCores l d s, c ∉ cs → (getCore c u).stage = some d ∧
            ∀ b ∈ cs, (vecGet (getCore b s).rings d).length ≤ (vecGet (getCore c s).rings d).length) ∧
  (∀ (s : State) (core r : Nat), (getCore core s).joining = some r →
    ((∀ t, t < 4 → (vecGet (getCore core s).tsets t).run = .idle) → ∃ u, exec (.stageJoin core) s = .next u ∧
      (getCore core u).stage = some r ∧ (getCore core u).joining = none ∧ SameBytes s u) ∧
    ((∃ t, t < 4 ∧ (vecGet (getCore core s).tsets t).run ≠ .idle) → exec (.stageJoin core) s = .next s)) ∧
  (∀ (s : State) (pid lid : Nat) (l : Launch) (p : Partition), HoldsCores pid lid l s → partOf pid s = some p → l.stages ≠ [] →
    s.tid < 7 →
    ((∀ c ∈ l.cores, coreIdle (getCore c s) = true) → ∃ u, exec (.stagedLaunchEnd pid lid) s = .next u ∧ SameBytes s u ∧
      ∀ c ∈ l.cores, ∀ t, t < 4 → (getTs c t u).run = .ended) ∧
    ((∃ c ∈ l.cores, coreIdle (getCore c s) = false) → exec (.stagedLaunchEnd pid lid) s = .next s))

/-- The statements LaunchPlacementAndStart and LaunchEnd together.
It rests on choices of the model where the log says so: entries 39 and 44. -/
def Obligations.LaunchesRunAndEnd : Prop :=
  Sys2Proof.Claims.LaunchPlacementAndStart ∧ Sys2Proof.Claims.LaunchEnd

/-- The statements RecordDispatch and StageUpkeep together.
It rests on choices of the model where the log says so: entry 36. -/
def Obligations.StageRecords : Prop :=
  Sys2Proof.Claims.RecordDispatch ∧ Sys2Proof.Claims.StageUpkeep

namespace Sys2Proof.Claims

/-- Core `c` becomes `f` of what it was; every other core, memory and the launches are as before. -/
def CoreBecomes (i : Instr) (c : Nat) (s : State) (f : Core → Core) : Prop :=
  ∃ u, exec i s = .next u ∧ getCore c u = f (getCore c s) ∧ (∀ d, d ≠ c → getCore d u = getCore d s) ∧ SameBytes s u ∧
    u.launches = s.launches

/-- The optical engine of a die is `o` after it, and every other one, every core and memory are as before. -/
def OpticsBecome (i : Instr) (die : Nat) (s : State) (o : Optics) : Prop :=
  ∃ u, exec i s = .next u ∧ vecGet u.optics die = o ∧ (∀ d, d < 8 → d ≠ die → vecGet u.optics d = vecGet s.optics d) ∧
    (∀ c, getCore c u = getCore c s) ∧ SameBytes s u

/-- What `k` units of a class of a launch leave to a budget register (01 R17; 09 R211, R212). -/
def budgetLeft (l : Launch) (k : Nat) : Nat :=
  if vecGet l.unlimited k then 2 ^ 64 - 1 else vecGet l.declared k + (vecGet l.grace k).getD 0 - vecGet l.charged k

/-- OPORTCFG of a link port takes a value: a mode that is not reserved, a minimum up to 16, reserved bits 0 (22 R425). -/
def PortValueOk (x : Word) : Prop := bitsOf x.toNat 10 2 ≠ 3 ∧ bitsOf x.toNat 0 7 ≤ 16 ∧
  bitsOf x.toNat 7 3 = 0 ∧ bitsOf x.toNat 12 52 = 0

end Sys2Proof.Claims

/-! ## Instruction boundaries (01 R33, R34; 08 R171; 15 R322, R323) -/

/-- 01 R33, R34; 15 R322, R323; 20 R405: the oldest completion that raised a user-level interrupt enters its handler with UXEPC, UXID
and STATUS; a handler address beyond the tenant range takes UX_FAULT; a scheduling event is taken as a trap; a revocation that
finds no usable handler is discarded. With nothing due, or with the gang barrier's decision to be taken first (16 R345), nothing
changes. -/
def Sys2Proof.Claims.BoundaryEvents : Prop :=
  ∀ s : State,
    (∀ c rest, s.ts.ux = c :: rest → s.ts.status.getLsbD 2 = true → s.ts.status.getLsbD 1 = false →
      gangDecided s = false →
      let h := if c.uxh = 0 then bitsOf s.ts.uxvec.toNat 2 18 else c.uxh
      (c.uxh ≠ 0 ∨ s.ts.uxvec.getLsbD 0 = true →
        (s.ts.status.getLsbD 0 = true ∨ h < 0x3F000 → ∃ u, exec .uxEntry s = .next u ∧ SameBytes s u ∧
          u.ts.pc = BitVec.ofNat 20 (h * 4) ∧ u.ts.uxepc = s.ts.pc.setWidth 64 ∧ u.ts.run = .ready ∧ u.ts.ux = rest ∧
          u.ts.status.getLsbD 3 = true ∧ u.ts.status.getLsbD 2 = false ∧
          (∀ k, k ≠ 2 → k ≠ 3 → u.ts.status.getLsbD k = s.ts.status.getLsbD k) ∧ u.ts.s = s.ts.s ∧
          u.ts.uxid = BitVec.ofNat 64 (c.tag % 2 ^ 16 + c.cls % 2 ^ 4 * 2 ^ 16 + c.status % 2 ^ 8 * 2 ^ 20) ∧ u.ts.epc = s.ts.epc) ∧
        (s.ts.status.getLsbD 0 = false → 0x3F000 ≤ h → CanTrap s → ∃ u, exec .uxEntry s = .next u ∧ u.ts.ux = rest ∧
          u.ts.pc = vecTarget s.ts.tvec ∧ u.ts.epc = s.ts.pc.setWidth 64 ∧ u.ts.ecause = 0x60 ∧ u.ts.eval = BitVec.ofNat 64 (h * 4))) ∧
      (c.uxh = 0 → s.ts.uxvec.getLsbD 0 = false → ∃ u, exec .uxEntry s = .next u ∧ u.ts.ux = rest ∧ u.ts.pc = s.ts.pc)) ∧
    (s.ts.ux = [] ∨ s.ts.status.getLsbD 2 = false ∨ s.ts.status.getLsbD 1 = true ∨ gangDecided s = true → exec .uxEntry s = .next s) ∧
    (∀ c rest, s.ts.sched = c :: rest → s.ts.run.live = true → gangDecided s = false →
      (CanTrap s → c.code < 256 → c.detail < 256 → ∃ u, exec .schedulingEvent s = .next u ∧ u.ts.sched = rest ∧
        u.ts.pc = vecTarget s.ts.tvec ∧ u.ts.epc = s.ts.pc.setWidth 64 ∧ u.ts.eval = c.val ∧ u.ts.run = .ready ∧
        u.ts.ecause = BitVec.ofNat 64 (c.code + c.detail * 256) ∧ u.ts.status.getLsbD 1 = true ∧ u.ts.s = s.ts.s) ∧
      (¬ CanTrap s → c.code = 0x41 → exec .schedulingEvent s = .next { s with ts := { s.ts with sched := rest } })) ∧
    (s.ts.sched = [] ∨ s.ts.run.live = false ∨ gangDecided s = true → exec .schedulingEvent s = .next s)

/-- 08 R171, 09 R211, R212, 25 R466: after 256 issues in a row with another thread set READY the core switches to the next one; the budget
registers show what is left of the declared budget and of a grace; RESTART lets a halted thread set go on
at the address after its HALT, where that is in the fetch range, and else with a FETCH_FAULT. -/
def Sys2Proof.Claims.Scheduling : Prop :=
  (∀ (s : State) (t : Nat), s.tid < 7 → (cyclic s.core.cur).find? (fun i => i != s.core.cur && isReady i s) = some t →
    (256 ≤ s.core.count → ∃ u, exec .threadSwitch s = .next u ∧ u.tid = t ∧ u.here = s.here ∧ u.core.cur = t ∧ u.core.count = 0 ∧
      (∀ j, j < 7 → getTs s.here j u = getTs s.here j s) ∧ SameBytes s u) ∧
    (s.core.count < 256 → exec .threadSwitch s = .next s)) ∧
  (∀ (s : State) (l : Launch), launchOf (bitsOf s.ts.partid.toNat 0 4) (bitsOf s.ts.launchid.toNat 0 32) s = some l →
    ∃ b, exec .budgetRefresh s = .next { s with ts := { s.ts with budget := b } } ∧
      ∀ k, k < 4 → vecGet b k = BitVec.ofNat 64 (budgetLeft l k)) ∧
  (∀ (s : State) (c t : Nat), s.tid < 7 → t < 7 → s.fw.booted = true → (getTs c t s).run = .halted →
    let x := getTs c t s
    (c ∉ s.fw.erred → x.pc.toNat + 4 < fetchLimit (focusOn c t s) → ∃ u, exec (.restart c t) s = .next u ∧
      getTs c t u = { x with run := .ready, pc := BitVec.ofNat 20 (x.pc.toNat + 4) } ∧
      (∀ j, j < 7 → j ≠ t → getTs c j u = getTs c j s) ∧ SameBytes s u) ∧
    (c ∉ s.fw.erred → fetchLimit (focusOn c t s) ≤ x.pc.toNat + 4 → CanTrap (focusOn c t s) → ∃ u, exec (.restart c t) s = .next u ∧
      (getTs c t u).run = .ready ∧ (getTs c t u).pc = vecTarget x.tvec ∧ (getTs c t u).eval = BitVec.ofNat 64 (x.pc.toNat + 4) ∧
      (getTs c t u).epc = x.pc.setWidth 64 ∧ (getTs c t u).ecause = 4) ∧
    (c ∈ s.fw.erred → exec (.restart c t) s = .next s))

/-! ## Firmware registers and background work (11 R258; 20 R390; 22 R423 to R425; 23 R431; 25 R466, R474) -/

/-- 11 R246, R258; 20 R390; 22 R424, R425; 23 R431; 25 R474: writes of FWCTL, of OPORTCFG within its limits and of a lane's RET; the
read-only registers ignore a write; SUMSTAT reads its fields, clears LOWERED, and is out of reach at U; scrubbing corrects the word
that it reads; the matrix self-test changes nothing that software reads.
It rests on choices of the model where the log says so: entries 8, 16, 22 and 59. -/
def Obligations.FirmwareRegisters : Prop :=
  (∀ (s : State) (c : Nat) (x : Word) (i : Instr), i = .fwctlWrite c x ∨ i = .fwRegisterWrite (.fwctl c) x →
    CoreBecomes i c s fun k => { k with fwctl := x &&& 0x7FFF }) ∧
  (∀ (s : State) (die port : Nat) (x : Word) (i : Instr), die < 8 → port < 3 →
    i = .oportcfgWrite die port x ∨ i = .fwRegisterWrite (.oportcfg die port) x →
    let o := vecGet s.optics die
    let n := o.modPort port fun p => { p with cfg := x }
    (PortValueOk x → n.minSum ≤ n.available → OpticsBecome i die s n) ∧
    (¬ PortValueOk x ∨ n.available < n.minSum → exec i s = .next s)) ∧
  (∀ (s : State) (die n : Nat) (x : Word), die < 8 →
    let o := { vecGet s.optics die with lanes := modNth (fun l => { l with ret := true }) (vecGet s.optics die).lanes n }
    OpticsBecome (.laneRetire die n) die s o ∧ (x.getLsbD 31 = true → OpticsBecome (.fwRegisterWrite (.lane die n) x) die s o) ∧
    (x.getLsbD 31 = false → exec (.fwRegisterWrite (.lane die n) x) s = .next s)) ∧
  (∀ (s : State) (die p : Nat) (x : Word), exec (.fwRegisterWrite (.oportstat die p) x) s = .next s ∧
    exec (.fwRegisterWrite (.sumstat die) x) s = .next s) ∧
  (∀ (s : State) (d : Reg) (die : Nat), Free (useD d) s →
    let p := (vecGet s.optics die).sum
    (s.ts.status.getLsbD 0 = true → ∃ w, Effects (.sumstatRead d die) (useD d) s
        (setS d w { s with optics := vecSet s.optics die { vecGet s.optics die with sum := { p with lowered := 0 } } }) ∧
      bitsOf w.toNat 0 16 = p.lowered % 2 ^ 16 ∧ bitsOf w.toNat 16 4 = p.grpmax % 16 ∧ bitsOf w.toNat 20 3 = p.failrun % 8 ∧
      bitsOf w.toNat 23 8 = p.ddly % 256 ∧ bitsOf w.toNat 31 6 = p.lambda % 64 ∧ bitsOf w.toNat 37 4 = p.wmax % 16 ∧
      bitsOf w.toNat 41 4 = p.pidx % 16 ∧ bitsOf w.toNat 45 3 = p.level % 8 ∧ bitsOf w.toNat 48 16 = p.segid % 2 ^ 16) ∧
    (s.ts.status.getLsbD 0 = false → Traps (.sumstatRead d die) 0x21 4 (Config.fwAddr (.sumstat die)) false s)) ∧
  (∀ (s : State) (k : Nat), isHostPa k = false → ∃ u, exec (.scrubbing k) s = .next u ∧ SameBytes s u ∧ k / 8 ∉ u.soft ∧
    (∀ w, w ≠ k / 8 → (w ∈ u.soft ↔ w ∈ s.soft)) ∧ u.bad = s.bad) ∧
  (∀ (s : State) (c : Nat), CoreBecomes (.matrixSelfTest c) c s fun k => { k with selfTested := s.time })

/-- The statements BoundaryEvents and Scheduling together.
It rests on choices of the model where the log says so: entries 10, 11 and 61. -/
def Obligations.BoundariesAndScheduling : Prop :=
  Sys2Proof.Claims.BoundaryEvents ∧ Sys2Proof.Claims.Scheduling

namespace Sys2Proof.Claims

/-- The save frame `f` of a partition lies in one piece of HBM (19 R381). -/
def FrameWhole (p : PartRec) (f : Nat) : Prop :=
  frameKey p f 0 + 1146880 ≤ 2 ^ 48 ∧ ∀ off, off < 1146880 → frameKey p f off = frameKey p f 0 + off

/-- The bytes from key `a` in `s` stand from key `b` on in `u`. -/
def Copied (n a b : Nat) (s u : State) : Prop := ∀ i, i < n → memGet u.mem (b + i) = memGet s.mem (a + i)

/-- The 8-byte word at a key. -/
def wordAt (k : Nat) (s : State) : Nat := memValue s.mem 8 k

/-- The state field of PCST (19 R382). -/
def stateField (r : Run) : Nat :=
  match r with
  | .ready => 0
  | .stalled => 1
  | .waiting => 2
  | .idle => 3
  | .ended | .halted => 4

/-- The record of a thread set stands at a key (19 R382): PCST, and, unless it has ended, its control registers, LIVE, its masks and
every live scalar and vector register. -/
def Recorded (k : Nat) (t : ThreadSet) (u : State) : Prop :=
  wordAt k u = t.pc.toNat + stateField t.run * 2 ^ 61 ∧
    (t.run ≠ .ended → wordAt (k + 8) u = t.status.toNat ∧ wordAt (k + 16) u = t.epc.toNat ∧ wordAt (k + 24) u = t.ecause.toNat ∧
      wordAt (k + 32) u = t.eval.toNat ∧ wordAt (k + 40) u = t.uxepc.toNat ∧ wordAt (k + 48) u = t.tvec.toNat ∧
      wordAt (k + 56) u = t.uxvec.toNat ∧ wordAt (k + 64) u = t.srctr.toNat ∧ wordAt (k + 72) u = t.live.toNat ∧
      (∀ n, 1 ≤ n → n < 8 → wordAt (k + 392 + 8 * (n - 1)) u = (vecGet t.q n).toNat) ∧
      (∀ n, 1 ≤ n → n < 32 → t.live.getLsbD n = true → wordAt (k + 448 + 8 * (n - 1)) u = (vecGet t.s n).toNat) ∧
      ∀ n, n < 32 → t.live.getLsbD (32 + n) = true → memValue u.mem 64 (k + 768 + 64 * n) = (vecGet t.v n).toNat)

/-- Another launch is to have core `c` of launch `l` (09 R216, 19 R385). -/
def Wanted (c : Nat) (l : Launch) (s : State) : Prop := ∃ x ∈ s.launches, wantsCore c l x = true

end Sys2Proof.Claims

/-! ## Pre-emption (19 R380 to R386) -/

/-- 19 R378 to R383: a pre-emption message takes a save frame and stops a core that another launch is to have; at the preemptible point
the core's records, local memory and accumulators are in its frame, the launch holds that frame, and the core is free. -/
def Sys2Proof.Claims.Preemption : Prop :=
  (∀ (s : State) (c : Nat) (o : Nat × Nat) (l : Launch) (p : Partition) (f : Nat) (fs : List Nat),
    (getCore c s).owner = some o → RunningLaunch o.1 o.2 l s → l.pen = false → partOf o.1 s = some p → p.freeFrames = f :: fs →
    (getCore c s).pre = .none →
    (Wanted c l s → ∃ u y, exec (.preempt c) s = .next u ∧ getCore c u = { getCore c s with pre := .asked f } ∧
      partOf o.1 u = some y ∧ y.freeFrames = fs ∧ SameBytes s u) ∧
    (¬ Wanted c l s → exec (.preempt c) s = .next s)) ∧
  (∀ (s : State) (c : Nat) (o : Nat × Nat) (l : Launch) (p : Partition) (f : Nat), c < 2 ^ 28 → s.tid < 7 →
    (getCore c s).owner = some o → launchOf o.1 o.2 s = some l → l.kill = none → partOf o.1 s = some p →
    (getCore c s).pre = .asked f → (getCore c s).matq = [] → slotsDrained c s = true → (getCore c s).lent = [] →
    (getCore c s).spill.length ≤ 1024 → (∀ e ∈ (getCore c s).spill, e.2.data.length ≤ 64) → FrameWhole p.rcd f → Memory.wf s.mem = true →
    ∃ u y h, exec (.preemptiblePoint c) s = .next u ∧ launchOf o.1 o.2 u = some y ∧ y.held = l.held ++ [h] ∧ h.core = c ∧
      h.frame = f ∧ h.spill = (getCore c s).spill ∧ (getCore c u).owner = none ∧ (getCore c u).pre = .none ∧
      (∀ t, t < 4 → Recorded (frameKey p.rcd f (0xB00 * t)) (getTs c t s) u ∧ (getTs c t u).run = .ended) ∧
      Copied (2 ^ 20) (lmKey c 0) (frameKey p.rcd f 0x8000) s u ∧
      ((getCore c s).mctx.getLsbD 63 = true → ∀ i n, i < 4 → n < 1024 →
        memValue u.mem 4 (frameKey p.rcd f (0x2C00 + 0x1000 * i) + 4 * n) = ((vecGet (getCore c s).accs i)[n]?.getD 0).toNat))

/-- 19 R378, R382, R385: a resume reads local memory and each thread set's record back into the same core: pc, state, control
registers, masks and live registers, with dead registers 0; the frame returns to its pool. -/
def Sys2Proof.Claims.Resume : Prop :=
  ∀ (s : State) (pid lid : Nat) (l : Launch) (p : Partition) (h : Held), RunningLaunch pid lid l s → partOf pid s = some p →
    l.held.find? (fun h => resumable l h s) = some h → frameError p.rcd h s = none → h.core < 2 ^ 28 → s.tid < 7 → h.spill = [] →
    FrameWhole p.rcd h.frame → Memory.wf s.mem = true →
    ∃ u y, exec (.resume pid lid) s = .next u ∧ launchOf pid lid u = some y ∧
      y.held = l.held.filter (fun x => x.core != h.core) ∧ (getCore h.core u).owner = some (pid, lid) ∧
      Copied (2 ^ 20) (frameKey p.rcd h.frame 0x8000) (lmKey h.core 0) s u ∧
      (∃ z, partOf pid u = some z ∧ z.freeFrames = p.freeFrames ++ [h.frame]) ∧
      ∀ t, t < 4 →
        let k := frameKey p.rcd h.frame (0xB00 * t)
        let x := getTs h.core t u
        x.pc = BitVec.ofNat 20 (wordAt k s / 4 * 4) ∧ (wordAt k s / 2 ^ 61 < 4 → stateField x.run = wordAt k s / 2 ^ 61 ∧
          x.status = BitVec.ofNat 64 (wordAt (k + 8) s) ∧ x.epc = BitVec.ofNat 64 (wordAt (k + 16) s) ∧
          x.srctr = BitVec.ofNat 48 (wordAt (k + 64) s) ∧ x.live = BitVec.ofNat 64 (wordAt (k + 72) s) ∧
          (∀ n, 1 ≤ n → n < 8 → vecGet x.q n = BitVec.ofNat 64 (wordAt (k + 392 + 8 * (n - 1)) s)) ∧
          (∀ n, 1 ≤ n → n < 32 → vecGet x.s n =
            if (BitVec.ofNat 64 (wordAt (k + 72) s)).getLsbD n then BitVec.ofNat 64 (wordAt (k + 448 + 8 * (n - 1)) s) else 0) ∧
          ∀ n, n < 32 → vecGet x.v n =
            if (BitVec.ofNat 64 (wordAt (k + 72) s)).getLsbD (32 + n) then BitVec.ofNat 512 (memValue s.mem 64 (k + 768 + 64 * n)) else 0)

namespace Sys2Proof.Claims

/-- No cache holds an uncorrectable word. -/
def NoBadLines (s : State) : Prop := s.l1bad = [] ∧ ∀ x ∈ s.l2, x.bad = []

/-- The bytes of a completion record (09 R215). -/
def completionRecord (l : Launch) (tend : Nat) : List Byte :=
  let fl (b : Bool) (n : Nat) : Nat := if b then n else 0
  leBytes 1 l.code ++ leBytes 1 l.outcome ++
    leBytes 1 (fl l.demoted 1 + fl l.missed 2 + fl l.graceUsed 4 + fl l.degraded 8 + fl l.ovTrap 16) ++ leBytes 1 (l.overC.getD 255) ++
    leBytes 4 l.lid ++ leBytes 8 l.tadmit ++ leBytes 8 l.tstart ++ leBytes 8 tend

end Sys2Proof.Claims

/-! ## The companion processor (09 R215; 11 R244; 19 R388; 20 R389, R392, R393; 22 R419) -/

/-- 09 R215; 19 R388; 20 R392: the host's answer takes a resolved fault from the list and marks a denied one; a completion record that
waited for it is then written; an invalidation joins the queue, and completes, oldest first, once the partition's translated
operations have been performed: no covered translation is left, and INVSEQ of the status block has its SEQ.
It rests on choices of the model where the log says so: entries 40, 46 and 47. -/
def Obligations.HostAnswers : Prop :=
  (∀ (s : State) (n : Nat) (t : Ticket), s.tickets.find? (fun x => x.num == n && x.denied.isNone) = some t → s.gwerid = .up →
    ((∀ pid lid, t.party ≠ .launch pid lid) →
      exec (.hostFaultAnswer n true) s = .next { s with tickets := s.tickets.filter fun x => x.num != n } ∧
      ∃ u, exec (.hostFaultAnswer n false) s = .next u ∧ ∃ x ∈ u.tickets, x.num = n ∧ x.denied = some true) ∧
    (∀ pid lid l p key e pa v, t.party = .launch pid lid → launchOf pid lid s = some l → l.st = .completed → l.lid < 2 ^ 32 →
      partOf pid s = some p → (∀ x ∈ s.tickets, x.party = .launch pid lid → x.num = n) → l.compl < 2 ^ 53 → l.compl % 32 = 0 →
      placeVa pid l.compl .store .forbid { s with tickets := s.tickets.filter fun x => x.num != n } = .ok v key e pa →
      storeLost key 32 v = false → l.notify = false → Memory.wf s.mem = true →
      ∃ u, exec (.hostFaultAnswer n true) s = .next u ∧ launchOf pid lid u = none ∧ Stored key (completionRecord l s.time) s u)) ∧
  (∀ (s : State) (pid : Nat) (va pages q : Word) (p : Partition), partOf pid s = some p → s.gwerid = .up →
    exec (.invalidationRequest pid va pages q) s =
      .next { s with invs := s.invs ++ [{ pid := pid, va := va.toNat, pages := pages.toNat, seq := q }] }) ∧
  (∀ (s : State) (pid : Nat) (r : InvReq) (p : Partition), s.invs.find? (fun x => x.pid == pid) = some r → partOf pid s = some p →
    ((∃ x ∈ s.pend, x.pid = pid ∧ isLmKey x.key = false) → exec (.invalidationComplete pid) s = .next s) ∧
    ((∀ x ∈ s.pend, x.pid = pid → isLmKey x.key = true) → Memory.wf s.mem = true →
      ∃ u, exec (.invalidationComplete pid) s = .next u ∧ u.invs = s.invs.erase r ∧
        (∀ x ∈ u.tlb, x.pid = pid → r.pages ≠ 0 ∧ ¬ (r.va / 8192 * 8192 < (x.vpn + 1) * 2 ^ (13 + 10 * x.lvl) ∧
          x.vpn * 2 ^ (13 + 10 * x.lvl) < (r.va / 8192 + r.pages) * 8192)) ∧
        (∀ x ∈ s.tlb, x.pid ≠ pid → x ∈ u.tlb) ∧ Stored (p.rcd.statblk + 8) (leBytes 8 r.seq.toNat) s u))

/-- 09 R198; 20 R389, R393: firmware creates a partition that meets its limits, with 64 DISABLED queues whose descriptors show it, with no error; a core that passes from another
tenant has no byte of its local memory left; a record that breaks a limit, or a change away from a quiesce point, is refused. -/
def Sys2Proof.Claims.Partitions : Prop :=
  ∀ (s : State) (p : PartRec), s.fw.booted = true → s.gwerid = .up →
    (partitionOk p s = false → exec (.partitionCreate p) s = .next s) ∧
    (partitionOk p s = true → partOf p.pid s ≠ none → quiesced s = false → exec (.partitionCreate p) s = .next s) ∧
    (partitionOk p s = true → partOf p.pid s = none ∨ quiesced s = true → Memory.wf s.mem = true →
      ∃ u y, exec (.partitionCreate p) s = .next u ∧ partOf p.pid u = some y ∧ y.rcd = p ∧
        (∀ c ∈ p.cores, (getCore c u).tenant = some p.pid ∧ (getCore c u).l1 = [] ∧
          (∀ t, (getCore c s).tenant = some t → t ≠ p.pid → ∀ off, off < 0xFC000 → memGet u.mem (lmKey c off) = 0)) ∧
        (∀ x ∈ u.tlb, x.pid ≠ p.pid) ∧
        (partOf p.pid s = none → (∀ x ∈ s.queues, x.pid ≠ p.pid) → y.lastLid = 0 ∧ ∀ q, q < 64 →
          (∃ x, queueOf p.pid q u = some x ∧ x.st = .disabled ∧ x.door = none) ∧ descField p q 9 1 u = 0 ∧ descField p q 10 1 u = 0))

/-- 22 R419: a coherent host access of mapped, aligned data reads it, writes it, or rewrites it by an atomic and gives back the old
value; one that finds the link down or names an unmapped address does nothing. -/
def Sys2Proof.Claims.HostAccesses : Prop :=
  ∀ (s : State) (pid pa lg key : Nat), Memory.wf s.mem = true →
    (hostPlace pid pa lg s = some key →
      (readError key (2 ^ lg) s = none → ∃ u, exec (.hostAccess (.read pid pa lg)) s = .next u ∧ SameBytes s u ∧
        u.hostData = memRead s.mem (2 ^ lg) key) ∧
      (∀ x : Word, storeLost key (2 ^ lg) s = false → NoBadLines s → ∃ u, exec (.hostAccess (.write pid pa lg x)) s = .next u ∧
        Stored key (leBytes (2 ^ lg) x.toNat) s u) ∧
      (∀ op (x c : Word), readError key (2 ^ lg) s = none → NoBadLines s → ∃ u, exec (.hostAccess (.amo pid pa op lg x c)) s = .next u ∧
        u.hostData = memRead s.mem (2 ^ lg) key ∧
        Rewritten key (2 ^ lg) (amoNew (hostAmoOp op) (2 ^ lg) (memValue s.mem (2 ^ lg) key) x.toNat c.toNat) s u)) ∧
    (hostPlace pid pa lg s = none → exec (.hostAccess (.read pid pa lg)) s = .next s ∧
      ∀ x, exec (.hostAccess (.write pid pa lg x)) s = .next s)

namespace Sys2Proof.Claims

/-- A context runs on bank `b` of core `c`, whose window at `base` it has. -/
def Seated (pid c b base w entry : Nat) (u : State) : Prop :=
  (getTs c b u).run = .ready ∧ (getTs c b u).pc = BitVec.ofNat 20 (entry / 4 * 4) ∧ (getTs c b u).wbase = base ∧ (getTs c b u).wsize = w ∧
    (getTs c b u).plen = BitVec.ofNat 64 w ∧ (getTs c b u).partid = BitVec.ofNat 64 pid ∧
    { bank := b, base := base, size := w, reclaim := false } ∈ (getCore c u).lent

end Sys2Proof.Claims

/-! ## Penumbra contexts (20 R394 to R406) -/

/-- 20 R395, R401, R402, R404, R405: a penumbra launch is placed whole, each context on a bank with its window and a frame; a window that is
taken back leaves its context PARKED with reason LEND, its window zeroed and its record in its frame; a parked context is placed
again on a core, with its frame's registers and window, and first meets an EVICTED event.
It rests on choices of the model where the log says so: entry 42. -/
def Obligations.PenumbraContexts : Prop :=
  (∀ (s : State) (pid lid : Nat) (l : Launch) (p : Partition) (pos : Nat × Nat) (x : List Byte) (t : State), s.tid < 7 →
    launchOf pid lid s = some l → partOf pid s = some p → l.pen = true → startableLaunch l s = true →
    (∀ k ∈ penBefore s.launches l, startableLaunch k s = false ∨ penPosition k s = none) → penPosition l s = some pos →
    readImage l s = .bytes x t → (∀ r, r < 2 ^ (l.lgw + l.lgh) → ∃ z ∈ l.ctxs, z.rank = r) →
    (rectCores pos.1 pos.2 l.lgh l.lgw).Nodup →
    LaunchBecomes (.penumbraPlacement pid lid) pid lid s fun u y => y.st = .running ∧ y.row0 = pos.1 ∧ y.col0 = pos.2 ∧
      y.tstart = s.time ∧ ∀ rank c, nth? (rectCores pos.1 pos.2 l.lgh l.lgw) rank = some c →
        ∃ b base, bankFor pid (penWindow p.rcd l) c s = some (b, base) ∧ Seated pid c b base (penWindow p.rcd l) l.entry u ∧
          ∃ z ∈ y.ctxs, z.rank = rank ∧ z.st = .issuing ∧ z.core = c ∧ z.bank = b) ∧
  (∀ (s : State) (c : Nat) (w : Lent) (l : Launch) (x : PenCtx) (p : Partition), c < 2 ^ 28 → s.tid < 7 →
    (getCore c s).lent = [w] → w.reclaim = true → w.bank = 4 ∨ w.bank = 5 → ctxRetiring c w.bank s = false →
    ctxAt c w.bank s = some (l, x) → partOf l.pid s = some p → bankCmds c w.bank s = [] → s.pend = [] →
    (getCore c s).inboxOf w.bank = [] → FrameWhole p.rcd x.frame → w.size ≤ 2 ^ 18 → w.base + w.size ≤ 2 ^ 20 →
    Memory.wf s.mem = true →
    LaunchBecomes (.reclaimComplete c) l.pid l.lid s fun u y => (getCore c u).lent = [] ∧
      (∃ z ∈ y.ctxs, z.rank = x.rank ∧ z.st = .parked ∧ z.why = 1 ∧ z.cancelled = 0 ∧ z.frame = x.frame) ∧
      (∀ i, i < w.size → memGet u.mem (lmKey c (w.base + i)) = 0) ∧
      wordAt (frameKey p.rcd x.frame 0) u = (getTs c w.bank s).pc.toNat + stateField (getTs c w.bank s).run * 2 ^ 61 ∧
      (∀ n, 1 ≤ n → n < 32 → wordAt (frameKey p.rcd x.frame 0 + 448 + 8 * (n - 1)) u = (vecGet (getTs c w.bank s).s n).toNat) ∧
      Copied w.size (lmKey c w.base) (frameKey p.rcd x.frame 0x1000) s u) ∧
  (∀ (s : State) (pid lid rank c : Nat) (l : Launch) (p : Partition) (x : PenCtx) (b base : Nat), c < 2048 → s.tid < 7 →
    launchOf pid lid s = some l → l.kill = none → partOf pid s = some p →
    l.ctxs.find? (fun z => z.rank == rank && z.st == .parked) = some x →
    bankFor pid (penWindow p.rcd l) c s = some (b, base) → frameBad (frameKey p.rcd x.frame 0) (0x1000 + penWindow p.rcd l) s = none →
    FrameWhole p.rcd x.frame → penWindow p.rcd l ≤ 2 ^ 18 → Memory.wf s.mem = true →
    let w := penWindow p.rcd l
    let k := frameKey p.rcd x.frame 0
    LaunchBecomes (.penumbraReplacement pid lid rank c) pid lid s fun u y =>
      (∃ z ∈ y.ctxs, z.rank = rank ∧ z.st = .issuing ∧ z.core = c ∧ z.bank = b) ∧
      (getTs c b u).run = .ready ∧ (getTs c b u).pc = BitVec.ofNat 20 (wordAt k s / 4 * 4) ∧
      (∀ n, 1 ≤ n → n < 32 → vecGet (getTs c b u).s n = BitVec.ofNat 64 (wordAt (k + 448 + 8 * (n - 1)) s)) ∧
      (getTs c b u).sched.head? = some { code := 0x41, detail := x.why, val := BitVec.ofNat 64 x.cancelled } ∧
      Copied w (frameKey p.rcd x.frame 0x1000) (lmKey c base) s u)

/-- The statements Preemption and Resume together.
It rests on choices of the model where the log says so: entry 41. -/
def Obligations.PreemptionAndResume : Prop :=
  Sys2Proof.Claims.Preemption ∧ Sys2Proof.Claims.Resume

/-- The statements Partitions and HostAccesses together.
It rests on choices of the model where the log says so: entries 45, 47 and 48. -/
def Obligations.PartitionsAndHostAccesses : Prop :=
  Sys2Proof.Claims.Partitions ∧ Sys2Proof.Claims.HostAccesses

namespace Sys2Proof.Claims

/-- The dimension-order route of a flow uses a link (22 R415). -/
def usesLink (l : Link) (f : Flow) : Bool := (hopsOf (dorRoute f.src f.dst)).any fun h => linkDown [l] h

/-- The graph of virtual network `vn` is acyclic once some detours have been added to those of the flows that keep theirs
(22 R416). -/
def staysAcyclic (ds : List Detour) (vn : Nat) (s : State) : Bool :=
  acyclic s.failed (((s.flows.filter fun f => !((ds.map fun d => d.flow).contains f.flow)).filter fun f =>
    f.flow.vn == vn && !f.escape).map (fun f => f.route) ++ (ds.filter fun d => d.flow.vn == vn).map fun d => d.route)

end Sys2Proof.Claims

/-! ## Mesh links and the Gwerid link (22 R412 to R421) -/

/-- 22 R412, R415 to R418: a failed link is declared; the link manager installs the detours that it has computed, or the escape routes where
a detour would close a cycle, and the launches of affected partitions are marked LINK_DEGRADED; a flow that has drained goes on; a
restored link gives its flows their dimension-order routes back. -/
def Sys2Proof.Claims.MeshLinks : Prop :=
  (∀ (s : State) (l : Link), adjacent l.src l.dst = true →
    (linkDown s.failed (l.src, l.dst) = false → exec (.linkFailure l) s = .next { s with failed := s.failed ++ [l] }) ∧
    (linkDown s.failed (l.src, l.dst) = true → exec (.linkFailure l) s = .next s)) ∧
  (∀ (s : State) (l : Link) (ds : List Detour), s.fw.booted = true → (∃ r ∈ s.fw.roles, r.code = 6) → l ∈ s.failed →
    detoursOk l ds s = true →
    ∃ u, exec (.linkReroute l ds) s = .next u ∧ SameBytes s u ∧ u.failed = s.failed ∧
      (∀ d ∈ ds, usesLink l d.flow = true ∧ d.flow.vn < 4 ∧ (∃ f ∈ u.flows, f.flow = d.flow ∧ f.draining = true ∧ f.upto = s.seq ∧
        if staysAcyclic ds d.flow.vn s then f.escape = false ∧ f.route = d.route else f.escape = true ∧ f.route = d.escape)) ∧
      (∀ p ∈ s.parts, (∃ c ∈ p.rcd.cores, ∃ d ∈ ds, d.flow.src = routerOf c s ∨ d.flow.dst = routerOf c s) →
        ∀ k ∈ u.launches, k.pid = p.rcd.pid → k.lid < 2 ^ 32 → k.degraded = true)) ∧
  (∀ (s : State) (f : Flow), (∃ x ∈ s.flows, x.flow = f ∧ x.draining = true) →
    (flowBusy f s = true → exec (.flowDrain f) s = .next s) ∧
    (flowBusy f s = false → ∃ u, exec (.flowDrain f) s = .next u ∧ (∀ x ∈ u.flows, x.flow = f → x.draining = false ∧ x.back = false) ∧
      (∀ x, x.flow ≠ f → (x ∈ u.flows ↔ x ∈ s.flows)) ∧ SameBytes s u)) ∧
  (∀ (s : State) (l : Link), s.fw.booted = true → l ∈ s.failed →
    ∃ u, exec (.linkRestore l) s = .next u ∧ SameBytes s u ∧ (∀ x, x ∈ u.failed ↔ x ∈ s.failed ∧ x ≠ l) ∧
      (∀ x ∈ s.flows, ((hopsOf (dorRoute x.flow.src x.flow.dst)).all fun h => !linkDown u.failed h) = true →
        { x with draining := true, back := true, upto := s.seq } ∈ u.flows))

/-- 19 R388; 22 R421: a retrain shows nothing but its delay; when the Gwerid link goes down every fault forwarded for a
thread set, a command, a queue or a port is answered as denied; when it returns the held interrupts are delivered in order; while it is down a dirty line that leaves an L1 and that no
slice can take is lost. -/
def Sys2Proof.Claims.GweridLink : Prop :=
  ∀ s : State, exec .gweridRetrain s = .next s ∧
    (s.gwerid = .up → ∃ u, exec .gweridDown s = .next u ∧ u.gwerid = .down ∧
      ∀ t ∈ s.tickets, (∀ p l, t.party ≠ .launch p l) → { t with denied := some true } ∈ u.tickets) ∧
    (s.gwerid = .down → exec .gweridDown s = .next s) ∧
    (s.gwerid = .down → exec .gweridLinkReturn s = .next { s with
      gwerid := .up, irqs := s.irqs ++ (s.parts.map fun p => p.irqHeld).flatten, parts := s.parts.map fun p => { p with irqHeld := [] } }) ∧
    (s.gwerid = .up → exec .gweridLinkReturn s = .next s) ∧
    -- a write-back that no slice can take is lost: the host's bytes stand, and the launch of the core that held the line ends
    (∀ (p : PartRec) (line c : Nat) (o : Nat × Nat) (l : Launch) (bytes : List Byte), s.gwerid = .down →
      isHostPa (line % 2 ^ 48 * 64) = true → l1Dirty line c s = true → l2Can p line s = false → s.l1soft = [] → Memory.wf s.mem = true →
      s.hostOld.find? (fun x => x.1 == line) = some (line, bytes) → bytes.length = 64 →
      (∀ q, partOf p.pid s = some q →
        q.rcd.faultq + 64 + 32 * 4096 ≤ line % 2 ^ 48 * 64 ∨ line % 2 ^ 48 * 64 + 64 ≤ q.rcd.faultq) →
      (getCore c s).owner = some o → launchOf o.1 o.2 s = some l → l.kill = none →
      memRead (l1WriteBack p line c s).mem 64 (line % 2 ^ 48 * 64) = bytes ∧
        ∃ x, launchOf o.1 o.2 (l1WriteBack p line c s) = some x ∧ x.kill = some 3)

namespace Sys2Proof.Claims

/-- Lane `n` of a die. -/
def laneAt (die n : Nat) (s : State) : Option Lane := nth? (vecGet s.optics die).lanes n

/-- A lane is lit (22 R423). -/
def lit (l : Lane) : Bool := l.st == 1 || l.st == 3

/-- Port `p` of a die. -/
def portAt (die p : Nat) (s : State) : OPort := vecGet (vecGet s.optics die).ports p

/-- The optical engine of a die changes in one of its ports only. -/
def PortBecomes (i : Instr) (die p : Nat) (x : OPort) (s : State) : Prop :=
  ∃ u, exec i s = .next u ∧ portAt die p u = x ∧ (∀ q, q < 4 → q ≠ p → portAt die q u = portAt die q s) ∧
    (vecGet u.optics die).lanes = (vecGet s.optics die).lanes ∧ SameBytes s u ∧ u.launches = s.launches

end Sys2Proof.Claims

/-! ## Optical lanes and link ports (22 R422 to R429; 23 R454) -/

/-- 22 R423 to R428; 25 R474: at a reallocation boundary lit lanes age, one that is too old is retired, a retired lane of the pool goes
dark, and a fabric frame begins with its grants; the division of lanes gives every port what it wants, or else all lanes, each
port between its minimum and its want; a lane that loses lock is retired and leaves its port's stripe; woken lanes join it once
they are confirmed.
It rests on choices of the model where the log says so: entry 22. -/
def Obligations.ElasticPool : Prop :=
  (∀ (s : State) (die : Nat), die < 8 →
    ∃ u, exec (.reallocation die) s = .next u ∧ SameBytes s u ∧
      (∀ n l, laneAt die n s = some l → ∃ x, laneAt die n u = some x ∧ x.age = l.age + (if lit l then 8 else 0) ∧
        x.ret = (l.ret || (lit l && decide (ageLimit s.fw.table < (l.age + 8) / 1000))) ∧
        (l.ret = true → l.st ≠ 0 → ¬ (l.port = 3 ∧ l.st ≠ 2) → x.st = 0)) ∧
      (∀ p, p < 4 → (portAt die p u).coming = [] ∧ (portAt die p u).requests = [] ∧
        (portAt die p u).grants = (portAt die p s).coming.map fun g => (g, none))) ∧
  (∀ (m0 m1 m2 w0 w1 w2 n : Nat), m0 ≤ w0 → m1 ≤ w1 → m2 ≤ w2 → m0 + m1 + m2 ≤ n →
    ∃ g0 g1 g2, grantLanes [m0, m1, m2] [w0, w1, w2] n = [g0, g1, g2] ∧ m0 ≤ g0 ∧ m1 ≤ g1 ∧ m2 ≤ g2 ∧ g0 ≤ w0 ∧ g1 ≤ w1 ∧ g2 ≤ w2 ∧
      (w0 + w1 + w2 ≤ n → g0 = w0 ∧ g1 = w1 ∧ g2 = w2) ∧ (n < w0 + w1 + w2 → g0 + g1 + g2 = n)) ∧
  (∀ (s : State) (die n : Nat) (l : Lane), die < 8 → laneAt die n s = some l →
    ∃ u x, exec (.laneLockLoss die n) s = .next u ∧ laneAt die n u = some x ∧ x.ret = true ∧ SameBytes s u ∧
      (∀ k, k ≠ n → laneAt die k u = laneAt die k s) ∧
      (l.st = 1 → l.port < 3 → x.st = 2 ∧ (portAt die l.port u).width = (portAt die l.port s).width - 1) ∧
      (l.st = 2 → x.st = 2 ∧ ∀ p, p < 4 → portAt die p u = portAt die p s)) ∧
  (∀ (s : State) (die port : Nat), die < 8 → port < 3 →
    ∃ u, exec (.widthConfirmation die port) s = .next u ∧ SameBytes s u ∧
      (∀ n l, laneAt die n s = some l →
        laneAt die n u = some (if l.port = port ∧ l.st = 3 ∧ l.ret = false then { l with st := 1 } else l)) ∧
      (portAt die port u).width =
        Nat.min 16 ((vecGet u.optics die).lanes.filter fun l => l.port == port && l.st == 1).length)

/-- 22 R428, R429; 23 R454: a port in fabric mode asks for slots for each destination, and takes grants that answer its requests; an
acknowledged burst is charged to its launch and counts for its command, which ends after the last one, or after the peer has written FLAG; a refused one is sent again, and the eighth refusal ends
the command with LINK_FAIL; a burst that arrives intact is written through the paired partition's tables.
It rests on choices of the model where the log says so: entries 50 and 67. -/
def Obligations.LinkPortTraffic : Prop :=
  ∀ (s : State) (die port : Nat), die < 8 → port < 3 →
    let p := portAt die port s
    (∀ slots : List Nat, p.cfgMode = 2 → slots.length = (destinations die port s).length →
      ((∀ n ∈ slots, 1 ≤ n ∧ n ≤ 32) → PortBecomes (.fabricRequest die port slots) die port
        { p with requests := ((destinations die port s).zip slots).map fun x => (x.1.1, x.1.2, x.2) } s) ∧
      ((∃ n ∈ slots, n = 0 ∨ 32 < n) → exec (.fabricRequest die port slots) s = .next s)) ∧
    (∀ gs, p.cfgMode = 2 →
      (grantsOk p gs = true → PortBecomes (.fabricGrant die port gs) die port { p with coming := gs, requests := [] } s) ∧
      (grantsOk p gs = false → exec (.fabricGrant die port gs) s = .next s)) ∧
    (∀ n b, burstAt die port n s = some b →
      (burstCmd die b s = none → ∃ u, exec (.burstReceive die port (.acked n)) s = .next u ∧ SameBytes s u ∧
        (portAt die port u).bursts = dropNth p.bursts n ∧
        ∀ o l, b.payer = some o → launchOf o.1 o.2 s = some l → ∃ x, launchOf o.1 o.2 u = some x ∧
          x = { l with charged := x.charged } ∧ vecGet x.charged 2 = vecGet l.charged 2 + (b.bytes + 63) / 64) ∧
      (∀ m k before, burstCmd die b s = some m → cmdAt b.core 3 k s = some (before, m) →
        (b.bytes ≠ 0 → b.refusals < 7 → PortBecomes (.burstReceive die port (.refused n)) die port
          { p with bursts := modNth (fun x => { x with refusals := b.refusals + 1, sent := false }) p.bursts n } s) ∧
        (b.bytes ≠ 0 → b.refusals = 7 → Leaves (.burstReceive die port (.refused n)) b.core 3 k s s fun y =>
          y.fin = some (m.completion 0x52 m.units)) ∧
        (∀ code detail addr, Leaves (.burstReceive die port (.peerFault n code detail addr)) b.core 3 k s s fun y =>
          y.fin = some { m.completion 0x20 m.units with faddr := addr, fcode := code, fdetail := detail }) ∧
        (let got := nth 0 m.aux 0 + b.bytes
         let n64 := m.units + (b.bytes + 63) / 64
         let total := blkAt (leValue m.blk) 16 4
         let flag := blkAt (leValue m.blk) 24 8
         (got = total → flag = 0 ∨ b.bytes = 0 → Leaves (.burstReceive die port (.acked n)) b.core 3 k s s fun y =>
           ∃ x, y.fin = some x ∧ x.status = 0 ∧ x.units = n64) ∧
         (got = total → flag ≠ 0 → b.bytes ≠ 0 → ∃ u, exec (.burstReceive die port (.acked n)) s = .next u ∧ SameBytes s u ∧
           (∃ rest y, cmdAt b.core 3 k u = some (rest, y) ∧ y.fin = none ∧ y.units = n64 ∧ nth 0 y.aux 0 = got) ∧
           (portAt die port u).bursts = dropNth p.bursts n ++ [{ b with bytes := 0, refusals := 0, sent := true }]) ∧
         (got ≠ total → Leaves (.burstReceive die port (.acked n)) b.core 3 k s s fun y =>
           y.fin = none ∧ y.units = n64 ∧ nth 0 y.aux 0 = got)))) ∧
    (∀ pid q r, partOf pid s = some q → r ∈ q.rcd.pairs → r.die = die → r.port = port → Memory.wf s.mem = true → s.gwerid = .up →
      (∀ t ∈ s.tickets, t.party ≠ .port die port) → ∀ va t key e pa,
      (∀ data, va % 32 = 0 → data.length = 32 → va + 32 ≤ 2 ^ 53 → placeVa pid va .store .forbid s = .ok t key e pa →
        storeLost key 32 t = false → ∃ u, exec (.burstReceive die port (.arrived pid va data true)) s = .next u ∧ Stored key data s u) ∧
      (∀ x : Word, va % 8 = 0 → va + 8 ≤ 2 ^ 53 → placeVa pid va .store .forbid s = .ok t key e pa → storeLost key 8 t = false →
        ∃ u, exec (.burstReceive die port (.arrivedFlag pid va x)) s = .next u ∧ Stored key (leBytes 8 x.toNat) s u)) ∧
    (∀ pid va data, exec (.burstReceive die port (.arrived pid va data false)) s = .next s)

namespace Sys2Proof.Claims

/-- The sum port of a die. -/
def sumAt (die : Nat) (s : State) : SumPort := (vecGet s.optics die).sum

/-- What element `i` of an integer sum adds up to: this port's element and those of the other writers (23 R436, R448). -/
def elementSum (m : Cmd) (obs : BusObs) (i : Nat) : Int :=
  signedOf (8 * m.srcBytes) (nth 0 m.acc i) + sumInt (obs.writers.map fun w => nth 0 w.elems i)

/-- A signed value clamped to 32 bits (23 R448). -/
def clamp32 (x : Int) : Int := max (-2 ^ 31) (min x (2 ^ 31 - 1))

/-- The next frame of a sum port carries a whole operation of a group of one level: every member is present, all are within the writer
limit, and the elements fit in one block of planes `w` wide (23 R434, R435, R442). -/
def WholeFrame (die k c : Nat) (g : Group) (m : Cmd) (obs : BusObs) (s : State) : Prop :=
  let p := sumAt die s
  p.frame % 64 ≠ 63 ∧ nth? p.groups (p.slotK % (p.grpmax + 1)) = some g ∧ p.wmax ≠ 0 ∧ p.level = 1 ∧
    p.pidx < 16 ∧ 1 ≤ p.lambda ∧ (∀ d, d < 8 → (sumAt d s).level ≠ 0) ∧ g.rcd.levels = 1 ∧ p.opOf g.rcd.grp g.nextSeq = none ∧
    readyCmd die g s = some (c, m) ∧ (∃ before, cmdAt c 2 k s = some (before, m)) ∧
    m.acc.length = m.elems ∧ m.carried ≤ m.blockLen 1 p ∧ obs.noise = [] ∧ obs.nak = 0 ∧
    obs.writers.length + 1 = g.rcd.nreg ∧ g.rcd.nreg ≤ p.wmax ∧ (obs.writers.map fun x => x.pidx).Nodup ∧
    ∀ x ∈ obs.writers, x.pidx < 16 ∧ x.pidx ≠ p.pidx ∧ x.elems.length = m.carried

/-- Every other writer sends signed values of `w` bits. -/
def SendSigned (w : Nat) (obs : BusObs) : Prop := ∀ x ∈ obs.writers, ∀ v ∈ x.elems, -2 ^ (w - 1) ≤ v ∧ v < 2 ^ (w - 1)

/-- See `WholeFrame`: a whole integer sum. -/
def WholeSum (die k c : Nat) (g : Group) (m : Cmd) (obs : BusObs) (s : State) : Prop :=
  WholeFrame die k c g m obs s ∧ m.opc = 0x20 ∧ m.dfmt ≤ 1 ∧ SendSigned (8 * m.srcBytes) obs

/-- The biased exponent of an element (23 R438). -/
def exponentOf (f : FFmt) (x : Nat) : Nat :=
  match fdecode f x with
  | .nan _ => 2047
  | .inf _ => 2047
  | .fin _ m e => if m = 0 then 0 else (max 1 (e + (Nat.log2 m : Int) + 1023)).toNat

/-- What a writer of OSUMB sends for an element under a block exponent, in `n` planes: its value scaled, rounded by the command's mode and
clamped (23 R438). -/
def scaledElement (m : Cmd) (n e i : Nat) : Int :=
  match fdecode m.srcFmt (nth 0 m.acc i) with
  | .nan _ => 0
  | .inf _ => 0
  | .fin neg k q =>
    if e = 0 ∨ e = 2047 then 0
    else
      let r : Int := ((roundAt m.rm neg k (q + n - 2 - ((e : Int) - 1023)) 0 (if m.rm = .sr then cmdDraw m i else 0)).1 : Nat)
      max (-2 ^ (n - 1)) (min (if neg then -r else r) (2 ^ (n - 1) - 1))

/-- The result of OSUMB for a sum under a block exponent of `n` planes, rounded to nearest even (23 R438, R449). -/
def scaledResult (f : FFmt) (n e : Nat) (x : Int) : Nat :=
  if e = 2047 then f.canonNaN
  else if e = 0 then 0
  else (roundFloat f .rne (decide (x < 0)) x.natAbs ((e : Int) - 1023 - n + 2) 0).1

/-- A frame gives command `k` its results: the bytes `r i` for each element, and `total` more in PTOTAL. -/
def FrameGives (die k c : Nat) (m : Cmd) (obs : BusObs) (r : Nat → Nat) (total : Int) (s : State) : Prop :=
  Leaves (.segmentFrame die obs) c 2 k s s fun y =>
    y.out = m.out ++ genList m.elems (fun i => (w64 (blkAt (leValue m.blk) 8 8 + i * m.dstBytes), leBytes m.dstBytes (r i))) ∧
    nth 0 y.aux 1 = nth 0 m.aux 1 + wrapOf 32 total

end Sys2Proof.Claims

/-! ## The counting bus (23 R432 to R448) -/

/-- 23 R432 to R436, R440, R448: a frame that carries a whole integer sum gives its command the sum of every element, clamped for a 32-bit
result, and the count; other frames move the slot on; the straggle wait of an operation expires; a calibration frame takes the levels,
D and the writer limit that were measured, and a port that does not hold calibration leaves service. -/
def Sys2Proof.Claims.CountingBus : Prop :=
  (∀ (s : State) (die k c : Nat) (g : Group) (m : Cmd) (obs : BusObs), die < 8 → WholeSum die k c g m obs s →
    FrameGives die k c m obs
      (fun i => wrapOf (8 * m.dstBytes) (if m.dfmt = 0 then clamp32 (elementSum m obs i) else elementSum m obs i))
      (1 + sumInt (obs.writers.map fun w => nth 0 w.elems m.elems)) s) ∧
  (∀ (s : State) (die : Nat) (obs : BusObs), die < 8 →
    let p := sumAt die s
    (p.frame % 64 = 63 → exec (.segmentFrame die obs) s = .next s) ∧
    (p.frame % 64 ≠ 63 → ∃ u, exec (.segmentFrame die obs) s = .next u ∧ SameBytes s u ∧ (sumAt die u).frame = p.frame + 1 ∧
      (sumAt die u).slotK = p.slotK + 1)) ∧
  (∀ (s : State) (die grp : Nat) (g : Group) (o : BusOp), die < 8 →
    let p := sumAt die s
    p.groups.find? (fun g => g.rcd.grp == grp) = some g → p.opOf grp g.nextSeq = some o →
    (o.mask = none → g.rcd.stw ≤ o.waits → ∃ u, exec (.straggleExpiry die grp) s = .next u ∧
      (sumAt die u).opOf grp g.nextSeq = some { o with expired := true } ∧ SameBytes s u) ∧
    (o.mask ≠ none ∨ o.waits < g.rcd.stw → exec (.straggleExpiry die grp) s = .next s)) ∧
  (∀ (s : State) (die : Nat) (cal : CalIn), die < 8 → (sumAt die s).frame % 64 = 63 →
    let p := sumAt die s
    ∃ u, exec (.calibrationFrame die cal) s = .next u ∧ (sumAt die u).frame = p.frame + 1 ∧ (sumAt die u).proposal = none ∧
      (1 ≤ cal.ddly → cal.ddly ≤ 255 → (sumAt die u).ddly = cal.ddly) ∧
      (cal.held = false → (sumAt die u).wmax = 0) ∧
      (cal.held = true → (sumAt die u).wmax ≤ cal.wmax ∧ (sumAt die u).wmax ≤ 15 ∧ (∀ x ∈ cal.proposals, (sumAt die u).wmax ≤ x) ∧
        (p.proposal = none → cal.proposals = [] → cal.wmax ≤ 15 → cal.wmax ≤ p.cap → (sumAt die u).wmax = cal.wmax)) ∧
      ((sumAt die u).wmax < p.wmax → (sumAt die u).lowered = (p.lowered + 1) % 2 ^ 16) ∧
      (p.wmax ≤ (sumAt die u).wmax → (sumAt die u).lowered = p.lowered) ∧
      (∀ n l, laneAt die n s = some l → l.ret = true → l.st ≠ 0 → l.port = 3 → l.st ≠ 2 → ∃ x, laneAt die n u = some x ∧ x.st = 0))

/-- 23 R436, R438, R439, R449 to R451: a frame that carries a whole operation gives its command, for OSUMB, the sum of the writers' scaled
elements under the largest of their exponents, rounded to DFMT; for OMAX the greatest key of each element; for OBCAST the sum of what
the roots send, modulo the source width; and the count of the writers, but for OMAX. -/
def Sys2Proof.Claims.SumResults : Prop :=
  ∀ (s : State) (die k c : Nat) (g : Group) (m : Cmd) (obs : BusObs), die < 8 → WholeFrame die k c g m obs s →
    let others (i : Nat) : List Int := obs.writers.map fun w => nth 0 w.elems i
    let count : Int := 1 + sumInt (others m.elems)
    let w := 8 * m.srcBytes
    (m.opc = 0x21 → 2 ≤ m.npl → m.dfmt ≤ 1 → SendSigned m.npl obs → (∀ x ∈ obs.writers, x.eb ≤ 2047) →
      let e := (obs.writers.map fun x => x.eb).foldl max ((m.acc.map (exponentOf m.srcFmt)).foldl max 0)
      FrameGives die k c m obs (fun i =>
        scaledResult (if m.dfmt = 0 then .f32 else .f64) m.npl e (scaledElement m m.npl e i + sumInt (others i))) count s) ∧
    (m.opc = 0x22 → (∀ x ∈ m.acc, x < 2 ^ w) → (∀ x ∈ obs.writers, ∀ v ∈ x.elems, 0 ≤ v ∧ v < 2 ^ w) →
      FrameGives die k c m obs (fun i => ((others i).map Int.toNat).foldl max (nth 0 m.acc i)) 0 s) ∧
    (m.opc = 0x23 → SendSigned w obs →
      FrameGives die k c m obs (fun i => wrapOf w ((if m.root then signedOf w (nth 0 m.acc i) else 0) + sumInt (others i))) count s)

/-- The statements CountingBus and SumResults together.
It rests on choices of the model where the log says so: entries 51 and 58. -/
def Obligations.CountingBusFrames : Prop :=
  Sys2Proof.Claims.CountingBus ∧ Sys2Proof.Claims.SumResults

/-- The statements MeshLinks and GweridLink together.
It rests on choices of the model where the log says so: entries 45, 49 and 58. -/
def Obligations.LinksFailAndReturn : Prop :=
  Sys2Proof.Claims.MeshLinks ∧ Sys2Proof.Claims.GweridLink

namespace Sys2Proof.Claims

/-- What the boot ROM checks (25 R464, R465): the table, enough good columns, sound cores for every role, the image and its SVN. -/
def boots (t img : List Byte) (bad : Bool) (failed : List Nat) : Bool :=
  tableOk t && (columnMap t (failedCols t failed)).isSome && ((usedRoles t).all fun i => !failed.contains (tableRole t i).2.1) && !bad &&
    signedBy Config.publicKey (Config.imageCovered img) (Config.imageSig img) && decide (tableField t 4 4 ≤ Config.imageSvn img)

/-- Firmware runs an image under a table (25 R464 step 5): the roles of ROLEMAP on their cores, spare cores standing by, the columns
mapped, the clock profile set. -/
def RunsFirmware (t img : List Byte) (failed : List Nat) (u : State) : Prop :=
  u.fw.booted = true ∧ u.fw.recovery = false ∧ u.fw.table = t ∧ u.fw.image = img ∧ columnMap t (failedCols t failed) = some u.fw.colMap ∧
    u.fw.profile = tableField t 13 1 ∧
    (∀ i ∈ usedRoles t, ∃ r ∈ u.fw.roles, r.idx = i ∧ r.code = (tableRole t i).1 ∧
      r.core = 2048 + (tableRole t i).2.1) ∧
    (∀ i ∈ usedRoles t, (tableRole t i).1 = 8 → 2048 + (tableRole t i).2.1 ∈ u.fw.standby)

/-- The boot ROM either runs an image under a table, or waits in recovery, for a table where that is what failed (25 R464, R465, R470). -/
def BootOutcome (i : Instr) (t img : List Byte) (bad : Bool) (failed : List Nat) (s : State) : Prop :=
  ∃ u, exec i s = .next u ∧ u.fw.booted = boots t img bad failed ∧ (u.fw.booted = true → RunsFirmware t img failed u) ∧
    (u.fw.booted = false → u.fw.recovery = true ∧ (tableOk t = false → u.fw.waitTable = true))

/-- The device memory has nothing in it, and host memory is as before. -/
def PoweredOn (s u : State) : Prop :=
  (∀ k, isHostPa k = true → memGet u.mem k = memGet s.mem k) ∧ (∀ k, isHostPa k = false → k < 2 ^ 48 → memGet u.mem k = 0) ∧
    u.parts = [] ∧ u.launches = [] ∧ u.queues = [] ∧ u.pend = [] ∧ u.tickets = []

/-- Firmware changes, and nothing but firmware. -/
def FirmwareBecomes (i : Instr) (s : State) (f : Firmware) : Prop := exec i s = .next { s with fw := f }

/-- Role `r` runs on core `c`, on thread set 0, at F (25 R466). -/
def RoleOn (r : Role) (c : Nat) (img : List Byte) (u : State) : Prop :=
  (∃ x ∈ u.fw.roles, x.idx = r.idx ∧ x.core = c) ∧ (getTs c 0 u).run = .ready ∧
    (getTs c 0 u).pc = BitVec.ofNat 20 (Config.imageEntry img / 4 * 4) ∧ (getTs c 0 u).status = 1 ∧
    (getCore c u).role = BitVec.ofNat 64 (r.code + r.idx * 256)

/-- Role `r` is the role with its index. -/
def SoundRole (r : Role) (s : State) : Prop := r ∈ s.fw.roles ∧ s.fw.roles.find? (fun x => x.idx == r.idx) = some r

end Sys2Proof.Claims

/-! ## Firmware (chapter 25) -/

/-- 25 R464, R465, R470: power-on clears the device and runs the boot ROM, which runs firmware from flash, or waits in recovery; there a
table and an image from the host are verified in the same way. (The keys and the layout of an image are constants without a value, log
entry 9; host memory keeps its content by log entry 5.) -/
def Sys2Proof.Claims.Boot : Prop :=
  (∀ (s : State) (failed : List Nat), Memory.wf s.mem = true → BootOutcome (.boot failed) s.fw.flashTable s.fw.flash s.fw.flashBad failed s ∧
    ∃ u, exec (.boot failed) s = .next u ∧ PoweredOn s u) ∧
  (∀ (s : State) (t : List Byte), s.fw.recovery = true → s.fw.booted = false → s.gwerid = .up →
    (s.fw.fromHost = true → BootOutcome (.hostConfigurationTable t) t s.fw.incoming false s.fw.failed s) ∧
    (s.fw.fromHost = false → BootOutcome (.hostConfigurationTable t) t s.fw.flash s.fw.flashBad s.fw.failed s)) ∧
  (∀ (s : State) (img : List Byte), s.fw.recovery = true → s.fw.booted = false → s.gwerid = .up →
    (s.fw.waitTable = true → FirmwareBecomes (.recoveryImage img) s { s.fw with incoming := img, fromHost := true }) ∧
    (s.fw.waitTable = false → BootOutcome (.recoveryImage img) s.fw.table img false s.fw.failed s)) ∧
  (∀ (s : State) (x : List Byte), s.fw.recovery = false → exec (.hostConfigurationTable x) s = .next s ∧
    exec (.recoveryImage x) s = .next s)

/-- 25 R467 to R470: a new image of a running system is verified and takes the roles one at a time, each on a standby core, whose old
core becomes standby; before the commit point an abort, or an unrecovered machine error at F, discards it; after it, or for a recovery image, it can be written to
flash. -/
def Sys2Proof.Claims.HandOver : Prop :=
  ∀ s : State, s.fw.booted = true →
    (∀ img, s.fw.phase = .none → s.gwerid = .up → ∃ u, exec (.imageHandover img) s = .next u ∧
      u = { s with fw := u.fw } ∧
      if signedBy Config.publicKey (Config.imageCovered img) (Config.imageSig img) = true ∧
          tableField s.fw.table 4 4 ≤ Config.imageSvn img ∧ Config.imageSvn s.fw.image ≤ Config.imageSvn img ∧ s.fw.erred = []
      then u.fw = { s.fw with phase := .loading, incoming := img } else u.fw = s.fw) ∧
    (∀ img, s.fw.phase = .loading → s.fw.erred = [] → ∃ u, exec (.imageHandover img) s = .next u ∧
      u.fw = { s.fw with phase := .passing, passed := [] } ∧ u.launches = s.launches) ∧
    (∀ img, s.fw.phase = .loading ∨ s.fw.phase = .passing → s.fw.erred ≠ [] → ∃ u, exec (.imageHandover img) s = .next u ∧
      u.fw.phase = .none ∧ u.fw.incoming = [] ∧ u.fw.passed = [] ∧ u.fw.image = s.fw.image) ∧
    (∀ img r c cs, s.fw.phase = .passing → s.fw.erred = [] →
      s.fw.roles.find? (fun r => r.code != 8 && !(s.fw.passed.any fun x => x.1 == r.idx)) = some r →
      s.fw.standby = c :: cs → c ≠ r.core → s.tid < 7 → ∃ u, exec (.imageHandover img) s = .next u ∧ RoleOn r c s.fw.incoming u ∧
        u.fw.standby = cs ++ [r.core] ∧ u.fw.passed = s.fw.passed ++ [(r.idx, r.core)] ∧ (getTs r.core 0 u).run = .ended ∧
        u.fw.phase = .passing) ∧
    (∀ img, s.fw.phase = .passing → s.fw.erred = [] → s.fw.roles.find? (fun r => r.code != 8 && !(s.fw.passed.any fun x => x.1 == r.idx)) = none →
      FirmwareBecomes (.imageHandover img) s
        { s.fw with phase := .committed, image := s.fw.incoming, incoming := [], passed := [], fromHost := false }) ∧
    (s.fw.phase = .loading ∨ s.fw.phase = .passing → ∃ u, exec .handoverAbort s = .next u ∧ u.fw.phase = .none ∧ u.fw.incoming = [] ∧
      u.fw.passed = [] ∧ u.fw.image = s.fw.image ∧
      ∀ r old, s.fw.passed = [(r.idx, old)] → SoundRole r s → r.code ≠ 8 → old ≠ r.core → s.tid < 7 → RoleOn r old s.fw.image u) ∧
    (s.fw.phase = .none ∨ s.fw.phase = .committed → exec .handoverAbort s = .next s) ∧
    (∀ b, s.fw.phase = .committed ∨ (s.fw.fromHost = true ∧ s.fw.phase = .none) → FirmwareBecomes (.flashWrite b) s
      { s.fw with flash := s.fw.image, flashBad := b, phase := .none, fromHost := false })

/-- 25 R465, R467, R468: a front-end or admission role struck by a machine error, or whose core fails, moves to its mirror, or to the standby
core that mirrors it, and where that is struck too the partitions that it served halt, with HALTED queues that show no error; any other
role restarts on its core, or on a standby core where that has failed, and a failed standby core stands by no more; a failed column
gives way to a spare, or is lost. -/
def Sys2Proof.Claims.RolesAndColumns : Prop :=
  (∀ (s : State) (r : Role), SoundRole r s → r.core ∈ s.fw.erred → s.fw.phase = .none → s.tid < 7 → 2048 ≤ r.core →
    let i := Instr.roleRecovery r.idx
    let lost := r.core - 2048 ∈ s.fw.failed
    (r.code ≤ 2 → ∀ m, s.fw.roles.find? (fun x => x.idx == r.mirror) = some m →
      (m.core ∉ s.fw.erred → m.core ≠ r.core → m.code ≠ 8 → ∃ u, exec i s = .next u ∧ SameBytes s u ∧
        ∃ x ∈ u.fw.roles, x.idx = r.idx ∧ x.code = r.code ∧ x.core = m.core) ∧
      (m.core ∉ s.fw.erred → m.core ≠ r.core → m.code = 8 → ∃ u, exec i s = .next u ∧ RoleOn r m.core s.fw.image u ∧
        m.core ∉ u.fw.standby) ∧
      (m.core ∈ s.fw.erred → s.launches = [] → ∀ p ∈ s.parts, Config.roleServes r.idx p.rcd.pid = true → ∃ u, exec i s = .next u ∧
        (∃ x ∈ u.parts, x.rcd = p.rcd ∧ x.halted = true) ∧
        (∀ q ∈ u.queues, q.pid = p.rcd.pid → q.q < 64 → q.st = .halted) ∧
        ((∀ x ∈ s.parts, Config.roleServes r.idx x.rcd.pid = true → x = p) → Memory.wf s.mem = true → ∀ q, q < 64 →
          descField p.rcd q 9 1 u = 3 ∧ descField p.rcd q 10 1 u = 0))) ∧
    (2 < r.code → ¬ lost → ∃ u, exec i s = .next u ∧ RoleOn r r.core s.fw.image u ∧ r.core ∉ u.fw.erred) ∧
    (2 < r.code → r.code ≠ 8 → lost → ∀ c cs, standbyCores s = c :: cs → c ≠ r.core → 2048 ≤ c → ∃ u, exec i s = .next u ∧
      RoleOn r c s.fw.image u ∧ c ∉ u.fw.standby ∧ r.core - 2048 ∈ u.fw.failed) ∧
    (r.code = 8 → lost → ∃ u, exec i s = .next u ∧ r.core ∉ u.fw.standby)) ∧
  (∀ (s : State) (r : Role), SoundRole r s → r.core ∉ s.fw.erred → exec (.roleRecovery r.idx) s = .next s) ∧
  (∀ (s : State) (c : Nat), s.fw.booted = true → 2048 ≤ c → (c - 2048) % 68 ∈ fwCols s.fw.table → s.tid < 7 →
    ∃ u, exec (.columnRemap c) s = .next u ∧ c ∈ u.fw.erred ∧ c - 2048 ∈ u.fw.failed ∧ u.fw.roles = s.fw.roles ∧ SameBytes s u ∧
      ∀ t, t < 7 → (getTs c t u).run ≠ .ready ∧ (getTs c t u).run ≠ .waiting) ∧
  (∀ (s : State) (pcol : Nat), s.fw.booted = true → pcol < 68 → pcol ∈ s.fw.colMap →
    (quiesced s = false → exec (.columnRemap pcol) s = .next s) ∧
    (quiesced s = true → s.fw.colMap.idxOf pcol ∉ s.fw.lostCols →
      (∀ m, columnMap s.fw.table (failedCols s.fw.table (s.fw.failed ++ [pcol])) = some m →
        ∃ u, exec (.columnRemap pcol) s = .next u ∧ u.fw.colMap = m ∧ u.fw.failed = s.fw.failed ++ [pcol] ∧
          u.parts.length = s.parts.length) ∧
      (columnMap s.fw.table (failedCols s.fw.table (s.fw.failed ++ [pcol])) = none →
        ∃ u, exec (.columnRemap pcol) s = .next u ∧ u.fw.lostCols = s.fw.lostCols ++ [s.fw.colMap.idxOf pcol] ∧
          ∀ p ∈ u.parts, ∀ c ∈ p.rcd.cores, c % 64 ≠ s.fw.colMap.idxOf pcol)))

/-- 19 R374; 25 R471 to R473: a report carries phase, SVN, the measurements, the nonce and the time, with its signature; a profile change
waits for a quiesce point, and a slower one lowers every capacity; a temperature above TWARN asks for a slower profile, and one
above TTRIP stops the die until it has cooled, evicts the launches that hold its cores and takes its positions back; telemetry reads the
correction counters of its cores. -/
def Sys2Proof.Claims.AttestationAndThermal : Prop :=
  (∀ (s : State) (nonce : Word), s.fw.booted = true → (∃ r ∈ s.fw.roles, r.code = 7) → s.gwerid = .up →
    let phase (p : HandPhase) : Nat := match p with
      | .none => 0 | .loading => 1 | .passing => 2 | .committed => 3
    let body := leBytes 4 (phase s.fw.phase) ++ leBytes 4 (Config.imageSvn s.fw.image) ++ sha256 s.fw.image ++
      (if s.fw.phase = .loading ∨ s.fw.phase = .passing then sha256 s.fw.incoming else leBytes 32 0) ++
      sha256 (s.fw.table.take 384) ++ leBytes 8 nonce.toNat ++ leBytes 8 s.time ++ leBytes 8 0
    let sig := signWith Config.attestKey (Config.attestNonce body) body
    FirmwareBecomes (.attestationRequest nonce) s { s.fw with report := body ++ sig } ∧ (body ++ sig).length = 192) ∧
  (∀ (s : State) (p : BitVec 2), s.fw.booted = true →
    (quiesced s = true → s.fw.wantProfile = none → ∃ u, exec (.profileChange p) s = .next u ∧ u.fw.profile = p.toNat ∧
      ∀ x ∈ u.parts, s.fw.profile < p.toNat → x.capFell = true) ∧
    (quiesced s = false → exec (.profileChange p) s = .next s) ∧
    (∀ q, s.fw.wantProfile = some q → p.toNat < q → exec (.profileChange p) s = .next s)) ∧
  (∀ (s : State) (die temp : Nat), s.fw.booted = true → die < s.fw.temps.length →
    let warn := tableField s.fw.table 356 1
    let trip := tableField s.fw.table 357 1
    ∃ u, exec (.temperatureReport die temp) s = .next u ∧ nth 0 u.fw.temps die = temp ∧
      (warn < temp → u.fw.wantProfile = some (Nat.min 2 (s.fw.profile + 1))) ∧
      (temp ≤ warn → u.fw.wantProfile = s.fw.wantProfile) ∧
      (trip < temp → die ∉ s.fw.tripped → die ∈ u.fw.tripped ∧
        (∀ l ∈ s.launches, l.st ≠ .placed → holdsDie die l s = true → ∀ k ∈ u.launches, k.pid = l.pid → k.lid = l.lid → k.kill ≠ none) ∧
        (∀ l ∈ s.launches, l.st = .placed → (∃ c ∈ l.cores, dieOf c s = die) →
          ∀ k ∈ u.launches, k.pid = l.pid → k.lid = l.lid → k.st = .admitted)) ∧
      ((∃ r ∈ s.fw.roles, r.code = 4) → dieOf s.here s = die → ∃ x ∈ u.fw.counts, x.1 = s.here ∧ x.2 = s.core.corr) ∧
      (temp < warn → temp ≤ trip → die ∉ u.fw.tripped) ∧
      (warn ≤ temp → temp ≤ trip → u.fw.tripped = s.fw.tripped))

/-- The statements Boot and HandOver together.
It rests on choices of the model where the log says so: entries 5, 9 and 52. -/
def Obligations.BootAndHandOver : Prop :=
  Sys2Proof.Claims.Boot ∧ Sys2Proof.Claims.HandOver

/-- The statements RolesAndColumns and AttestationAndThermal together.
It rests on choices of the model where the log says so: entries 9, 53, 54 and 55. -/
def Obligations.RolesProfilesAndAttestation : Prop :=
  Sys2Proof.Claims.RolesAndColumns ∧ Sys2Proof.Claims.AttestationAndThermal

/-! ## Encodings, reset and the step (00 R8; 01 R18 to R28; 02 R36 to R64) -/

/-- 02 R36 to R61: the words of a well-formed instruction, with whatever follows them, decode to that instruction and leave what
follows; every term has words but the device's own steps and the two rows that are a load or a store of a device register. -/
def Obligations.EncodedInstructionsDecode : Prop :=
  (∀ (i : Instr) (rest : List Byte), i.wf = true → encode i ≠ [] →
    decode (wordBytes (encode i) ++ rest) = .ok (coreWord i, rest)) ∧
  (∀ i : Instr, encode i = [] ↔
    i.isEvent = true ∨ (∃ d die, i = .sumstatRead d die) ∨ ∃ line a, i = .eventConfigStore line a)

/-- 02 R40, R63: decoding is a function of the word and its literal alone, and no bit of an accepted word is ignored: a word that
decodes to an instruction, with its literal where it calls for one, is exactly the words of that instruction, which is
well-formed. Every other value of a must-be-zero field is no instruction. -/
def Obligations.DecodedWordsEncode : Prop :=
  ∀ (w x : W32) (i : Instr), decodeWord w x = some i →
    i.wf = true ∧ encode i = w :: (if needsLit w.toNat then [x] else [])

/-- 02 R62: words written out from the format tables decode to the instructions they stand for. -/
def Obligations.WorkedWordsDecode : Prop :=
  decodeTableWord 32 0xFFF61182 = some (.addi 3 1 0x7FFB) ∧
  decodeTableWord 64 0x3FC00000B8806290 = some (.fmul .s .dyn 5 6 (.lit 0x3FC00000)) ∧
  decodeTableWord 32 0xFFD01098 = some (.bne 4 0 0xFFD) ∧
  decodeTableWord 32 0x010423A0 = some (.ld .w 7 2 16) ∧
  decodeTableWord 32 0xA10620B0 = some (.amoaddAuto .rel true 4 1 2 3) ∧
  decodeTableWord 32 0x0000901A = some (.jalr 0 9 0)

namespace Sys2Proof.Claims

/-- The state in which the next step calls upon the focused core: of thread set `t`, where the agenda names one (log entries 2 and 3
for the agenda and the time that passes). -/
def CalledIn (s x : State) (t : Option Nat) : Prop :=
  (s.agenda = [] ∧ t = none ∧ x = passTime s) ∨
  (∃ c n rest, s.agenda = .issue c n :: rest ∧ t = some n ∧ x = focusOn c n (passTime { s with agenda := rest }))

/-- The state in which the next step issues: 08 R171 selects the thread set, of those that are READY, and it is the one called upon;
or it is looked at because its instruction has not retired, and cannot go on (log entry 61). -/
def IssuesIn (s u : State) : Prop :=
  ∃ x t, CalledIn s x t ∧ let rd := readySets x
    (∃ n, pick rd x = some n ∧ (t = none ∨ t = some n) ∧ u = switchTo rd n x) ∨
    (t = none ∧ pick rd x = none ∧ firstPerformable (rested x) = none ∧ ∃ n, pickBlocked (rested x) = some n ∧
      u = lookAt n (rested x)) ∨
    (∃ n, t = some n ∧ pick rd x ≠ some n ∧ isBlocked n x = true ∧ n ∉ rd ∧ u = lookAt n x)

/-- The thread set in focus has a task that may go on. -/
def MayIssue (s : State) : Prop :=
  (s.ts.run = .ready ∨ s.ts.run = .stalled ∨ s.ts.run = .waiting) ∧ issueStopped s = false

/-- The word at an offset from the pc of the thread set in focus: every store that it has retired has taken effect (01 R28). -/
def pcWord (off : Nat) (s : State) : W32 := codeWord s.here s.tid (myPid s, myLid s) (pcOff s.ts + off) s

/-- The eight bytes at the pc of the thread set in focus. -/
def pcBytes (s : State) : List Byte := leBytes 4 (pcWord 0 s).toNat ++ leBytes 4 (pcWord 4 s).toNat

/-- The fetch buffer allows no old form of an instruction (01 R28), and no single-bit error of its words is to be corrected (01 R24). -/
def CleanFetch (s : State) : Prop :=
  s.ts.fbuf = [] ∧ (∀ w ∈ s.soft, wordMeets (pcKey 0 s) 8 w = false) ∧ (∀ x ∈ s.l1soft, wordMeets (pcKey 0 s) 8 x.2 = false) ∧
    ∀ x ∈ s.l2, x.soft = []

/-- The instruction runs in `u`, in which a penumbra context that issues has been charged a cycle of class C (20 R399). -/
def RunsIn (i : Instr) (u : State) (o : Host.Outcome State Fault Refusal) : Prop :=
  (isBank u = false ∨ u.ts.run = .waiting ∨ (∃ v, exec i u = .next v ∧ v.ts.run = .stalled) → o = exec i u) ∧
  (isBank u = true → u.ts.run ≠ .waiting → (∀ v, exec i u = .next v → v.ts.run ≠ .stalled) → o = exec i (chargeIssue u))

/-- The instruction at the pc is `i`: its words are inside the fetch range and readable, and they decode to `i`. -/
def AtPc (i : Instr) (s : State) : Prop :=
  CleanFetch s ∧ fetchError 0 s = none ∧ s.ts.pc.toNat + 4 ≤ fetchLimit s ∧ ∃ rest, decode (pcBytes s) = .ok (i, rest) ∧
    (rest = [] → fetchError 4 s = none ∧ s.ts.pc.toNat + 8 ≤ fetchLimit s)

end Sys2Proof.Claims

/-- 01 R26 to R34; 02 R63; 15 R322: a step takes a pending scheduling event first, then a user-level interrupt that is due, and
otherwise runs the instruction that the bytes at the pc decode to, or takes what a word that is no instruction takes; a device
step on the agenda runs as itself. Around that a step only lets device time pass, takes the agenda's entry, moves the focus and
charges a penumbra context that issues.
It rests on choices of the model where the log says so: entries 2, 3 and 61. -/
def Obligations.StepRunsDecoded : Prop :=
  (∀ s u : State, IssuesIn s u → MayIssue u →
    (u.ts.sched ≠ [] → step s = exec .schedulingEvent u) ∧
    (u.ts.sched = [] → uxDue u = true → step s = exec .uxEntry u) ∧
    (u.ts.sched = [] → uxDue u = false → ∀ i, AtPc i u → RunsIn i u (step s)) ∧
    (u.ts.sched = [] → uxDue u = false → CleanFetch u → fetchError 0 u = none → u.ts.pc.toNat + 4 ≤ fetchLimit u →
      ∀ e, decode (pcBytes u) = .error e →
        RunsIn (.illegalEncoding (pcWord 0 u)) u (step s)) ∧
    (u.ts.sched = [] → uxDue u = false → fetchLimit u < u.ts.pc.toNat + 4 → RunsIn (.illegalEncoding 0) u (step s))) ∧
  (∀ (s : State) (i : Instr) (rest : List Move), s.agenda = .ev i :: rest → i.isEvent = true → i.wf = true →
    step s = exec i (passTime { s with agenda := rest }))

/-- Memory keeps its canonical form, of strictly rising addresses and no byte that an unlisted address reads as, under every instruction
and every step of the device.
It rests on choices of the model where the log says so: entry 5. -/
def Obligations.InstructionsKeepMemoryCanonical : Prop :=
  ∀ (i : Instr) (s t : State), Memory.wf s.mem = true → exec i s = .next t → Memory.wf t.mem = true

/-- Memory keeps its canonical form under every step of the whole part, which goes on from every state: it stops only where the agenda,
the model's own field (log entry 2), holds a term that is no step of the part.
It rests on choices of the model where the log says so: entries 2 and 5. -/
def Obligations.StepsKeepMemoryCanonical : Prop :=
  ∀ s : State, Memory.wf s.mem = true →
    (∃ t, step s = .next t ∧ Memory.wf t.mem = true) ∨
    (step s = .fault .illFormed ∧ ∃ i rest, s.agenda = .ev i :: rest ∧ (i.isEvent && i.wf) = false)

/-- What the specification states of reset: the status bits of 01 R18 and R19 are 0, but PRV of slice context 6, which is at F (01 R22),
every stream slot is FREE with a zero status
word (06 R162), every event line has a zero configuration and line word (08 R190, R191), MCTX and MSTAT are 0 (16 R332, R334),
no firewall register names a partition (20 R390), VCSEL n below 64 is parked at wavelength n and the others are unassigned
(22 R423), every port is off (22 R425), FAILRUN and LOWERED are 0 (23 R431); and memory is in canonical form. -/
def Obligations.ResetState : Prop :=
  let s := State.reset
  Memory.wf s.mem = true ∧
  (∀ t : Fin 7, let x := vecGet s.core.tsets t.val
    x.status = (if t.val = 6 then 1 else 0) ∧ x.ecause = 0 ∧ ∀ n : Fin 8, (vecGet x.slots n.val).st = .free ∧ (vecGet x.slots n.val).reg = 0 ∧
      (vecGet x.slots n.val).pos = 0 ∧ (vecGet x.slots n.val).counts = []) ∧
  s.ts.status = 0 ∧ s.ts.ecause = 0 ∧ s.core.mctx = 0 ∧ s.core.mstat = 0 ∧ s.core.fwctl = 0 ∧
  (∀ n : Fin 8, (vecGet s.core.lines n.val).cfg = 0 ∧ (vecGet s.core.lines n.val).gen = 0 ∧
    (vecGet s.core.lines n.val).count = 0 ∧ (vecGet s.core.lines n.val).held = false ∧
    (vecGet s.core.lines n.val).misuse = false) ∧
  (∀ d : Fin 8, let o := vecGet s.optics d.val
    (o.lanes.map fun l => (l.age, l.ret, l.bias, l.port)) = List.replicate 72 (0, false, 0, 0) ∧
    (o.lanes.map fun l => (l.st, l.wl)) = ((List.range 64).map fun n => (2, n)) ++ List.replicate 8 (0, 0) ∧
    (∀ p : Fin 4, (vecGet o.ports p.val).cfg = 0 ∧ (vecGet o.ports p.val).width = 0) ∧
    o.sum.failrun = 0 ∧ o.sum.lowered = 0)
end

