-- ==== Sys2Proof/Laws/Memory.lean ====
section
/-! SUPPORT. Memory keeps its canonical form, and a read gives what was last written (11 R238; 00 R5). -/
namespace Sys2Proof.Machine

/-! ## The canonical form -/

/-- The canonical form, said of every later cell. -/
theorem wf_cons (a : Nat) (b : Byte) (m : List Host.Cell) :
    Memory.wf ((a, b) :: m) = true ↔ b ≠ unlisted ∧ (∀ c ∈ m, a < c.1) ∧ Memory.wf m = true := by
  induction m generalizing a b with
  | nil => simp [Memory.wf, bne_iff_ne]
  | cons c m ih =>
    obtain ⟨a', b'⟩ := c
    simp only [Memory.wf, Bool.and_eq_true, bne_iff_ne, decide_eq_true_eq, List.mem_cons, forall_eq_or_imp]
    constructor
    · rintro ⟨⟨h1, h2⟩, h3⟩
      exact ⟨h1, ⟨h2, fun c hc => Nat.lt_trans h2 (((ih a' b').1 h3).2.1 c hc)⟩, h3⟩
    · rintro ⟨h1, ⟨h2, -⟩, h3⟩
      exact ⟨⟨h1, h2⟩, h3⟩

theorem wf_nil : Memory.wf [] = true := rfl

/-- Every cell that a write leaves was there or is the one written. -/
theorem mem_memSet (k : Nat) (x : Byte) (m : List Host.Cell) : ∀ c ∈ memSet k x m, c ∈ m ∨ c = (k, x) := by
  induction m with
  | nil => intro c; unfold memSet; split <;> simp
  | cons h m ih =>
    obtain ⟨a, b⟩ := h
    intro c
    unfold memSet
    by_cases h1 : k < a
    · rw [if_pos h1]
      by_cases h3 : x = unlisted
      · rw [if_pos h3]; exact .inl
      · rw [if_neg h3]; intro h
        rcases List.mem_cons.1 h with h | h
        · exact .inr h
        · exact .inl h
    · rw [if_neg h1]
      by_cases h2 : k = a
      · rw [if_pos h2]
        by_cases h3 : x = unlisted
        · rw [if_pos h3]; exact fun h => .inl (List.mem_cons_of_mem _ h)
        · rw [if_neg h3]; intro h
          rcases List.mem_cons.1 h with h | h
          · exact .inr h
          · exact .inl (List.mem_cons_of_mem _ h)
      · rw [if_neg h2]; intro h
        rcases List.mem_cons.1 h with h | h
        · exact .inl (h ▸ List.mem_cons_self)
        · rcases ih c h with h | h
          · exact .inl (List.mem_cons_of_mem _ h)
          · exact .inr h

theorem memSet_wf (k : Nat) (x : Byte) (m : List Host.Cell) (h : Memory.wf m = true) : Memory.wf (memSet k x m) = true := by
  induction m with
  | nil =>
    unfold memSet
    split
    · rfl
    · rename_i hx; simp [Memory.wf, hx]
  | cons c m ih =>
    obtain ⟨a, b⟩ := c
    obtain ⟨h1, h2, h3⟩ := (wf_cons a b m).1 h
    unfold memSet
    split
    · rename_i hk
      split
      · exact h
      · rename_i hx
        refine (wf_cons _ _ _).2 ⟨hx, ?_, h⟩
        intro c hc
        rcases List.mem_cons.1 hc with rfl | hc
        · exact hk
        · exact Nat.lt_trans hk (h2 c hc)
    · rename_i hk
      split
      · rename_i he
        split
        · exact h3
        · rename_i hx
          exact (wf_cons _ _ _).2 ⟨hx, fun c hc => he ▸ h2 c hc, h3⟩
      · rename_i he
        refine (wf_cons _ _ _).2 ⟨h1, ?_, ih h3⟩
        intro c hc
        rcases mem_memSet k x m c hc with hc | rfl
        · exact h2 c hc
        · show a < k; omega

theorem memWrite_wf (bs : List Byte) (k : Nat) (m : List Host.Cell) (h : Memory.wf m = true) :
    Memory.wf (memWrite k bs m) = true := by
  induction bs generalizing k m with
  | nil => exact h
  | cons b bs ih => exact ih (k + 1) _ (memSet_wf k b m h)

theorem filter_wf (p : Host.Cell → Bool) (m : List Host.Cell) (h : Memory.wf m = true) : Memory.wf (m.filter p) = true := by
  induction m with
  | nil => rfl
  | cons c m ih =>
    obtain ⟨a, b⟩ := c
    obtain ⟨h1, h2, h3⟩ := (wf_cons a b m).1 h
    rw [List.filter_cons]
    split
    · exact (wf_cons _ _ _).2 ⟨h1, fun c hc => h2 c (List.mem_filter.1 hc).1, ih h3⟩
    · exact ih h3

theorem memZero_wf (k n : Nat) (m : List Host.Cell) (h : Memory.wf m = true) : Memory.wf (memZero k n m) = true :=
  filter_wf _ m h

theorem foldl_memSet_wf (f : Host.Cell → Nat) (cs m : List Host.Cell) (h : Memory.wf m = true) :
    Memory.wf (cs.foldl (fun acc c => memSet (f c) c.2 acc) m) = true := by
  induction cs generalizing m with
  | nil => exact h
  | cons c cs ih => exact ih _ (memSet_wf _ _ m h)

theorem memCopy_wf (src dst n : Nat) (m : List Host.Cell) (h : Memory.wf m = true) : Memory.wf (memCopy src dst n m) = true :=
  foldl_memSet_wf (fun c => dst + (c.1 - src)) _ _ (memZero_wf dst n m h)

/-! ## Reading -/

/-- A byte below every listed cell is unlisted. -/
theorem memGet_below (k : Nat) (m : List Host.Cell) (h : ∀ c ∈ m, k < c.1) : memGet m k = unlisted := by
  cases m with
  | nil => rfl
  | cons c m =>
    obtain ⟨a, b⟩ := c
    have := h (a, b) (by simp)
    unfold memGet
    rw [if_neg (by dsimp only at this; omega), if_pos this]

theorem memGet_memSet (k j : Nat) (x : Byte) (m : List Host.Cell) (h : Memory.wf m = true) :
    memGet (memSet k x m) j = if j = k then x else memGet m j := by
  induction m with
  | nil =>
    unfold memSet
    by_cases hx : x = unlisted
    · rw [if_pos hx]; split <;> simp [memGet, hx]
    · rw [if_neg hx]; unfold memGet; by_cases hj : j = k
      · rw [if_pos hj, if_pos hj.symm]
      · rw [if_neg hj, if_neg (fun e => hj e.symm)]; simp [memGet]
  | cons c m ih =>
    obtain ⟨a, b⟩ := c
    obtain ⟨h1, h2, h3⟩ := (wf_cons a b m).1 h
    have ih := ih h3
    unfold memSet
    by_cases hka : k < a
    · rw [if_pos hka]
      by_cases hx : x = unlisted
      · rw [if_pos hx]
        by_cases hj : j = k
        · rw [if_pos hj, hj]
          unfold memGet; rw [if_neg (by omega), if_pos hka, hx]
        · rw [if_neg hj]
      · rw [if_neg hx]
        by_cases hj : j = k
        · rw [if_pos hj]; unfold memGet; rw [if_pos hj.symm]
        · rw [if_neg hj]
          conv => lhs; unfold memGet
          rw [if_neg (fun e => hj e.symm)]
          split
          · rename_i hlt; unfold memGet; rw [if_neg (by omega), if_pos (by omega)]
          · rfl
    · rw [if_neg hka]
      by_cases he : k = a
      · rw [if_pos he]
        by_cases hx : x = unlisted
        · rw [if_pos hx]
          by_cases hj : j = k
          · rw [if_pos hj, hx]; exact memGet_below _ _ (by intro c hc; rw [hj, he]; exact h2 c hc)
          · rw [if_neg hj]
            conv => rhs; unfold memGet
            rw [if_neg (by omega)]
            split
            · exact memGet_below _ _ (fun c hc => by have := h2 c hc; omega)
            · rfl
        · rw [if_neg hx]
          unfold memGet
          by_cases hj : j = k
          · rw [if_pos hj, if_pos hj.symm]
          · rw [if_neg hj, if_neg (fun e => hj e.symm), if_neg (c := a = j) (by omega), he]
      · rw [if_neg he]
        unfold memGet
        rw [ih]
        by_cases hj : j = k
        · rw [if_neg (by omega), if_neg (by omega), if_pos hj, if_pos hj]
        · rw [if_neg hj, if_neg hj]

theorem memGet_memWrite (bs : List Byte) (k j : Nat) (m : List Host.Cell) (h : Memory.wf m = true) :
    memGet (memWrite k bs m) j = if k ≤ j ∧ j < k + bs.length then nth unlisted bs (j - k) else memGet m j := by
  induction bs generalizing k m with
  | nil => rw [if_neg (by simp)]; rfl
  | cons b bs ih =>
    unfold memWrite
    rw [ih (k + 1) _ (memSet_wf k b m h), memGet_memSet k j b m h]
    simp only [List.length_cons]
    by_cases h1 : k + 1 ≤ j ∧ j < k + 1 + bs.length
    · rw [if_pos h1, if_pos (by omega)]
      have : j - k = (j - (k + 1)) + 1 := by omega
      rw [this]; rfl
    · rw [if_neg h1]
      by_cases h2 : j = k
      · rw [if_pos h2, if_pos (by omega), h2, Nat.sub_self]; rfl
      · rw [if_neg h2, if_neg (by omega)]

theorem memGet_memZero (k n j : Nat) (m : List Host.Cell) (h : Memory.wf m = true) :
    memGet (memZero k n m) j = if k ≤ j ∧ j < k + n then unlisted else memGet m j := by
  induction m with
  | nil => simp [memZero, memGet]
  | cons c m ih =>
    obtain ⟨a, b⟩ := c
    obtain ⟨h1, h2, h3⟩ := (wf_cons a b m).1 h
    have ih := ih h3
    unfold memZero at *
    rw [List.filter_cons]
    by_cases hin : a < k ∨ k + n ≤ a
    · rw [if_pos (by simpa using hin)]
      unfold memGet
      rw [ih]
      by_cases haj : a = j
      · rw [if_pos haj, if_pos haj, if_neg (by omega)]
      · rw [if_neg haj, if_neg haj]
        split
        · split <;> rfl
        · rfl
    · rw [if_neg (by simpa using hin), ih]
      by_cases hj : k ≤ j ∧ j < k + n
      · rw [if_pos hj, if_pos hj]
      · rw [if_neg hj, if_neg hj]
        conv => rhs; unfold memGet
        rw [if_neg (by omega)]
        split
        · exact memGet_below _ _ (fun c hc => by have := h2 c hc; omega)
        · rfl

theorem memRead_length (m : List Host.Cell) (n k : Nat) : (memRead m n k).length = n := by
  induction n generalizing k with
  | zero => rfl
  | succ n ih => simp [memRead, ih]

/-- Bytes read from one memory are those of another that agrees on them. -/
theorem memRead_congr (m m' : List Host.Cell) (n k : Nat) (h : ∀ j, k ≤ j → j < k + n → memGet m j = memGet m' j) :
    memRead m n k = memRead m' n k := by
  induction n generalizing k with
  | zero => rfl
  | succ n ih =>
    unfold memRead
    rw [h k (Nat.le_refl k) (by omega), ih (k + 1) (fun j h1 h2 => h j (by omega) (by omega))]

theorem memRead_memWrite (bs : List Byte) (k : Nat) (m : List Host.Cell) (h : Memory.wf m = true) :
    memRead (memWrite k bs m) bs.length k = bs := by
  induction bs generalizing k m with
  | nil => rfl
  | cons b bs ih =>
    show memGet _ k :: memRead _ bs.length (k + 1) = _
    rw [memGet_memWrite _ _ _ _ h, if_pos (by simp), Nat.sub_self]
    exact congrArg (b :: ·) (ih (k + 1) _ (memSet_wf k b m h))

theorem memRead_memWrite_apart (bs : List Byte) (k j n : Nat) (m : List Host.Cell) (h : Memory.wf m = true)
    (ha : j + n ≤ k ∨ k + bs.length ≤ j) : memRead (memWrite k bs m) n j = memRead m n j :=
  memRead_congr _ _ _ _ fun i h1 h2 => by rw [memGet_memWrite _ _ _ _ h, if_neg (by omega)]

/-! ## Little-endian values -/

theorem leBytes_length (n v : Nat) : (leBytes n v).length = n := by
  induction n generalizing v with
  | zero => rfl
  | succ n ih => simp [leBytes, ih]

theorem leValue_leBytes (n v : Nat) : leValue (leBytes n v) = v % 256 ^ n := by
  induction n generalizing v with
  | zero => simp [leBytes, leValue, Nat.mod_one]
  | succ n ih =>
    rw [leBytes, leValue, ih, BitVec.toNat_ofNat, show 256 ^ (n + 1) = 2 ^ 8 * 256 ^ n from Nat.pow_succ']
    exact Nat.mod_mul.symm

theorem memValue_memWrite (n v k : Nat) (m : List Host.Cell) (h : Memory.wf m = true) :
    memValue (memWrite k (leBytes n v) m) n k = v % 256 ^ n := by
  have := memRead_memWrite (leBytes n v) k m h
  rw [leBytes_length] at this
  unfold memValue
  rw [this, leValue_leBytes]

end Sys2Proof.Machine
end

