-- ==== Sys2Proof/Laws/Words.lean ====
section
/-! SUPPORT. The fields of a word: which values a format has room for, and that a word gives back the fields it was made
of (02 R36, R37, R39). -/
namespace Sys2Proof

/-- The fields of a word are within the widths of its format, which is the format of its major opcode (R36, R37). -/
def rawInRange (r : Raw) : Prop :=
  match r with
  | .a fn b a d op => (fn < 1024 ∧ b < 32 ∧ a < 32 ∧ d < 32 ∧ op < 128) ∧ fmtOf op = some .a
  | .i imm a d op => (imm < 32768 ∧ a < 32 ∧ d < 32 ∧ op < 128) ∧ fmtOf op = some .i
  | .u imm d op => (imm < 1048576 ∧ d < 32 ∧ op < 128) ∧ fmtOf op = some .u
  | .m off size base d op => (off < 4096 ∧ size < 8 ∧ base < 32 ∧ d < 32 ∧ op < 128) ∧ fmtOf op = some .m
  | .s order ret fn pal data addr d op =>
    (order < 4 ∧ ret < 2 ∧ fn < 8 ∧ pal < 16 ∧ data < 32 ∧ addr < 32 ∧ d < 32 ∧ op < 128) ∧ fmtOf op = some .s
  | .b off b a cond op => (off < 4096 ∧ b < 32 ∧ a < 32 ∧ cond < 8 ∧ op < 128) ∧ fmtOf op = some .b
  | .j off d op => (off < 1048576 ∧ d < 32 ∧ op < 128) ∧ fmtOf op = some .j
  | .v fn ty pred vb va vd op =>
    (fn < 16 ∧ ty < 8 ∧ pred < 8 ∧ vb < 32 ∧ va < 32 ∧ vd < 32 ∧ op < 128) ∧ fmtOf op = some .v
  | .k fn k a d op => (fn < 32 ∧ k < 1024 ∧ a < 32 ∧ d < 32 ∧ op < 128) ∧ fmtOf op = some .k

/-- The fields call for a trailing literal word (R39). -/
def rawLit (r : Raw) : Bool :=
  match r with
  | .a fn _ _ _ op => (op == 0x01 || op == 0x09 || op == 0x10 || op == 0x11) && fn / 512 == 1
  | .v _ _ _ _ _ _ op => op == 0x43
  | .i _ _ _ _ | .u _ _ _ | .m _ _ _ _ _ | .s _ _ _ _ _ _ _ _ | .b _ _ _ _ _ | .j _ _ _ | .k _ _ _ _ _ => false

/-- The literal bit lies in words of the A and V formats alone (R39). -/
theorem lit_major {op : Nat} {f : Fmt} (e : fmtOf op = some f) (ha : f ≠ .a) (hv : f ≠ .v) :
    (op == 0x43) = false ∧ (op == 0x01 || op == 0x09 || op == 0x10 || op == 0x11) = false := by
  constructor
  · cases c : op == 0x43
    · rfl
    · rw [beq_iff_eq] at c; subst c; cases e; exact absurd rfl hv
  · cases c : (op == 0x01 || op == 0x09 || op == 0x10 || op == 0x11)
    · rfl
    · simp only [Bool.or_eq_true, beq_iff_eq] at c
      rcases c with ((c | c) | c) | c <;> subst c <;> cases e <;> exact absurd rfl ha

/-- Fields in range make a word of 32 bits (R37). -/
theorem rawWord_lt {r : Raw} (h : rawInRange r) : rawWord r < 2 ^ 32 := by
  cases r <;> simp only [rawInRange] at h <;> obtain ⟨h, -⟩ := h <;> simp only [rawWord] <;> omega

/-- The fields of the word that fields in range make are those fields (R37). -/
theorem rawOfWord_rawWord {r : Raw} (h : rawInRange r) : rawOfWord (rawWord r) = some r := by
  cases r with
  | a fn b a d op =>
    obtain ⟨h, e⟩ := h
    have e0 : bitsOf (rawWord (.a fn b a d op)) 0 7 = op := by simp only [bitsOf, rawWord]; omega
    have e1 : bitsOf (rawWord (.a fn b a d op)) 22 10 = fn := by simp only [bitsOf, rawWord]; omega
    have e2 : bitsOf (rawWord (.a fn b a d op)) 17 5 = b := by simp only [bitsOf, rawWord]; omega
    have e3 : bitsOf (rawWord (.a fn b a d op)) 12 5 = a := by simp only [bitsOf, rawWord]; omega
    have e4 : bitsOf (rawWord (.a fn b a d op)) 7 5 = d := by simp only [bitsOf, rawWord]; omega
    simp only [rawOfWord, e, e0, e1, e2, e3, e4]
  | i imm a d op =>
    obtain ⟨h, e⟩ := h
    have e0 : bitsOf (rawWord (.i imm a d op)) 0 7 = op := by simp only [bitsOf, rawWord]; omega
    have e1 : bitsOf (rawWord (.i imm a d op)) 17 15 = imm := by simp only [bitsOf, rawWord]; omega
    have e2 : bitsOf (rawWord (.i imm a d op)) 12 5 = a := by simp only [bitsOf, rawWord]; omega
    have e3 : bitsOf (rawWord (.i imm a d op)) 7 5 = d := by simp only [bitsOf, rawWord]; omega
    simp only [rawOfWord, e, e0, e1, e2, e3]
  | u imm d op =>
    obtain ⟨h, e⟩ := h
    have e0 : bitsOf (rawWord (.u imm d op)) 0 7 = op := by simp only [bitsOf, rawWord]; omega
    have e1 : bitsOf (rawWord (.u imm d op)) 12 20 = imm := by simp only [bitsOf, rawWord]; omega
    have e2 : bitsOf (rawWord (.u imm d op)) 7 5 = d := by simp only [bitsOf, rawWord]; omega
    simp only [rawOfWord, e, e0, e1, e2]
  | m off size base d op =>
    obtain ⟨h, e⟩ := h
    have e0 : bitsOf (rawWord (.m off size base d op)) 0 7 = op := by simp only [bitsOf, rawWord]; omega
    have e1 : bitsOf (rawWord (.m off size base d op)) 20 12 = off := by simp only [bitsOf, rawWord]; omega
    have e2 : bitsOf (rawWord (.m off size base d op)) 17 3 = size := by simp only [bitsOf, rawWord]; omega
    have e3 : bitsOf (rawWord (.m off size base d op)) 12 5 = base := by simp only [bitsOf, rawWord]; omega
    have e4 : bitsOf (rawWord (.m off size base d op)) 7 5 = d := by simp only [bitsOf, rawWord]; omega
    simp only [rawOfWord, e, e0, e1, e2, e3, e4]
  | s order ret fn pal data addr d op =>
    obtain ⟨h, e⟩ := h
    have e0 : bitsOf (rawWord (.s order ret fn pal data addr d op)) 0 7 = op := by simp only [bitsOf, rawWord]; omega
    have e1 : bitsOf (rawWord (.s order ret fn pal data addr d op)) 30 2 = order := by simp only [bitsOf, rawWord]; omega
    have e2 : bitsOf (rawWord (.s order ret fn pal data addr d op)) 29 1 = ret := by simp only [bitsOf, rawWord]; omega
    have e3 : bitsOf (rawWord (.s order ret fn pal data addr d op)) 26 3 = fn := by simp only [bitsOf, rawWord]; omega
    have e4 : bitsOf (rawWord (.s order ret fn pal data addr d op)) 22 4 = pal := by simp only [bitsOf, rawWord]; omega
    have e5 : bitsOf (rawWord (.s order ret fn pal data addr d op)) 17 5 = data := by simp only [bitsOf, rawWord]; omega
    have e6 : bitsOf (rawWord (.s order ret fn pal data addr d op)) 12 5 = addr := by simp only [bitsOf, rawWord]; omega
    have e7 : bitsOf (rawWord (.s order ret fn pal data addr d op)) 7 5 = d := by simp only [bitsOf, rawWord]; omega
    simp only [rawOfWord, e, e0, e1, e2, e3, e4, e5, e6, e7]
  | b off b a cond op =>
    obtain ⟨h, e⟩ := h
    have e0 : bitsOf (rawWord (.b off b a cond op)) 0 7 = op := by simp only [bitsOf, rawWord]; omega
    have e1 : bitsOf (rawWord (.b off b a cond op)) 20 12 = off := by simp only [bitsOf, rawWord]; omega
    have e2 : bitsOf (rawWord (.b off b a cond op)) 15 5 = b := by simp only [bitsOf, rawWord]; omega
    have e3 : bitsOf (rawWord (.b off b a cond op)) 10 5 = a := by simp only [bitsOf, rawWord]; omega
    have e4 : bitsOf (rawWord (.b off b a cond op)) 7 3 = cond := by simp only [bitsOf, rawWord]; omega
    simp only [rawOfWord, e, e0, e1, e2, e3, e4]
  | j off d op =>
    obtain ⟨h, e⟩ := h
    have e0 : bitsOf (rawWord (.j off d op)) 0 7 = op := by simp only [bitsOf, rawWord]; omega
    have e1 : bitsOf (rawWord (.j off d op)) 12 20 = off := by simp only [bitsOf, rawWord]; omega
    have e2 : bitsOf (rawWord (.j off d op)) 7 5 = d := by simp only [bitsOf, rawWord]; omega
    simp only [rawOfWord, e, e0, e1, e2]
  | v fn ty pred vb va vd op =>
    obtain ⟨h, e⟩ := h
    have e0 : bitsOf (rawWord (.v fn ty pred vb va vd op)) 0 7 = op := by simp only [bitsOf, rawWord]; omega
    have e1 : bitsOf (rawWord (.v fn ty pred vb va vd op)) 28 4 = fn := by simp only [bitsOf, rawWord]; omega
    have e2 : bitsOf (rawWord (.v fn ty pred vb va vd op)) 25 3 = ty := by simp only [bitsOf, rawWord]; omega
    have e3 : bitsOf (rawWord (.v fn ty pred vb va vd op)) 22 3 = pred := by simp only [bitsOf, rawWord]; omega
    have e4 : bitsOf (rawWord (.v fn ty pred vb va vd op)) 17 5 = vb := by simp only [bitsOf, rawWord]; omega
    have e5 : bitsOf (rawWord (.v fn ty pred vb va vd op)) 12 5 = va := by simp only [bitsOf, rawWord]; omega
    have e6 : bitsOf (rawWord (.v fn ty pred vb va vd op)) 7 5 = vd := by simp only [bitsOf, rawWord]; omega
    simp only [rawOfWord, e, e0, e1, e2, e3, e4, e5, e6]
  | k fn k a d op =>
    obtain ⟨h, e⟩ := h
    have e0 : bitsOf (rawWord (.k fn k a d op)) 0 7 = op := by simp only [bitsOf, rawWord]; omega
    have e1 : bitsOf (rawWord (.k fn k a d op)) 27 5 = fn := by simp only [bitsOf, rawWord]; omega
    have e2 : bitsOf (rawWord (.k fn k a d op)) 17 10 = k := by simp only [bitsOf, rawWord]; omega
    have e3 : bitsOf (rawWord (.k fn k a d op)) 12 5 = a := by simp only [bitsOf, rawWord]; omega
    have e4 : bitsOf (rawWord (.k fn k a d op)) 7 5 = d := by simp only [bitsOf, rawWord]; omega
    simp only [rawOfWord, e, e0, e1, e2, e3, e4]

/-- The word of fields in range calls for a literal where the fields do (R39). -/
theorem needsLit_rawWord {r : Raw} (h : rawInRange r) : needsLit (rawWord r) = rawLit r := by
  cases r with
  | a fn b a d op =>
    obtain ⟨h, e⟩ := h
    have e0 : bitsOf (rawWord (.a fn b a d op)) 0 7 = op := by simp only [bitsOf, rawWord]; omega
    have e1 : bitOf (rawWord (.a fn b a d op)) 31 = (fn / 512 == 1) := by
      have : rawWord (.a fn b a d op) / 2 ^ 31 % 2 = fn / 512 := by simp only [rawWord]; omega
      simp only [bitOf, this]
    have n : (op == 0x43) = false := by
      cases c : op == 0x43
      · rfl
      · rw [beq_iff_eq] at c; subst c; cases e
    simp only [needsLit, rawLit, e0, e1, n, Bool.false_or]
  | v fn ty pred vb va vd op =>
    obtain ⟨h, e⟩ := h
    have e0 : bitsOf (rawWord (.v fn ty pred vb va vd op)) 0 7 = op := by simp only [bitsOf, rawWord]; omega
    have n : (op == 0x01 || op == 0x09 || op == 0x10 || op == 0x11) = false := by
      cases c : (op == 0x01 || op == 0x09 || op == 0x10 || op == 0x11)
      · rfl
      · simp only [Bool.or_eq_true, beq_iff_eq] at c
        rcases c with ((c | c) | c) | c <;> subst c <;> cases e
    simp only [needsLit, rawLit, e0, n, Bool.false_and, Bool.or_false]
  | i imm a d op =>
    obtain ⟨h, e⟩ := h
    have e0 : bitsOf (rawWord (.i imm a d op)) 0 7 = op := by simp only [bitsOf, rawWord]; omega
    simp only [needsLit, rawLit, e0, lit_major (f := .i) e (by decide) (by decide), Bool.false_and, Bool.or_false]
  | u imm d op =>
    obtain ⟨h, e⟩ := h
    have e0 : bitsOf (rawWord (.u imm d op)) 0 7 = op := by simp only [bitsOf, rawWord]; omega
    simp only [needsLit, rawLit, e0, lit_major (f := .u) e (by decide) (by decide), Bool.false_and, Bool.or_false]
  | m off size base d op =>
    obtain ⟨h, e⟩ := h
    have e0 : bitsOf (rawWord (.m off size base d op)) 0 7 = op := by simp only [bitsOf, rawWord]; omega
    simp only [needsLit, rawLit, e0, lit_major (f := .m) e (by decide) (by decide), Bool.false_and, Bool.or_false]
  | s order ret fn pal data addr d op =>
    obtain ⟨h, e⟩ := h
    have e0 : bitsOf (rawWord (.s order ret fn pal data addr d op)) 0 7 = op := by simp only [bitsOf, rawWord]; omega
    simp only [needsLit, rawLit, e0, lit_major (f := .s) e (by decide) (by decide), Bool.false_and, Bool.or_false]
  | b off b a cond op =>
    obtain ⟨h, e⟩ := h
    have e0 : bitsOf (rawWord (.b off b a cond op)) 0 7 = op := by simp only [bitsOf, rawWord]; omega
    simp only [needsLit, rawLit, e0, lit_major (f := .b) e (by decide) (by decide), Bool.false_and, Bool.or_false]
  | j off d op =>
    obtain ⟨h, e⟩ := h
    have e0 : bitsOf (rawWord (.j off d op)) 0 7 = op := by simp only [bitsOf, rawWord]; omega
    simp only [needsLit, rawLit, e0, lit_major (f := .j) e (by decide) (by decide), Bool.false_and, Bool.or_false]
  | k fn k a d op =>
    obtain ⟨h, e⟩ := h
    have e0 : bitsOf (rawWord (.k fn k a d op)) 0 7 = op := by simp only [bitsOf, rawWord]; omega
    simp only [needsLit, rawLit, e0, lit_major (f := .k) e (by decide) (by decide), Bool.false_and, Bool.or_false]
end Sys2Proof
end

