-- ==== Sys2Proof/Laws/PerInstr.lean ====
section
/-! SUPPORT. The family `Encodes`: for each constructor, the fields that a well-formed instruction encodes to are in range
of their format and decode to that instruction (02 R36 to R65). A group of constructors that one selector table decodes has
one lemma, which the constructors' own lemmas cite. -/
namespace Sys2Proof
namespace Laws

/-- Fields `r` and literal `x` are an encoding of `i`. -/
def Encoded (r : Raw) (x : Option W32) (i : Instr) : Prop :=
  rawInRange r ∧ decodeRaw r (x.getD 0) = some i ∧ rawLit r = x.isSome

namespace Encodes

/-- The statement of the family: the fields that a well-formed instruction encodes to are an encoding of it. -/
def Statement (i : Instr) : Prop :=
  i.wf = true → ∀ r x, encodeRaw i = some (r, x) → Encoded r x (coreWord i)

/-- From the fields that an instruction encodes to. -/
theorem of_fields {i : Instr} {r : Raw} {x : Option W32} (h : encodeRaw i = some (r, x))
    (p : i.wf = true → Encoded r x (coreWord i)) : Statement i := by
  intro w r' x' h'
  rw [h] at h'
  cases h'
  exact p w

/-- An instruction that has no word. -/
theorem of_none {i : Instr} (h : encodeRaw i = none) : Statement i := by
  intro _ r x h'
  rw [h] at h'
  cases h'

@[simp] theorem r5_toNat (x : BitVec 5) : r5 x.toNat = x := by simp [r5]
@[simp] theorem r3_toNat (x : BitVec 3) : r3 x.toNat = x := by simp [r3]
@[simp] theorem vty_ofCode (t : VTy) : VTy.ofCode t.code = t := by cases t <;> rfl
@[simp] theorem prec_ofCode (t : Prec) : Prec.ofCode t.code = t := by cases t <;> rfl
@[simp] theorem rnd_ofCode (t : Rnd) : Rnd.ofCode t.code = some t := by cases t <;> rfl
@[simp] theorem order_ofCode (t : Order) : Order.ofCode t.code = t := by cases t <;> rfl
@[simp] theorem ld_ofCode (t : LdSize) : LdSize.ofCode t.code = some t := by cases t <;> rfl
@[simp] theorem st_ofCode (t : StSize) : StSize.ofCode t.code = some t := by cases t <;> rfl
theorem vty_lt (t : VTy) : t.code < 8 := by cases t <;> decide
theorem prec_lt (t : Prec) : t.code < 2 := by cases t <;> decide
theorem rnd_lt (t : Rnd) : t.code < 8 := by cases t <;> decide
theorem order_lt (t : Order) : t.code < 4 := by cases t <;> decide
theorem ld_lt (t : LdSize) : t.code < 8 := by cases t <;> decide
theorem st_lt (t : StSize) : t.code < 8 := by cases t <;> decide
theorem l_lt (t : OpB) : t.l < 2 := by cases t <;> simp [OpB.l]
theorem field_lt (t : OpB) : t.field < 32 := by cases t <;> simp only [OpB.field] <;> omega
@[simp] theorem opB_ofFields (b : OpB) : OpB.ofFields b.l b.field (b.word.getD 0#32) = some b := by
  cases b <;> simp [OpB.ofFields, OpB.l, OpB.field, OpB.word]
theorem lit_eq (b : OpB) : (b.l == 1) = b.word.isSome := by cases b <;> rfl

theorem int2 {f : Reg → Reg → OpB → Instr} (o : Nat) (h : intOp2 o = some f) (l : o < 64) (d a : Reg) (b : OpB) :
    Encoded (.a (b.l * 512 + o) b.field a.toNat d.toNat 0x01) b.word (f d a b) := by
  have hl := l_lt b
  refine ⟨⟨⟨by omega, field_lt b, by omega, by omega, by omega⟩, rfl⟩, ?_, ?_⟩
  · have e1 : (b.l * 512 + o) / 64 % 8 = 0 := by omega
    have e2 : (b.l * 512 + o) % 64 = o := by omega
    have e3 : (b.l * 512 + o) / 512 = b.l := by omega
    simp [decodeRaw, decodeA, e1, e2, e3, h]
  · have e3 : (b.l * 512 + o) / 512 = b.l := by omega
    simp [rawLit, e3, lit_eq]

theorem int1 {f : Reg → Reg → Instr} (o : Nat) (h2 : intOp2 o = none) (h : intOp1 o = some f) (l : o < 64) (d a : Reg) :
    Encoded (.a o 0 a.toNat d.toNat 0x01) none (f d a) := by
  refine ⟨⟨⟨by omega, by omega, by omega, by omega, by omega⟩, rfl⟩, ?_, ?_⟩
  · have e1 : o / 64 % 8 = 0 := by omega
    have e2 : o % 64 = o := by omega
    have e3 : o / 512 = 0 := by omega
    simp [decodeRaw, decodeA, e1, e2, e3, h, h2, okIf]
  · have e3 : o / 512 = 0 := by omega
    simp [rawLit, e3]

theorem fpRnd {f : Prec → Rnd → Reg → Reg → OpB → Instr} (o : Nat) (h : fpRnd2 o = some f) (l : o < 32) (z : Prec)
    (r : Rnd) (d a : Reg) (b : OpB) :
    Encoded (.a (b.l * 512 + z.code * 256 + r.code * 32 + o) b.field a.toNat d.toNat 0x10) b.word (f z r d a b) := by
  have hl := l_lt b
  have hz := prec_lt z
  have hr := rnd_lt r
  have e3 : (b.l * 512 + z.code * 256 + r.code * 32 + o) / 512 = b.l := by omega
  refine ⟨⟨⟨by omega, field_lt b, by omega, by omega, by omega⟩, rfl⟩, ?_, by simp [rawLit, e3, lit_eq]⟩
  have e1 : (b.l * 512 + z.code * 256 + r.code * 32 + o) / 32 % 8 = r.code := by omega
  have e2 : (b.l * 512 + z.code * 256 + r.code * 32 + o) % 32 = o := by omega
  have e4 : (b.l * 512 + z.code * 256 + r.code * 32 + o) / 256 % 2 = z.code := by omega
  simp [decodeRaw, decodeA, e1, e2, e3, e4, h]

theorem fp2 {f : Prec → Reg → Reg → OpB → Instr} (o : Nat) (n : fpRnd2 o = none) (h : fpOp2 o = some f) (l : o < 32)
    (l4 : o ≠ 4) (z : Prec) (d a : Reg) (b : OpB) :
    Encoded (.a (b.l * 512 + z.code * 256 + o) b.field a.toNat d.toNat 0x10) b.word (f z d a b) := by
  have hl := l_lt b
  have hz := prec_lt z
  have e3 : (b.l * 512 + z.code * 256 + o) / 512 = b.l := by omega
  refine ⟨⟨⟨by omega, field_lt b, by omega, by omega, by omega⟩, rfl⟩, ?_, by simp [rawLit, e3, lit_eq]⟩
  have e1 : (b.l * 512 + z.code * 256 + o) / 32 % 8 = 0 := by omega
  have e2 : (b.l * 512 + z.code * 256 + o) % 32 = o := by omega
  have e4 : (b.l * 512 + z.code * 256 + o) / 256 % 2 = z.code := by omega
  simp [decodeRaw, decodeA, e1, e2, e3, e4, h, n, l4, Rnd.ofCode]

theorem fp1 {f : Prec → Reg → Reg → Instr} (o : Nat) (n : fpRnd2 o = none) (n2 : fpOp2 o = none)
    (h : fpOp1 o = some f) (l : o < 32) (l4 : o ≠ 4) (z : Prec) (d a : Reg) :
    Encoded (.a (z.code * 256 + o) 0 a.toNat d.toNat 0x10) none (f z d a) := by
  have hz := prec_lt z
  have e3 : (z.code * 256 + o) / 512 = 0 := by omega
  refine ⟨⟨⟨by omega, by omega, by omega, by omega, by omega⟩, rfl⟩, ?_, by simp [rawLit, e3]⟩
  have e1 : (z.code * 256 + o) / 32 % 8 = 0 := by omega
  have e2 : (z.code * 256 + o) % 32 = o := by omega
  have e4 : (z.code * 256 + o) / 256 % 2 = z.code := by omega
  simp [decodeRaw, decodeA, e1, e2, e3, e4, h, n, n2, l4, Rnd.ofCode, okIf]

theorem fcvt {f : Rnd → Reg → Reg → Instr} (o : Nat) (h : fcvtOp o = some f) (l : o < 32) (r : Rnd) (d a : Reg) :
    Encoded (.a (r.code * 32 + o) 0 a.toNat d.toNat 0x12) none (f r d a) := by
  have hr := rnd_lt r
  refine ⟨⟨⟨by omega, by omega, by omega, by omega, by omega⟩, rfl⟩, ?_, by simp [rawLit]⟩
  have e1 : (r.code * 32 + o) / 32 % 8 = r.code := by omega
  have e2 : (r.code * 32 + o) % 32 = o := by omega
  have e3 : (r.code * 32 + o) / 256 = 0 := by omega
  simp [decodeRaw, decodeA, e1, e2, e3, h, okIf]

theorem intK {f : Reg → Reg → BitVec 10 → Instr} (o : Nat) (h : kOp o = some f) (l : o < 32) (d a : Reg) (k : BitVec 10) :
    Encoded (.k o k.toNat a.toNat d.toNat 0x0B) none (f d a k) :=
  ⟨⟨⟨by omega, by omega, by omega, by omega, by omega⟩, rfl⟩, by simp [decodeRaw, decodeK, h], rfl⟩

theorem fpK {f : Prec → Reg → Reg → BitVec 10 → Instr} (o : Nat) (h : fkOp o = some f) (l : o < 8) (z : Prec) (d a : Reg)
    (k : BitVec 10) : Encoded (.k (4 * o + z.code * 2) k.toNat a.toNat d.toNat 0x15) none (f z d a k) := by
  have hz := prec_lt z
  have e1 : (4 * o + z.code * 2) % 2 = 0 := by omega
  have e2 : (4 * o + z.code * 2) / 4 = o := by omega
  have e3 : (4 * o + z.code * 2) / 2 % 2 = z.code := by omega
  exact ⟨⟨⟨by omega, by omega, by omega, by omega, by omega⟩, rfl⟩, by simp [decodeRaw, decodeK, e1, e2, e3, h], rfl⟩

theorem br {f : Reg → Reg → BitVec 12 → Instr} (o : Nat) (h : brOp o = some f) (l : o < 8) (a b : Reg) (off : BitVec 12) :
    Encoded (.b off.toNat b.toNat a.toNat o 0x18) none (f a b off) :=
  ⟨⟨⟨by omega, by omega, by omega, by omega, by omega⟩, rfl⟩, by simp [decodeRaw, decodeB, h], rfl⟩

theorem amo {f : Order → Bool → Pal → Reg → Reg → Reg → Instr} (op fn : Nat) (hf : fmtOf op = some .s)
    (h : amoOp op fn = some f) (l : fn < 8) (h2 : op < 128)
    (o : Order) (ret : Bool) (p : Pal) (d a c : Reg) (w : ret = true ∨ d = 0 ∨ isCas op fn = true) :
    Encoded (.s o.code ret.toNat fn p.toNat c.toNat a.toNat d.toNat op) none (f o ret p d a c) := by
  have hr : ret.toNat < 2 := by cases ret <;> decide
  refine ⟨⟨⟨order_lt o, hr, l, by omega, by omega, by omega, by omega, h2⟩, hf⟩, ?_, rfl⟩
  have n1 : op ≠ 0x22 := by intro e; subst e; cases h
  have n2 : op ≠ 0x37 := by intro e; subst e; cases h
  have k : decodeRaw (.s o.code ret.toNat fn p.toNat c.toNat a.toNat d.toNat op) 0 =
      okIf (ret.toNat == 1 || d.toNat == 0 || isCas op fn)
        (f (Order.ofCode o.code) (ret.toNat == 1) (BitVec.ofNat 4 p.toNat) (r5 d.toNat) (r5 a.toNat) (r5 c.toNat)) := by
    simp only [decodeRaw]
    unfold decodeS
    split
    · exact absurd rfl n1
    · exact absurd rfl n2
    · rw [h]
  refine k.trans ?_
  have w' : (ret.toNat == 1 || d.toNat == 0 || isCas op fn) = true := by
    rcases w with w | w | w <;> simp [w]
  rw [w']
  cases ret <;> simp [okIf]


/-- The fields of a V-format word whose selector is `fn` and literal absent. -/
theorem vWord {fn ty pred vb va vd op : Nat} {i : Instr}
    (h : fn < 16 ∧ ty < 8 ∧ pred < 8 ∧ vb < 32 ∧ va < 32 ∧ vd < 32 ∧ op < 128) (hf : fmtOf op = some .v)
    (n : (op == 0x43) = false) (e : decodeV fn ty pred vb va vd op 0 = some i) :
    Encoded (.v fn ty pred vb va vd op) none i := ⟨⟨h, hf⟩, e, n⟩

theorem vamo {f : VTy → QReg → Reg → VReg → VReg → Instr} (fn : Nat) (h : vamoOp fn = some f) (l : fn < 16) (t : VTy)
    (q : QReg) (s : Reg) (a b : VReg) (w : t.isWide = true ∧ (fn ≤ 2 ∨ t.isInt = true)) :
    Encoded (.v fn t.code q.toNat b.toNat a.toNat s.toNat 0x36) none (f t q s a b) :=
  vWord ⟨l, vty_lt t, by omega, by omega, by omega, by omega, by omega⟩ rfl rfl
    (by simp [decodeV, h, okIf, w.1, w.2])

theorem vbin {f : VTy → QReg → VReg → VReg → VReg → Instr} (op fn : Nat) (hf : fmtOf op = some .v) (h : vBin op fn = some f)
    (l : fn < 16) (h2 : op < 128) (t : VTy) (q : QReg) (d a b : VReg) (w : vBinTypes op fn t = true) :
    Encoded (.v fn t.code q.toNat b.toNat a.toNat d.toNat op) none (f t q d a b) := by
  refine vWord ⟨l, vty_lt t, by omega, by omega, by omega, by omega, by omega⟩ hf ?_ ?_
  · cases e : op == 0x43
    · rfl
    · rw [beq_iff_eq] at e; subst e; cases h
  · unfold decodeV
    split
    all_goals first
      | (cases h; done)
      | simp [h, okIf, w]

theorem vcmp {f : VTy → QReg → QReg → VReg → VReg → Instr} (fn : Nat) (h : vcmpOp fn = some f) (l : fn < 16) (t : VTy)
    (q d : QReg) (a b : VReg) (w : vcmpTypes fn t = true) :
    Encoded (.v fn t.code q.toNat b.toNat a.toNat d.toNat 0x45) none (f t q d a b) :=
  vWord ⟨l, vty_lt t, by omega, by omega, by omega, by omega, by omega⟩ rfl rfl
    (by
      have e : d.toNat / 8 = 0 := by omega
      simp [decodeV, h, okIf, w, e])

theorem vred {f : VTy → QReg → Reg → VReg → Instr} (fn : Nat) (h : vredOp fn = some f) (l : fn < 16) (t : VTy)
    (q : QReg) (d : Reg) (a : VReg) (w : fn ≤ 2 ∨ t.isInt = true) :
    Encoded (.v fn t.code q.toNat 0 a.toNat d.toNat 0x49) none (f t q d a) :=
  vWord ⟨l, vty_lt t, by omega, by omega, by omega, by omega, by omega⟩ rfl rfl (by simp [decodeV, h, okIf, w])

theorem vscan {f : VTy → QReg → VReg → VReg → Instr} (fn : Nat) (h : vscanOp fn = some f) (l : fn < 16) (t : VTy)
    (q : QReg) (d a : VReg) :
    Encoded (.v fn t.code q.toNat 0 a.toNat d.toNat 0x4A) none (f t q d a) :=
  vWord ⟨l, vty_lt t, by omega, by omega, by omega, by omega, by omega⟩ rfl rfl (by simp [decodeV, h, okIf])

theorem vmem {f : VTy → QReg → VReg → Reg → Reg → Instr} (fn : Nat) (h : vmemS fn = some f) (l : fn < 16) (t : VTy)
    (q : QReg) (d : VReg) (a b : Reg) :
    Encoded (.v fn t.code q.toNat b.toNat a.toNat d.toNat 0x50) none (f t q d a b) :=
  vWord ⟨l, vty_lt t, by omega, by omega, by omega, by omega, by omega⟩ rfl rfl (by simp [decodeV, h])

theorem vmemI {f : VTy → QReg → VReg → Reg → VReg → Instr} (fn : Nat) (n : vmemS fn = none) (h : vmemX fn = some f)
    (l : fn < 16) (t : VTy) (q : QReg) (d : VReg) (a : Reg) (b : VReg) (w : t.isWide = true) :
    Encoded (.v fn t.code q.toNat b.toNat a.toNat d.toNat 0x50) none (f t q d a b) :=
  vWord ⟨l, vty_lt t, by omega, by omega, by omega, by omega, by omega⟩ rfl rfl (by simp [decodeV, h, n, okIf, w])

theorem mat {f : Acc → Reg → Reg → Instr} (fn : Nat) (h : matOp2 fn = some f) (l : fn < 16) (d : Acc) (a b : Reg) :
    Encoded (.a fn b.toNat a.toNat d.toNat 0x68) none (f d a b) :=
  ⟨⟨⟨by omega, by omega, by omega, by omega, by omega⟩, rfl⟩, by
    have e1 : fn / 16 = 0 := by omega
    have e2 : fn % 16 = fn := by omega
    have e3 : d.toNat / 4 = 0 := by omega
    simp [decodeRaw, decodeA, e1, e2, e3, h, okIf], rfl⟩

theorem ret_or {ret c : Bool} {d : Reg} (w : (ret || d == 0) = true) : ret = true ∨ d = 0 ∨ c = true := by
  cases ret
  · exact .inr (.inl (by simpa using w))
  · exact .inl rfl

theorem wide_int {t : VTy} (w : (t.isWide && t.isInt) = true) : t.isWide = true ∧ t.isInt = true := by
  simpa using w

theorem add (d : Reg) (a : Reg) (b : OpB) : Statement (.add d a b) :=
  of_fields rfl fun _ => int2 0 rfl (by decide) d a b
theorem sub (d : Reg) (a : Reg) (b : OpB) : Statement (.sub d a b) :=
  of_fields rfl fun _ => int2 1 rfl (by decide) d a b
theorem mul (d : Reg) (a : Reg) (b : OpB) : Statement (.mul d a b) :=
  of_fields rfl fun _ => int2 2 rfl (by decide) d a b
theorem mulh (d : Reg) (a : Reg) (b : OpB) : Statement (.mulh d a b) :=
  of_fields rfl fun _ => int2 3 rfl (by decide) d a b
theorem mulhu (d : Reg) (a : Reg) (b : OpB) : Statement (.mulhu d a b) :=
  of_fields rfl fun _ => int2 4 rfl (by decide) d a b
theorem div (d : Reg) (a : Reg) (b : OpB) : Statement (.div d a b) :=
  of_fields rfl fun _ => int2 5 rfl (by decide) d a b
theorem divu (d : Reg) (a : Reg) (b : OpB) : Statement (.divu d a b) :=
  of_fields rfl fun _ => int2 6 rfl (by decide) d a b
theorem rem (d : Reg) (a : Reg) (b : OpB) : Statement (.rem d a b) :=
  of_fields rfl fun _ => int2 7 rfl (by decide) d a b
theorem remu (d : Reg) (a : Reg) (b : OpB) : Statement (.remu d a b) :=
  of_fields rfl fun _ => int2 8 rfl (by decide) d a b
theorem and (d : Reg) (a : Reg) (b : OpB) : Statement (.and d a b) :=
  of_fields rfl fun _ => int2 9 rfl (by decide) d a b
theorem or (d : Reg) (a : Reg) (b : OpB) : Statement (.or d a b) :=
  of_fields rfl fun _ => int2 10 rfl (by decide) d a b
theorem xor (d : Reg) (a : Reg) (b : OpB) : Statement (.xor d a b) :=
  of_fields rfl fun _ => int2 11 rfl (by decide) d a b
theorem shl (d : Reg) (a : Reg) (b : OpB) : Statement (.shl d a b) :=
  of_fields rfl fun _ => int2 12 rfl (by decide) d a b
theorem shr (d : Reg) (a : Reg) (b : OpB) : Statement (.shr d a b) :=
  of_fields rfl fun _ => int2 13 rfl (by decide) d a b
theorem sra (d : Reg) (a : Reg) (b : OpB) : Statement (.sra d a b) :=
  of_fields rfl fun _ => int2 14 rfl (by decide) d a b
theorem rotl (d : Reg) (a : Reg) (b : OpB) : Statement (.rotl d a b) :=
  of_fields rfl fun _ => int2 15 rfl (by decide) d a b
theorem min (d : Reg) (a : Reg) (b : OpB) : Statement (.min d a b) :=
  of_fields rfl fun _ => int2 16 rfl (by decide) d a b
theorem max (d : Reg) (a : Reg) (b : OpB) : Statement (.max d a b) :=
  of_fields rfl fun _ => int2 17 rfl (by decide) d a b
theorem minu (d : Reg) (a : Reg) (b : OpB) : Statement (.minu d a b) :=
  of_fields rfl fun _ => int2 18 rfl (by decide) d a b
theorem maxu (d : Reg) (a : Reg) (b : OpB) : Statement (.maxu d a b) :=
  of_fields rfl fun _ => int2 19 rfl (by decide) d a b
theorem slt (d : Reg) (a : Reg) (b : OpB) : Statement (.slt d a b) :=
  of_fields rfl fun _ => int2 20 rfl (by decide) d a b
theorem sltu (d : Reg) (a : Reg) (b : OpB) : Statement (.sltu d a b) :=
  of_fields rfl fun _ => int2 21 rfl (by decide) d a b
theorem clz (d : Reg) (a : Reg) : Statement (.clz d a) :=
  of_fields rfl fun _ => int1 22 rfl rfl (by decide) d a
theorem ctz (d : Reg) (a : Reg) : Statement (.ctz d a) :=
  of_fields rfl fun _ => int1 23 rfl rfl (by decide) d a
theorem popc (d : Reg) (a : Reg) : Statement (.popc d a) :=
  of_fields rfl fun _ => int1 24 rfl rfl (by decide) d a
theorem lea1 (d : Reg) (a : Reg) (b : OpB) : Statement (.lea1 d a b) :=
  of_fields rfl fun _ => int2 28 rfl (by decide) d a b
theorem lea2 (d : Reg) (a : Reg) (b : OpB) : Statement (.lea2 d a b) :=
  of_fields rfl fun _ => int2 29 rfl (by decide) d a b
theorem lea4 (d : Reg) (a : Reg) (b : OpB) : Statement (.lea4 d a b) :=
  of_fields rfl fun _ => int2 30 rfl (by decide) d a b
theorem lea8 (d : Reg) (a : Reg) (b : OpB) : Statement (.lea8 d a b) :=
  of_fields rfl fun _ => int2 31 rfl (by decide) d a b
theorem addK (d : Reg) (a : Reg) (k : BitVec 10) : Statement (.addK d a k) :=
  of_fields rfl fun _ => intK 0 rfl (by decide) d a k
theorem subK (d : Reg) (a : Reg) (k : BitVec 10) : Statement (.subK d a k) :=
  of_fields rfl fun _ => intK 1 rfl (by decide) d a k
theorem mulK (d : Reg) (a : Reg) (k : BitVec 10) : Statement (.mulK d a k) :=
  of_fields rfl fun _ => intK 2 rfl (by decide) d a k
theorem andK (d : Reg) (a : Reg) (k : BitVec 10) : Statement (.andK d a k) :=
  of_fields rfl fun _ => intK 3 rfl (by decide) d a k
theorem orK (d : Reg) (a : Reg) (k : BitVec 10) : Statement (.orK d a k) :=
  of_fields rfl fun _ => intK 4 rfl (by decide) d a k
theorem xorK (d : Reg) (a : Reg) (k : BitVec 10) : Statement (.xorK d a k) :=
  of_fields rfl fun _ => intK 5 rfl (by decide) d a k
theorem minK (d : Reg) (a : Reg) (k : BitVec 10) : Statement (.minK d a k) :=
  of_fields rfl fun _ => intK 6 rfl (by decide) d a k
theorem maxK (d : Reg) (a : Reg) (k : BitVec 10) : Statement (.maxK d a k) :=
  of_fields rfl fun _ => intK 7 rfl (by decide) d a k
theorem fadd (z : Prec) (r : Rnd) (d : Reg) (a : Reg) (b : OpB) : Statement (.fadd z r d a b) :=
  of_fields rfl fun _ => fpRnd 0 rfl (by decide) z r d a b
theorem fsub (z : Prec) (r : Rnd) (d : Reg) (a : Reg) (b : OpB) : Statement (.fsub z r d a b) :=
  of_fields rfl fun _ => fpRnd 1 rfl (by decide) z r d a b
theorem fmul (z : Prec) (r : Rnd) (d : Reg) (a : Reg) (b : OpB) : Statement (.fmul z r d a b) :=
  of_fields rfl fun _ => fpRnd 2 rfl (by decide) z r d a b
theorem fdiv (z : Prec) (r : Rnd) (d : Reg) (a : Reg) (b : OpB) : Statement (.fdiv z r d a b) :=
  of_fields rfl fun _ => fpRnd 3 rfl (by decide) z r d a b
theorem fmin (z : Prec) (d : Reg) (a : Reg) (b : OpB) : Statement (.fmin z d a b) :=
  of_fields rfl fun _ => fp2 5 rfl rfl (by decide) (by decide) z d a b
theorem fmax (z : Prec) (d : Reg) (a : Reg) (b : OpB) : Statement (.fmax z d a b) :=
  of_fields rfl fun _ => fp2 6 rfl rfl (by decide) (by decide) z d a b
theorem fabs (z : Prec) (d : Reg) (a : Reg) : Statement (.fabs z d a) :=
  of_fields rfl fun _ => fp1 7 rfl rfl rfl (by decide) (by decide) z d a
theorem fneg (z : Prec) (d : Reg) (a : Reg) : Statement (.fneg z d a) :=
  of_fields rfl fun _ => fp1 8 rfl rfl rfl (by decide) (by decide) z d a
theorem fclass (z : Prec) (d : Reg) (a : Reg) : Statement (.fclass z d a) :=
  of_fields rfl fun _ => fp1 9 rfl rfl rfl (by decide) (by decide) z d a
theorem fcmpEq (z : Prec) (d : Reg) (a : Reg) (b : OpB) : Statement (.fcmpEq z d a b) :=
  of_fields rfl fun _ => fp2 10 rfl rfl (by decide) (by decide) z d a b
theorem fcmpLt (z : Prec) (d : Reg) (a : Reg) (b : OpB) : Statement (.fcmpLt z d a b) :=
  of_fields rfl fun _ => fp2 11 rfl rfl (by decide) (by decide) z d a b
theorem fcmpLe (z : Prec) (d : Reg) (a : Reg) (b : OpB) : Statement (.fcmpLe z d a b) :=
  of_fields rfl fun _ => fp2 12 rfl rfl (by decide) (by decide) z d a b
theorem fcmpUn (z : Prec) (d : Reg) (a : Reg) (b : OpB) : Statement (.fcmpUn z d a b) :=
  of_fields rfl fun _ => fp2 13 rfl rfl (by decide) (by decide) z d a b
theorem fcvtSD (r : Rnd) (d : Reg) (a : Reg) : Statement (.fcvtSD r d a) :=
  of_fields rfl fun _ => Encodes.fcvt 0 rfl (by decide) r d a
theorem fcvtDS (r : Rnd) (d : Reg) (a : Reg) : Statement (.fcvtDS r d a) :=
  of_fields rfl fun _ => Encodes.fcvt 1 rfl (by decide) r d a
theorem fcvtSH (r : Rnd) (d : Reg) (a : Reg) : Statement (.fcvtSH r d a) :=
  of_fields rfl fun _ => Encodes.fcvt 2 rfl (by decide) r d a
theorem fcvtHS (r : Rnd) (d : Reg) (a : Reg) : Statement (.fcvtHS r d a) :=
  of_fields rfl fun _ => Encodes.fcvt 3 rfl (by decide) r d a
theorem fcvtSBf (r : Rnd) (d : Reg) (a : Reg) : Statement (.fcvtSBf r d a) :=
  of_fields rfl fun _ => Encodes.fcvt 4 rfl (by decide) r d a
theorem fcvtBfS (r : Rnd) (d : Reg) (a : Reg) : Statement (.fcvtBfS r d a) :=
  of_fields rfl fun _ => Encodes.fcvt 5 rfl (by decide) r d a
theorem fcvtSW (r : Rnd) (d : Reg) (a : Reg) : Statement (.fcvtSW r d a) :=
  of_fields rfl fun _ => Encodes.fcvt 6 rfl (by decide) r d a
theorem fcvtSWu (r : Rnd) (d : Reg) (a : Reg) : Statement (.fcvtSWu r d a) :=
  of_fields rfl fun _ => Encodes.fcvt 7 rfl (by decide) r d a
theorem fcvtSL (r : Rnd) (d : Reg) (a : Reg) : Statement (.fcvtSL r d a) :=
  of_fields rfl fun _ => Encodes.fcvt 8 rfl (by decide) r d a
theorem fcvtSLu (r : Rnd) (d : Reg) (a : Reg) : Statement (.fcvtSLu r d a) :=
  of_fields rfl fun _ => Encodes.fcvt 9 rfl (by decide) r d a
theorem fcvtDW (r : Rnd) (d : Reg) (a : Reg) : Statement (.fcvtDW r d a) :=
  of_fields rfl fun _ => Encodes.fcvt 10 rfl (by decide) r d a
theorem fcvtDWu (r : Rnd) (d : Reg) (a : Reg) : Statement (.fcvtDWu r d a) :=
  of_fields rfl fun _ => Encodes.fcvt 11 rfl (by decide) r d a
theorem fcvtDL (r : Rnd) (d : Reg) (a : Reg) : Statement (.fcvtDL r d a) :=
  of_fields rfl fun _ => Encodes.fcvt 12 rfl (by decide) r d a
theorem fcvtDLu (r : Rnd) (d : Reg) (a : Reg) : Statement (.fcvtDLu r d a) :=
  of_fields rfl fun _ => Encodes.fcvt 13 rfl (by decide) r d a
theorem fcvtWS (r : Rnd) (d : Reg) (a : Reg) : Statement (.fcvtWS r d a) :=
  of_fields rfl fun _ => Encodes.fcvt 14 rfl (by decide) r d a
theorem fcvtWuS (r : Rnd) (d : Reg) (a : Reg) : Statement (.fcvtWuS r d a) :=
  of_fields rfl fun _ => Encodes.fcvt 15 rfl (by decide) r d a
theorem fcvtLS (r : Rnd) (d : Reg) (a : Reg) : Statement (.fcvtLS r d a) :=
  of_fields rfl fun _ => Encodes.fcvt 16 rfl (by decide) r d a
theorem fcvtLuS (r : Rnd) (d : Reg) (a : Reg) : Statement (.fcvtLuS r d a) :=
  of_fields rfl fun _ => Encodes.fcvt 17 rfl (by decide) r d a
theorem fcvtWD (r : Rnd) (d : Reg) (a : Reg) : Statement (.fcvtWD r d a) :=
  of_fields rfl fun _ => Encodes.fcvt 18 rfl (by decide) r d a
theorem fcvtWuD (r : Rnd) (d : Reg) (a : Reg) : Statement (.fcvtWuD r d a) :=
  of_fields rfl fun _ => Encodes.fcvt 19 rfl (by decide) r d a
theorem fcvtLD (r : Rnd) (d : Reg) (a : Reg) : Statement (.fcvtLD r d a) :=
  of_fields rfl fun _ => Encodes.fcvt 20 rfl (by decide) r d a
theorem fcvtLuD (r : Rnd) (d : Reg) (a : Reg) : Statement (.fcvtLuD r d a) :=
  of_fields rfl fun _ => Encodes.fcvt 21 rfl (by decide) r d a
theorem faddK (z : Prec) (d : Reg) (a : Reg) (k : BitVec 10) : Statement (.faddK z d a k) :=
  of_fields rfl fun _ => fpK 0 rfl (by decide) z d a k
theorem fsubK (z : Prec) (d : Reg) (a : Reg) (k : BitVec 10) : Statement (.fsubK z d a k) :=
  of_fields rfl fun _ => fpK 1 rfl (by decide) z d a k
theorem fmulK (z : Prec) (d : Reg) (a : Reg) (k : BitVec 10) : Statement (.fmulK z d a k) :=
  of_fields rfl fun _ => fpK 2 rfl (by decide) z d a k
theorem ffmaK (z : Prec) (d : Reg) (a : Reg) (k : BitVec 10) : Statement (.ffmaK z d a k) :=
  of_fields rfl fun _ => fpK 3 rfl (by decide) z d a k
theorem beq (a : Reg) (b : Reg) (off : BitVec 12) : Statement (.beq a b off) :=
  of_fields rfl fun _ => br 0 rfl (by decide) a b off
theorem bne (a : Reg) (b : Reg) (off : BitVec 12) : Statement (.bne a b off) :=
  of_fields rfl fun _ => br 1 rfl (by decide) a b off
theorem blt (a : Reg) (b : Reg) (off : BitVec 12) : Statement (.blt a b off) :=
  of_fields rfl fun _ => br 2 rfl (by decide) a b off
theorem bge (a : Reg) (b : Reg) (off : BitVec 12) : Statement (.bge a b off) :=
  of_fields rfl fun _ => br 3 rfl (by decide) a b off
theorem bltu (a : Reg) (b : Reg) (off : BitVec 12) : Statement (.bltu a b off) :=
  of_fields rfl fun _ => br 4 rfl (by decide) a b off
theorem bgeu (a : Reg) (b : Reg) (off : BitVec 12) : Statement (.bgeu a b off) :=
  of_fields rfl fun _ => br 5 rfl (by decide) a b off
theorem amoaddAuto (o : Order) (ret : Bool) (p : Pal) (d : Reg) (a : Reg) (c : Reg) : Statement (.amoaddAuto o ret p d a c) :=
  of_fields rfl fun w => amo 0x30 0 rfl rfl (by decide) (by decide) o ret p d a c (ret_or w)
theorem amominAuto (o : Order) (ret : Bool) (p : Pal) (d : Reg) (a : Reg) (c : Reg) : Statement (.amominAuto o ret p d a c) :=
  of_fields rfl fun w => amo 0x30 1 rfl rfl (by decide) (by decide) o ret p d a c (ret_or w)
theorem amomaxAuto (o : Order) (ret : Bool) (p : Pal) (d : Reg) (a : Reg) (c : Reg) : Statement (.amomaxAuto o ret p d a c) :=
  of_fields rfl fun w => amo 0x30 2 rfl rfl (by decide) (by decide) o ret p d a c (ret_or w)
theorem amominuAuto (o : Order) (ret : Bool) (p : Pal) (d : Reg) (a : Reg) (c : Reg) : Statement (.amominuAuto o ret p d a c) :=
  of_fields rfl fun w => amo 0x30 3 rfl rfl (by decide) (by decide) o ret p d a c (ret_or w)
theorem amomaxuAuto (o : Order) (ret : Bool) (p : Pal) (d : Reg) (a : Reg) (c : Reg) : Statement (.amomaxuAuto o ret p d a c) :=
  of_fields rfl fun w => amo 0x30 4 rfl rfl (by decide) (by decide) o ret p d a c (ret_or w)
theorem amofaddSAuto (o : Order) (ret : Bool) (p : Pal) (d : Reg) (a : Reg) (c : Reg) : Statement (.amofaddSAuto o ret p d a c) :=
  of_fields rfl fun w => amo 0x30 5 rfl rfl (by decide) (by decide) o ret p d a c (ret_or w)
theorem amofaddDAuto (o : Order) (ret : Bool) (p : Pal) (d : Reg) (a : Reg) (c : Reg) : Statement (.amofaddDAuto o ret p d a c) :=
  of_fields rfl fun w => amo 0x30 6 rfl rfl (by decide) (by decide) o ret p d a c (ret_or w)
theorem amoaddLoc (o : Order) (ret : Bool) (p : Pal) (d : Reg) (a : Reg) (c : Reg) : Statement (.amoaddLoc o ret p d a c) :=
  of_fields rfl fun w => amo 0x31 0 rfl rfl (by decide) (by decide) o ret p d a c (ret_or w)
theorem amominLoc (o : Order) (ret : Bool) (p : Pal) (d : Reg) (a : Reg) (c : Reg) : Statement (.amominLoc o ret p d a c) :=
  of_fields rfl fun w => amo 0x31 1 rfl rfl (by decide) (by decide) o ret p d a c (ret_or w)
theorem amomaxLoc (o : Order) (ret : Bool) (p : Pal) (d : Reg) (a : Reg) (c : Reg) : Statement (.amomaxLoc o ret p d a c) :=
  of_fields rfl fun w => amo 0x31 2 rfl rfl (by decide) (by decide) o ret p d a c (ret_or w)
theorem amominuLoc (o : Order) (ret : Bool) (p : Pal) (d : Reg) (a : Reg) (c : Reg) : Statement (.amominuLoc o ret p d a c) :=
  of_fields rfl fun w => amo 0x31 3 rfl rfl (by decide) (by decide) o ret p d a c (ret_or w)
theorem amomaxuLoc (o : Order) (ret : Bool) (p : Pal) (d : Reg) (a : Reg) (c : Reg) : Statement (.amomaxuLoc o ret p d a c) :=
  of_fields rfl fun w => amo 0x31 4 rfl rfl (by decide) (by decide) o ret p d a c (ret_or w)
theorem amofaddSLoc (o : Order) (ret : Bool) (p : Pal) (d : Reg) (a : Reg) (c : Reg) : Statement (.amofaddSLoc o ret p d a c) :=
  of_fields rfl fun w => amo 0x31 5 rfl rfl (by decide) (by decide) o ret p d a c (ret_or w)
theorem amofaddDLoc (o : Order) (ret : Bool) (p : Pal) (d : Reg) (a : Reg) (c : Reg) : Statement (.amofaddDLoc o ret p d a c) :=
  of_fields rfl fun w => amo 0x31 6 rfl rfl (by decide) (by decide) o ret p d a c (ret_or w)
theorem amoaddHome (o : Order) (ret : Bool) (p : Pal) (d : Reg) (a : Reg) (c : Reg) : Statement (.amoaddHome o ret p d a c) :=
  of_fields rfl fun w => amo 0x32 0 rfl rfl (by decide) (by decide) o ret p d a c (ret_or w)
theorem amominHome (o : Order) (ret : Bool) (p : Pal) (d : Reg) (a : Reg) (c : Reg) : Statement (.amominHome o ret p d a c) :=
  of_fields rfl fun w => amo 0x32 1 rfl rfl (by decide) (by decide) o ret p d a c (ret_or w)
theorem amomaxHome (o : Order) (ret : Bool) (p : Pal) (d : Reg) (a : Reg) (c : Reg) : Statement (.amomaxHome o ret p d a c) :=
  of_fields rfl fun w => amo 0x32 2 rfl rfl (by decide) (by decide) o ret p d a c (ret_or w)
theorem amominuHome (o : Order) (ret : Bool) (p : Pal) (d : Reg) (a : Reg) (c : Reg) : Statement (.amominuHome o ret p d a c) :=
  of_fields rfl fun w => amo 0x32 3 rfl rfl (by decide) (by decide) o ret p d a c (ret_or w)
theorem amomaxuHome (o : Order) (ret : Bool) (p : Pal) (d : Reg) (a : Reg) (c : Reg) : Statement (.amomaxuHome o ret p d a c) :=
  of_fields rfl fun w => amo 0x32 4 rfl rfl (by decide) (by decide) o ret p d a c (ret_or w)
theorem amofaddSHome (o : Order) (ret : Bool) (p : Pal) (d : Reg) (a : Reg) (c : Reg) : Statement (.amofaddSHome o ret p d a c) :=
  of_fields rfl fun w => amo 0x32 5 rfl rfl (by decide) (by decide) o ret p d a c (ret_or w)
theorem amofaddDHome (o : Order) (ret : Bool) (p : Pal) (d : Reg) (a : Reg) (c : Reg) : Statement (.amofaddDHome o ret p d a c) :=
  of_fields rfl fun w => amo 0x32 6 rfl rfl (by decide) (by decide) o ret p d a c (ret_or w)
theorem amoandAuto (o : Order) (ret : Bool) (p : Pal) (d : Reg) (a : Reg) (c : Reg) : Statement (.amoandAuto o ret p d a c) :=
  of_fields rfl fun w => amo 0x33 0 rfl rfl (by decide) (by decide) o ret p d a c (ret_or w)
theorem amoorAuto (o : Order) (ret : Bool) (p : Pal) (d : Reg) (a : Reg) (c : Reg) : Statement (.amoorAuto o ret p d a c) :=
  of_fields rfl fun w => amo 0x33 1 rfl rfl (by decide) (by decide) o ret p d a c (ret_or w)
theorem amoxorAuto (o : Order) (ret : Bool) (p : Pal) (d : Reg) (a : Reg) (c : Reg) : Statement (.amoxorAuto o ret p d a c) :=
  of_fields rfl fun w => amo 0x33 2 rfl rfl (by decide) (by decide) o ret p d a c (ret_or w)
theorem amoswapAuto (o : Order) (ret : Bool) (p : Pal) (d : Reg) (a : Reg) (c : Reg) : Statement (.amoswapAuto o ret p d a c) :=
  of_fields rfl fun w => amo 0x33 3 rfl rfl (by decide) (by decide) o ret p d a c (ret_or w)
theorem amocasAuto (o : Order) (ret : Bool) (p : Pal) (d : Reg) (a : Reg) (c : Reg) : Statement (.amocasAuto o ret p d a c) :=
  of_fields rfl fun _ => amo 0x33 4 rfl rfl (by decide) (by decide) o ret p d a c (.inr (.inr rfl))
theorem amoandLoc (o : Order) (ret : Bool) (p : Pal) (d : Reg) (a : Reg) (c : Reg) : Statement (.amoandLoc o ret p d a c) :=
  of_fields rfl fun w => amo 0x34 0 rfl rfl (by decide) (by decide) o ret p d a c (ret_or w)
theorem amoorLoc (o : Order) (ret : Bool) (p : Pal) (d : Reg) (a : Reg) (c : Reg) : Statement (.amoorLoc o ret p d a c) :=
  of_fields rfl fun w => amo 0x34 1 rfl rfl (by decide) (by decide) o ret p d a c (ret_or w)
theorem amoxorLoc (o : Order) (ret : Bool) (p : Pal) (d : Reg) (a : Reg) (c : Reg) : Statement (.amoxorLoc o ret p d a c) :=
  of_fields rfl fun w => amo 0x34 2 rfl rfl (by decide) (by decide) o ret p d a c (ret_or w)
theorem amoswapLoc (o : Order) (ret : Bool) (p : Pal) (d : Reg) (a : Reg) (c : Reg) : Statement (.amoswapLoc o ret p d a c) :=
  of_fields rfl fun w => amo 0x34 3 rfl rfl (by decide) (by decide) o ret p d a c (ret_or w)
theorem amocasLoc (o : Order) (ret : Bool) (p : Pal) (d : Reg) (a : Reg) (c : Reg) : Statement (.amocasLoc o ret p d a c) :=
  of_fields rfl fun _ => amo 0x34 4 rfl rfl (by decide) (by decide) o ret p d a c (.inr (.inr rfl))
theorem amoandHome (o : Order) (ret : Bool) (p : Pal) (d : Reg) (a : Reg) (c : Reg) : Statement (.amoandHome o ret p d a c) :=
  of_fields rfl fun w => amo 0x35 0 rfl rfl (by decide) (by decide) o ret p d a c (ret_or w)
theorem amoorHome (o : Order) (ret : Bool) (p : Pal) (d : Reg) (a : Reg) (c : Reg) : Statement (.amoorHome o ret p d a c) :=
  of_fields rfl fun w => amo 0x35 1 rfl rfl (by decide) (by decide) o ret p d a c (ret_or w)
theorem amoxorHome (o : Order) (ret : Bool) (p : Pal) (d : Reg) (a : Reg) (c : Reg) : Statement (.amoxorHome o ret p d a c) :=
  of_fields rfl fun w => amo 0x35 2 rfl rfl (by decide) (by decide) o ret p d a c (ret_or w)
theorem amoswapHome (o : Order) (ret : Bool) (p : Pal) (d : Reg) (a : Reg) (c : Reg) : Statement (.amoswapHome o ret p d a c) :=
  of_fields rfl fun w => amo 0x35 3 rfl rfl (by decide) (by decide) o ret p d a c (ret_or w)
theorem amocasHome (o : Order) (ret : Bool) (p : Pal) (d : Reg) (a : Reg) (c : Reg) : Statement (.amocasHome o ret p d a c) :=
  of_fields rfl fun _ => amo 0x35 4 rfl rfl (by decide) (by decide) o ret p d a c (.inr (.inr rfl))
theorem vamoAdd (t : VTy) (q : QReg) (s : Reg) (a : VReg) (b : VReg) : Statement (.vamoAdd t q s a b) :=
  of_fields rfl fun w => vamo 0 rfl (by decide) t q s a b ⟨w, .inl (by decide)⟩
theorem vamoMin (t : VTy) (q : QReg) (s : Reg) (a : VReg) (b : VReg) : Statement (.vamoMin t q s a b) :=
  of_fields rfl fun w => vamo 1 rfl (by decide) t q s a b ⟨w, .inl (by decide)⟩
theorem vamoMax (t : VTy) (q : QReg) (s : Reg) (a : VReg) (b : VReg) : Statement (.vamoMax t q s a b) :=
  of_fields rfl fun w => vamo 2 rfl (by decide) t q s a b ⟨w, .inl (by decide)⟩
theorem vamoMinu (t : VTy) (q : QReg) (s : Reg) (a : VReg) (b : VReg) : Statement (.vamoMinu t q s a b) :=
  of_fields rfl fun w => vamo 3 rfl (by decide) t q s a b ⟨(wide_int w).1, .inr (wide_int w).2⟩
theorem vamoMaxu (t : VTy) (q : QReg) (s : Reg) (a : VReg) (b : VReg) : Statement (.vamoMaxu t q s a b) :=
  of_fields rfl fun w => vamo 4 rfl (by decide) t q s a b ⟨(wide_int w).1, .inr (wide_int w).2⟩
theorem vamoAnd (t : VTy) (q : QReg) (s : Reg) (a : VReg) (b : VReg) : Statement (.vamoAnd t q s a b) :=
  of_fields rfl fun w => vamo 5 rfl (by decide) t q s a b ⟨(wide_int w).1, .inr (wide_int w).2⟩
theorem vamoOr (t : VTy) (q : QReg) (s : Reg) (a : VReg) (b : VReg) : Statement (.vamoOr t q s a b) :=
  of_fields rfl fun w => vamo 6 rfl (by decide) t q s a b ⟨(wide_int w).1, .inr (wide_int w).2⟩
theorem vamoXor (t : VTy) (q : QReg) (s : Reg) (a : VReg) (b : VReg) : Statement (.vamoXor t q s a b) :=
  of_fields rfl fun w => vamo 7 rfl (by decide) t q s a b ⟨(wide_int w).1, .inr (wide_int w).2⟩
theorem vadd (t : VTy) (q : QReg) (d : VReg) (a : VReg) (b : VReg) : Statement (.vadd t q d a b) :=
  of_fields rfl fun _ => vbin 0x40 0 rfl rfl (by decide) (by decide) t q d a b rfl
theorem vsub (t : VTy) (q : QReg) (d : VReg) (a : VReg) (b : VReg) : Statement (.vsub t q d a b) :=
  of_fields rfl fun _ => vbin 0x40 1 rfl rfl (by decide) (by decide) t q d a b rfl
theorem vmul (t : VTy) (q : QReg) (d : VReg) (a : VReg) (b : VReg) : Statement (.vmul t q d a b) :=
  of_fields rfl fun _ => vbin 0x40 2 rfl rfl (by decide) (by decide) t q d a b rfl
theorem vmulh (t : VTy) (q : QReg) (d : VReg) (a : VReg) (b : VReg) : Statement (.vmulh t q d a b) :=
  of_fields rfl fun w => vbin 0x40 3 rfl rfl (by decide) (by decide) t q d a b w
theorem vdiv (t : VTy) (q : QReg) (d : VReg) (a : VReg) (b : VReg) : Statement (.vdiv t q d a b) :=
  of_fields rfl fun _ => vbin 0x40 4 rfl rfl (by decide) (by decide) t q d a b rfl
theorem vmin (t : VTy) (q : QReg) (d : VReg) (a : VReg) (b : VReg) : Statement (.vmin t q d a b) :=
  of_fields rfl fun _ => vbin 0x40 5 rfl rfl (by decide) (by decide) t q d a b rfl
theorem vmax (t : VTy) (q : QReg) (d : VReg) (a : VReg) (b : VReg) : Statement (.vmax t q d a b) :=
  of_fields rfl fun _ => vbin 0x40 6 rfl rfl (by decide) (by decide) t q d a b rfl
theorem vand (t : VTy) (q : QReg) (d : VReg) (a : VReg) (b : VReg) : Statement (.vand t q d a b) :=
  of_fields rfl fun _ => vbin 0x40 8 rfl rfl (by decide) (by decide) t q d a b rfl
theorem vor (t : VTy) (q : QReg) (d : VReg) (a : VReg) (b : VReg) : Statement (.vor t q d a b) :=
  of_fields rfl fun _ => vbin 0x40 9 rfl rfl (by decide) (by decide) t q d a b rfl
theorem vxor (t : VTy) (q : QReg) (d : VReg) (a : VReg) (b : VReg) : Statement (.vxor t q d a b) :=
  of_fields rfl fun _ => vbin 0x40 10 rfl rfl (by decide) (by decide) t q d a b rfl
theorem vshl (t : VTy) (q : QReg) (d : VReg) (a : VReg) (b : VReg) : Statement (.vshl t q d a b) :=
  of_fields rfl fun w => vbin 0x40 11 rfl rfl (by decide) (by decide) t q d a b w
theorem vshr (t : VTy) (q : QReg) (d : VReg) (a : VReg) (b : VReg) : Statement (.vshr t q d a b) :=
  of_fields rfl fun w => vbin 0x40 12 rfl rfl (by decide) (by decide) t q d a b w
theorem vsra (t : VTy) (q : QReg) (d : VReg) (a : VReg) (b : VReg) : Statement (.vsra t q d a b) :=
  of_fields rfl fun w => vbin 0x40 13 rfl rfl (by decide) (by decide) t q d a b w
theorem vaddSs (t : VTy) (q : QReg) (d : VReg) (a : VReg) (b : VReg) : Statement (.vaddSs t q d a b) :=
  of_fields rfl fun w => vbin 0x41 0 rfl rfl (by decide) (by decide) t q d a b w
theorem vsubSs (t : VTy) (q : QReg) (d : VReg) (a : VReg) (b : VReg) : Statement (.vsubSs t q d a b) :=
  of_fields rfl fun w => vbin 0x41 1 rfl rfl (by decide) (by decide) t q d a b w
theorem vaddUs (t : VTy) (q : QReg) (d : VReg) (a : VReg) (b : VReg) : Statement (.vaddUs t q d a b) :=
  of_fields rfl fun w => vbin 0x41 2 rfl rfl (by decide) (by decide) t q d a b w
theorem vsubUs (t : VTy) (q : QReg) (d : VReg) (a : VReg) (b : VReg) : Statement (.vsubUs t q d a b) :=
  of_fields rfl fun w => vbin 0x41 3 rfl rfl (by decide) (by decide) t q d a b w
theorem vmulhU (t : VTy) (q : QReg) (d : VReg) (a : VReg) (b : VReg) : Statement (.vmulhU t q d a b) :=
  of_fields rfl fun w => vbin 0x41 4 rfl rfl (by decide) (by decide) t q d a b w
theorem vminU (t : VTy) (q : QReg) (d : VReg) (a : VReg) (b : VReg) : Statement (.vminU t q d a b) :=
  of_fields rfl fun w => vbin 0x41 5 rfl rfl (by decide) (by decide) t q d a b w
theorem vmaxU (t : VTy) (q : QReg) (d : VReg) (a : VReg) (b : VReg) : Statement (.vmaxU t q d a b) :=
  of_fields rfl fun w => vbin 0x41 6 rfl rfl (by decide) (by decide) t q d a b w
theorem vdivU (t : VTy) (q : QReg) (d : VReg) (a : VReg) (b : VReg) : Statement (.vdivU t q d a b) :=
  of_fields rfl fun w => vbin 0x41 7 rfl rfl (by decide) (by decide) t q d a b w
theorem vfma (t : VTy) (q : QReg) (d : VReg) (a : VReg) (b : VReg) : Statement (.vfma t q d a b) :=
  of_fields rfl fun _ => vbin 0x42 0 rfl rfl (by decide) (by decide) t q d a b rfl
theorem vfms (t : VTy) (q : QReg) (d : VReg) (a : VReg) (b : VReg) : Statement (.vfms t q d a b) :=
  of_fields rfl fun _ => vbin 0x42 1 rfl rfl (by decide) (by decide) t q d a b rfl
theorem vcmpEq (t : VTy) (q : QReg) (d : QReg) (a : VReg) (b : VReg) : Statement (.vcmpEq t q d a b) :=
  of_fields rfl fun _ => vcmp 0 rfl (by decide) t q d a b rfl
theorem vcmpNe (t : VTy) (q : QReg) (d : QReg) (a : VReg) (b : VReg) : Statement (.vcmpNe t q d a b) :=
  of_fields rfl fun _ => vcmp 1 rfl (by decide) t q d a b rfl
theorem vcmpLt (t : VTy) (q : QReg) (d : QReg) (a : VReg) (b : VReg) : Statement (.vcmpLt t q d a b) :=
  of_fields rfl fun _ => vcmp 2 rfl (by decide) t q d a b rfl
theorem vcmpLe (t : VTy) (q : QReg) (d : QReg) (a : VReg) (b : VReg) : Statement (.vcmpLe t q d a b) :=
  of_fields rfl fun _ => vcmp 3 rfl (by decide) t q d a b rfl
theorem vcmpLtu (t : VTy) (q : QReg) (d : QReg) (a : VReg) (b : VReg) : Statement (.vcmpLtu t q d a b) :=
  of_fields rfl fun w => vcmp 4 rfl (by decide) t q d a b w
theorem vcmpLeu (t : VTy) (q : QReg) (d : QReg) (a : VReg) (b : VReg) : Statement (.vcmpLeu t q d a b) :=
  of_fields rfl fun w => vcmp 5 rfl (by decide) t q d a b w
theorem vcmpUn (t : VTy) (q : QReg) (d : QReg) (a : VReg) (b : VReg) : Statement (.vcmpUn t q d a b) :=
  of_fields rfl fun w => vcmp 6 rfl (by decide) t q d a b w
theorem vsel (t : VTy) (q : QReg) (d : VReg) (a : VReg) (b : VReg) : Statement (.vsel t q d a b) :=
  of_fields rfl fun _ => vbin 0x46 0 rfl rfl (by decide) (by decide) t q d a b rfl
theorem vperm (t : VTy) (q : QReg) (d : VReg) (a : VReg) (b : VReg) : Statement (.vperm t q d a b) :=
  of_fields rfl fun _ => vbin 0x48 0 rfl rfl (by decide) (by decide) t q d a b rfl
theorem vredAdd (t : VTy) (q : QReg) (d : Reg) (a : VReg) : Statement (.vredAdd t q d a) :=
  of_fields rfl fun _ => vred 0 rfl (by decide) t q d a (.inl (by decide))
theorem vredMin (t : VTy) (q : QReg) (d : Reg) (a : VReg) : Statement (.vredMin t q d a) :=
  of_fields rfl fun _ => vred 1 rfl (by decide) t q d a (.inl (by decide))
theorem vredMax (t : VTy) (q : QReg) (d : Reg) (a : VReg) : Statement (.vredMax t q d a) :=
  of_fields rfl fun _ => vred 2 rfl (by decide) t q d a (.inl (by decide))
theorem vredMinu (t : VTy) (q : QReg) (d : Reg) (a : VReg) : Statement (.vredMinu t q d a) :=
  of_fields rfl fun w => vred 3 rfl (by decide) t q d a (.inr w)
theorem vredMaxu (t : VTy) (q : QReg) (d : Reg) (a : VReg) : Statement (.vredMaxu t q d a) :=
  of_fields rfl fun w => vred 4 rfl (by decide) t q d a (.inr w)
theorem vredAnd (t : VTy) (q : QReg) (d : Reg) (a : VReg) : Statement (.vredAnd t q d a) :=
  of_fields rfl fun w => vred 5 rfl (by decide) t q d a (.inr w)
theorem vredOr (t : VTy) (q : QReg) (d : Reg) (a : VReg) : Statement (.vredOr t q d a) :=
  of_fields rfl fun w => vred 6 rfl (by decide) t q d a (.inr w)
theorem vredXor (t : VTy) (q : QReg) (d : Reg) (a : VReg) : Statement (.vredXor t q d a) :=
  of_fields rfl fun w => vred 7 rfl (by decide) t q d a (.inr w)
theorem vscanAdd (t : VTy) (q : QReg) (d : VReg) (a : VReg) : Statement (.vscanAdd t q d a) :=
  of_fields rfl fun _ => vscan 0 rfl (by decide) t q d a
theorem vscanAddx (t : VTy) (q : QReg) (d : VReg) (a : VReg) : Statement (.vscanAddx t q d a) :=
  of_fields rfl fun _ => vscan 1 rfl (by decide) t q d a
theorem vscanMax (t : VTy) (q : QReg) (d : VReg) (a : VReg) : Statement (.vscanMax t q d a) :=
  of_fields rfl fun _ => vscan 2 rfl (by decide) t q d a
theorem vscanMin (t : VTy) (q : QReg) (d : VReg) (a : VReg) : Statement (.vscanMin t q d a) :=
  of_fields rfl fun _ => vscan 3 rfl (by decide) t q d a
theorem vdot (t : VTy) (q : QReg) (d : VReg) (a : VReg) (b : VReg) : Statement (.vdot t q d a b) :=
  of_fields rfl fun w => vbin 0x4B 0 rfl rfl (by decide) (by decide) t q d a b w
theorem vdotU (t : VTy) (q : QReg) (d : VReg) (a : VReg) (b : VReg) : Statement (.vdotU t q d a b) :=
  of_fields rfl fun w => vbin 0x4B 1 rfl rfl (by decide) (by decide) t q d a b w
theorem vld (t : VTy) (q : QReg) (d : VReg) (a : Reg) (b : Reg) : Statement (.vld t q d a b) :=
  of_fields rfl fun _ => vmem 0 rfl (by decide) t q d a b
theorem vst (t : VTy) (q : QReg) (d : VReg) (a : Reg) (b : Reg) : Statement (.vst t q d a b) :=
  of_fields rfl fun _ => vmem 1 rfl (by decide) t q d a b
theorem vlds (t : VTy) (q : QReg) (d : VReg) (a : Reg) (b : Reg) : Statement (.vlds t q d a b) :=
  of_fields rfl fun _ => vmem 2 rfl (by decide) t q d a b
theorem vsts (t : VTy) (q : QReg) (d : VReg) (a : Reg) (b : Reg) : Statement (.vsts t q d a b) :=
  of_fields rfl fun _ => vmem 3 rfl (by decide) t q d a b
theorem vldx (t : VTy) (q : QReg) (d : VReg) (a : Reg) (b : VReg) : Statement (.vldx t q d a b) :=
  of_fields rfl fun w => vmemI 4 rfl rfl (by decide) t q d a b w
theorem vstx (t : VTy) (q : QReg) (d : VReg) (a : Reg) (b : VReg) : Statement (.vstx t q d a b) :=
  of_fields rfl fun w => vmemI 5 rfl rfl (by decide) t q d a b w
theorem mma (d : Acc) (a : Reg) (b : Reg) : Statement (.mma d a b) :=
  of_fields rfl fun _ => mat 0 rfl (by decide) d a b
theorem mmas (d : Acc) (a : Reg) (b : Reg) : Statement (.mmas d a b) :=
  of_fields rfl fun _ => mat 1 rfl (by decide) d a b
theorem mgangMma (d : Acc) (a : Reg) (b : Reg) : Statement (.mgangMma d a b) :=
  of_fields rfl fun _ => mat 2 rfl (by decide) d a b
theorem mgangMmas (d : Acc) (a : Reg) (b : Reg) : Statement (.mgangMmas d a b) :=
  of_fields rfl fun _ => mat 3 rfl (by decide) d a b
theorem mrec (d : Acc) (a : Reg) (b : Reg) : Statement (.mrec d a b) :=
  of_fields rfl fun _ => mat 4 rfl (by decide) d a b
theorem sumstatRead (x0 : Reg) (x1 : Nat) : Statement (.sumstatRead x0 x1) :=
  of_none rfl
theorem eventConfigStore (x0 : BitVec 5) (x1 : Reg) : Statement (.eventConfigStore x0 x1) :=
  of_none rfl
theorem fwctlWrite (x0 : Nat) (x1 : Word) : Statement (.fwctlWrite x0 x1) :=
  of_none rfl
theorem oportcfgWrite (x0 : Nat) (x1 : Nat) (x2 : Word) : Statement (.oportcfgWrite x0 x1 x2) :=
  of_none rfl
theorem laneRetire (x0 : Nat) (x1 : Nat) : Statement (.laneRetire x0 x1) :=
  of_none rfl
theorem fwRegisterWrite (x0 : FwReg) (x1 : Word) : Statement (.fwRegisterWrite x0 x1) :=
  of_none rfl
theorem uxEntry : Statement .uxEntry :=
  of_none rfl
theorem schedulingEvent : Statement .schedulingEvent :=
  of_none rfl
theorem threadSwitch : Statement .threadSwitch :=
  of_none rfl
theorem budgetRefresh : Statement .budgetRefresh :=
  of_none rfl
theorem tmma (x0 : Nat) (x1 : Nat) (x2 : Nat) : Statement (.tmma x0 x1 x2) :=
  of_none rfl
theorem tmmas (x0 : Nat) (x1 : Nat) (x2 : Nat) : Statement (.tmmas x0 x1 x2) :=
  of_none rfl
theorem tmrec (x0 : Nat) (x1 : Nat) (x2 : Nat) : Statement (.tmrec x0 x1 x2) :=
  of_none rfl
theorem copy (x0 : Nat) (x1 : Nat) (x2 : Nat) : Statement (.copy x0 x1 x2) :=
  of_none rfl
theorem fill (x0 : Nat) (x1 : Nat) (x2 : Nat) : Statement (.fill x0 x1 x2) :=
  of_none rfl
theorem gather32 (x0 : Nat) (x1 : Nat) (x2 : Nat) : Statement (.gather32 x0 x1 x2) :=
  of_none rfl
theorem scatter32 (x0 : Nat) (x1 : Nat) (x2 : Nat) : Statement (.scatter32 x0 x1 x2) :=
  of_none rfl
theorem merge (x0 : Nat) (x1 : Nat) (x2 : Nat) : Statement (.merge x0 x1 x2) :=
  of_none rfl
theorem compact (x0 : Nat) (x1 : Nat) (x2 : Nat) : Statement (.compact x0 x1 x2) :=
  of_none rfl
theorem osum (x0 : Nat) (x1 : Nat) (x2 : Nat) : Statement (.osum x0 x1 x2) :=
  of_none rfl
theorem osumb (x0 : Nat) (x1 : Nat) (x2 : Nat) : Statement (.osumb x0 x1 x2) :=
  of_none rfl
theorem omax (x0 : Nat) (x1 : Nat) (x2 : Nat) : Statement (.omax x0 x1 x2) :=
  of_none rfl
theorem obcast (x0 : Nat) (x1 : Nat) (x2 : Nat) : Statement (.obcast x0 x1 x2) :=
  of_none rfl
theorem olink (x0 : Nat) (x1 : Nat) (x2 : Nat) : Statement (.olink x0 x1 x2) :=
  of_none rfl
theorem segmentLanded (x0 : Nat) (x1 : Nat) : Statement (.segmentLanded x0 x1) :=
  of_none rfl
theorem commandCompletion (x0 : Nat) (x1 : Nat) (x2 : Nat) : Statement (.commandCompletion x0 x1 x2) :=
  of_none rfl
theorem matrixOperation (x0 : Nat) : Statement (.matrixOperation x0) :=
  of_none rfl
theorem doorbell (x0 : Nat) (x1 : Nat) (x2 : W32) : Statement (.doorbell x0 x1 x2) :=
  of_none rfl
theorem queueStateWrite (x0 : Nat) (x1 : Nat) (x2 : Byte) : Statement (.queueStateWrite x0 x1 x2) :=
  of_none rfl
theorem packetFetch (x0 : Nat) (x1 : Nat) : Statement (.packetFetch x0 x1) :=
  of_none rfl
theorem launch (x0 : Nat) (x1 : Nat) : Statement (.launch x0 x1) :=
  of_none rfl
theorem indirect (x0 : Nat) (x1 : Nat) : Statement (.indirect x0 x1) :=
  of_none rfl
theorem loop (x0 : Nat) (x1 : Nat) : Statement (.loop x0 x1) :=
  of_none rfl
theorem predicate (x0 : Nat) (x1 : Nat) : Statement (.predicate x0 x1) :=
  of_none rfl
theorem fetchFence (x0 : Nat) (x1 : Nat) : Statement (.fetchFence x0 x1) :=
  of_none rfl
theorem gatePoll (x0 : Nat) (x1 : Nat) : Statement (.gatePoll x0 x1) :=
  of_none rfl
theorem timestamp (x0 : Nat) (x1 : Nat) : Statement (.timestamp x0 x1) :=
  of_none rfl
theorem nopPacket (x0 : Nat) (x1 : Nat) : Statement (.nopPacket x0 x1) :=
  of_none rfl
theorem launchDispatch (x0 : Nat) : Statement (.launchDispatch x0) :=
  of_none rfl
theorem launchStart (x0 : Nat) (x1 : Nat) : Statement (.launchStart x0 x1) :=
  of_none rfl
theorem imageMulticastDone (x0 : Nat) (x1 : Nat) : Statement (.imageMulticastDone x0 x1) :=
  of_none rfl
theorem launchComplete (x0 : Nat) (x1 : Nat) : Statement (.launchComplete x0 x1) :=
  of_none rfl
theorem budgetOverrun (x0 : Nat) (x1 : Nat) (x2 : BitVec 2) : Statement (.budgetOverrun x0 x1 x2) :=
  of_none rfl
theorem graceExpiry (x0 : Nat) (x1 : Nat) (x2 : BitVec 2) : Statement (.graceExpiry x0 x1 x2) :=
  of_none rfl
theorem deadlineMissed (x0 : Nat) (x1 : Nat) : Statement (.deadlineMissed x0 x1) :=
  of_none rfl
theorem stageRebalance (x0 : Nat) (x1 : Nat) : Statement (.stageRebalance x0 x1) :=
  of_none rfl
theorem stageJoin (x0 : Nat) : Statement (.stageJoin x0) :=
  of_none rfl
theorem recordDispatch (x0 : Nat) : Statement (.recordDispatch x0) :=
  of_none rfl
theorem stagedLaunchEnd (x0 : Nat) (x1 : Nat) : Statement (.stagedLaunchEnd x0 x1) :=
  of_none rfl
theorem messageDelivery (x0 : Nat) : Statement (.messageDelivery x0) :=
  of_none rfl
theorem chainMessage (x0 : Nat) : Statement (.chainMessage x0) :=
  of_none rfl
theorem paletteInvalidate (x0 : Nat) : Statement (.paletteInvalidate x0) :=
  of_none rfl
theorem paletteInstall (x0 : Nat) : Statement (.paletteInstall x0) :=
  of_none rfl
theorem paletteAck (x0 : Nat) : Statement (.paletteAck x0) :=
  of_none rfl
theorem storePerform (x0 : Nat) : Statement (.storePerform x0) :=
  of_none rfl
theorem amoPerform (x0 : Nat) : Statement (.amoPerform x0) :=
  of_none rfl
theorem streamFetchAhead (x0 : Nat) (x1 : Nat) (x2 : BitVec 3) : Statement (.streamFetchAhead x0 x1 x2) :=
  of_none rfl
theorem preempt (x0 : Nat) : Statement (.preempt x0) :=
  of_none rfl
theorem preemptiblePoint (x0 : Nat) : Statement (.preemptiblePoint x0) :=
  of_none rfl
theorem resume (x0 : Nat) (x1 : Nat) : Statement (.resume x0 x1) :=
  of_none rfl
theorem eviction (x0 : Nat) (x1 : Nat) (x2 : Nat) : Statement (.eviction x0 x1 x2) :=
  of_none rfl
theorem hostFaultAnswer (x0 : Nat) (x1 : Bool) : Statement (.hostFaultAnswer x0 x1) :=
  of_none rfl
theorem invalidationRequest (x0 : Nat) (x1 : Word) (x2 : Word) (x3 : Word) : Statement (.invalidationRequest x0 x1 x2 x3) :=
  of_none rfl
theorem invalidationComplete (x0 : Nat) : Statement (.invalidationComplete x0) :=
  of_none rfl
theorem partitionCreate (x0 : PartRec) : Statement (.partitionCreate x0) :=
  of_none rfl
theorem hostAccess (x0 : HostOp) : Statement (.hostAccess x0) :=
  of_none rfl
theorem penumbraPlacement (x0 : Nat) (x1 : Nat) : Statement (.penumbraPlacement x0 x1) :=
  of_none rfl
theorem reclaimComplete (x0 : Nat) : Statement (.reclaimComplete x0) :=
  of_none rfl
theorem penumbraReplacement (x0 : Nat) (x1 : Nat) (x2 : Nat) (x3 : Nat) : Statement (.penumbraReplacement x0 x1 x2 x3) :=
  of_none rfl
theorem linkFailure (x0 : Link) : Statement (.linkFailure x0) :=
  of_none rfl
theorem linkReroute (x0 : Link) (x1 : List Detour) : Statement (.linkReroute x0 x1) :=
  of_none rfl
theorem flowDrain (x0 : Flow) : Statement (.flowDrain x0) :=
  of_none rfl
theorem linkRestore (x0 : Link) : Statement (.linkRestore x0) :=
  of_none rfl
theorem gweridRetrain : Statement .gweridRetrain :=
  of_none rfl
theorem gweridDown : Statement .gweridDown :=
  of_none rfl
theorem reallocation (x0 : Nat) : Statement (.reallocation x0) :=
  of_none rfl
theorem laneLockLoss (x0 : Nat) (x1 : Nat) : Statement (.laneLockLoss x0 x1) :=
  of_none rfl
theorem widthConfirmation (x0 : Nat) (x1 : Nat) : Statement (.widthConfirmation x0 x1) :=
  of_none rfl
theorem burstReceive (x0 : Nat) (x1 : Nat) (x2 : BurstIn) : Statement (.burstReceive x0 x1 x2) :=
  of_none rfl
theorem fabricRequest (x0 : Nat) (x1 : Nat) (x2 : List Nat) : Statement (.fabricRequest x0 x1 x2) :=
  of_none rfl
theorem fabricGrant (x0 : Nat) (x1 : Nat) (x2 : List FabGrant) : Statement (.fabricGrant x0 x1 x2) :=
  of_none rfl
theorem segmentFrame (x0 : Nat) (x1 : BusObs) : Statement (.segmentFrame x0 x1) :=
  of_none rfl
theorem calibrationFrame (x0 : Nat) (x1 : CalIn) : Statement (.calibrationFrame x0 x1) :=
  of_none rfl
theorem straggleExpiry (x0 : Nat) (x1 : Nat) : Statement (.straggleExpiry x0 x1) :=
  of_none rfl
theorem boot (x0 : List Nat) : Statement (.boot x0) :=
  of_none rfl
theorem columnRemap (x0 : Nat) : Statement (.columnRemap x0) :=
  of_none rfl
theorem roleRecovery (x0 : Nat) : Statement (.roleRecovery x0) :=
  of_none rfl
theorem imageHandover (x0 : List Byte) : Statement (.imageHandover x0) :=
  of_none rfl
theorem handoverAbort : Statement .handoverAbort :=
  of_none rfl
theorem flashWrite (x0 : Bool) : Statement (.flashWrite x0) :=
  of_none rfl
theorem recoveryImage (x0 : List Byte) : Statement (.recoveryImage x0) :=
  of_none rfl
theorem attestationRequest (x0 : Word) : Statement (.attestationRequest x0) :=
  of_none rfl
theorem profileChange (x0 : BitVec 2) : Statement (.profileChange x0) :=
  of_none rfl
theorem temperatureReport (x0 : Nat) (x1 : Nat) : Statement (.temperatureReport x0 x1) :=
  of_none rfl
theorem restart (x0 : Nat) (x1 : Nat) : Statement (.restart x0 x1) :=
  of_none rfl
theorem illegalEncoding (x0 : W32) : Statement (.illegalEncoding x0) :=
  of_none rfl
theorem badTypePacket (x0 : Nat) (x1 : Nat) : Statement (.badTypePacket x0 x1) :=
  of_none rfl
theorem scrubbing (x0 : Nat) : Statement (.scrubbing x0) :=
  of_none rfl
theorem matrixSelfTest (x0 : Nat) : Statement (.matrixSelfTest x0) :=
  of_none rfl
theorem gweridLinkReturn : Statement .gweridLinkReturn :=
  of_none rfl
theorem hostConfigurationTable (x0 : List Byte) : Statement (.hostConfigurationTable x0) :=
  of_none rfl
theorem ofNat6 (x : BitVec 6) {n : Nat} (h : n % 64 = x.toNat) : BitVec.ofNat 6 n = x := by
  apply BitVec.eq_of_toNat_eq
  simpa using h
theorem r3_of (x : BitVec 3) {n : Nat} (h : n % 8 = x.toNat) : r3 n = x := by
  apply BitVec.eq_of_toNat_eq
  simpa [r3] using h
theorem bool_back (b : Bool) : (b.toNat == 1) = b := by cases b <;> rfl
theorem bool_zero (b : Bool) : (b.toNat == 0) = !b := by cases b <;> rfl
theorem vty_inj {s t : VTy} (h : s.code = t.code) : s = t := by
  have := congrArg VTy.ofCode h
  simpa using this

theorem addi (d : Reg) (a : Reg) (imm : BitVec 15) : Statement (.addi d a imm) := by
  refine of_fields rfl fun _ => ?_
  exact show Encoded _ _ (.addi d a imm) from ⟨⟨by omega, rfl⟩, by simp [decodeRaw, decodeI], rfl⟩
theorem andi (d : Reg) (a : Reg) (imm : BitVec 15) : Statement (.andi d a imm) := by
  refine of_fields rfl fun _ => ?_
  exact show Encoded _ _ (.andi d a imm) from ⟨⟨by omega, rfl⟩, by simp [decodeRaw, decodeI], rfl⟩
theorem ori (d : Reg) (a : Reg) (imm : BitVec 15) : Statement (.ori d a imm) := by
  refine of_fields rfl fun _ => ?_
  exact show Encoded _ _ (.ori d a imm) from ⟨⟨by omega, rfl⟩, by simp [decodeRaw, decodeI], rfl⟩
theorem xori (d : Reg) (a : Reg) (imm : BitVec 15) : Statement (.xori d a imm) := by
  refine of_fields rfl fun _ => ?_
  exact show Encoded _ _ (.xori d a imm) from ⟨⟨by omega, rfl⟩, by simp [decodeRaw, decodeI], rfl⟩
theorem slti (d : Reg) (a : Reg) (imm : BitVec 15) : Statement (.slti d a imm) := by
  refine of_fields rfl fun _ => ?_
  exact show Encoded _ _ (.slti d a imm) from ⟨⟨by omega, rfl⟩, by simp [decodeRaw, decodeI], rfl⟩
theorem ldhi (d : Reg) (imm : BitVec 20) : Statement (.ldhi d imm) := by
  refine of_fields rfl fun _ => ?_
  exact show Encoded _ _ (.ldhi d imm) from ⟨⟨by omega, rfl⟩, by simp [decodeRaw, decodeU], rfl⟩
theorem fliS (d : Reg) (imm : BitVec 20) : Statement (.fliS d imm) := by
  refine of_fields rfl fun _ => ?_
  exact show Encoded _ _ (.fliS d imm) from ⟨⟨by omega, rfl⟩, by simp [decodeRaw, decodeU], rfl⟩
theorem fliD (d : Reg) (imm : BitVec 20) : Statement (.fliD d imm) := by
  refine of_fields rfl fun _ => ?_
  exact show Encoded _ _ (.fliD d imm) from ⟨⟨by omega, rfl⟩, by simp [decodeRaw, decodeU], rfl⟩
theorem jal (d : Reg) (off : BitVec 20) : Statement (.jal d off) := by
  refine of_fields rfl fun _ => ?_
  exact show Encoded _ _ (.jal d off) from ⟨⟨by omega, rfl⟩, by simp [decodeRaw, decodeJ], rfl⟩
theorem jalr (d : Reg) (a : Reg) (imm : BitVec 15) : Statement (.jalr d a imm) := by
  refine of_fields rfl fun _ => ?_
  exact show Encoded _ _ (.jalr d a imm) from ⟨⟨by omega, rfl⟩, by simp [decodeRaw, decodeI], rfl⟩
theorem fjmp (d : Reg) (a : Reg) (imm : BitVec 15) : Statement (.fjmp d a imm) := by
  refine of_fields rfl fun _ => ?_
  exact show Encoded _ _ (.fjmp d a imm) from ⟨⟨by omega, rfl⟩, by simp [decodeRaw, decodeI], rfl⟩
theorem cfetch (a : Reg) (imm : BitVec 15) : Statement (.cfetch a imm) := by
  refine of_fields rfl fun _ => ?_
  exact show Encoded _ _ (.cfetch a imm) from ⟨⟨by omega, rfl⟩, by simp [decodeRaw, decodeI, okIf], rfl⟩
theorem trap (imm : BitVec 15) : Statement (.trap imm) := by
  refine of_fields rfl fun _ => ?_
  exact show Encoded _ _ (.trap imm) from ⟨⟨by omega, rfl⟩, by simp [decodeRaw, decodeI, okIf], rfl⟩
theorem send (a : Reg) (b : Reg) : Statement (.send a b) := by
  refine of_fields rfl fun _ => ?_
  exact show Encoded _ _ (.send a b) from ⟨⟨by omega, rfl⟩, by simp [decodeRaw, decodeA, okIf], rfl⟩
theorem ibxpop (d : Reg) (a : Reg) : Statement (.ibxpop d a) := by
  refine of_fields rfl fun _ => ?_
  exact show Encoded _ _ (.ibxpop d a) from ⟨⟨by omega, rfl⟩, by simp [decodeRaw, decodeA, okIf], rfl⟩
theorem ibxpeek (d : Reg) (a : Reg) : Statement (.ibxpeek d a) := by
  refine of_fields rfl fun _ => ?_
  exact show Encoded _ _ (.ibxpeek d a) from ⟨⟨by omega, rfl⟩, by simp [decodeRaw, decodeA, okIf], rfl⟩
theorem ibxwait (d : Reg) : Statement (.ibxwait d) := by
  refine of_fields rfl fun _ => ?_
  exact show Encoded _ _ (.ibxwait d) from ⟨⟨by omega, rfl⟩, by simp [decodeRaw, decodeA, okIf], rfl⟩
theorem enq (a : Reg) : Statement (.enq a) := by
  refine of_fields rfl fun _ => ?_
  exact show Encoded _ _ (.enq a) from ⟨⟨by omega, rfl⟩, by simp [decodeRaw, decodeA, okIf], rfl⟩
theorem enqv (a : VReg) : Statement (.enqv a) := by
  refine of_fields rfl fun _ => ?_
  exact show Encoded _ _ (.enqv a) from ⟨⟨by omega, rfl⟩, by simp [decodeRaw, decodeA, okIf], rfl⟩
theorem eret : Statement .eret := by
  refine of_fields rfl fun _ => ?_
  exact show Encoded _ _ .eret from ⟨⟨by omega, rfl⟩, by simp [decodeRaw, decodeA, okIf], rfl⟩
theorem uxret : Statement .uxret := by
  refine of_fields rfl fun _ => ?_
  exact show Encoded _ _ .uxret from ⟨⟨by omega, rfl⟩, by simp [decodeRaw, decodeA, okIf], rfl⟩
theorem ifence : Statement .ifence := by
  refine of_fields rfl fun _ => ?_
  exact show Encoded _ _ .ifence from ⟨⟨by omega, rfl⟩, by simp [decodeRaw, decodeA, okIf], rfl⟩
theorem halt : Statement .halt := by
  refine of_fields rfl fun _ => ?_
  exact show Encoded _ _ .halt from ⟨⟨by omega, rfl⟩, by simp [decodeRaw, decodeA, okIf], rfl⟩
theorem rand (d : Reg) : Statement (.rand d) := by
  refine of_fields rfl fun _ => ?_
  exact show Encoded _ _ (.rand d) from ⟨⟨by omega, rfl⟩, by simp [decodeRaw, decodeA, okIf], rfl⟩
theorem taskend : Statement .taskend := by
  refine of_fields rfl fun _ => ?_
  exact show Encoded _ _ .taskend from ⟨⟨by omega, rfl⟩, by simp [decodeRaw, decodeI, okIf], rfl⟩
theorem yield : Statement .yield := by
  refine of_fields rfl fun _ => ?_
  exact show Encoded _ _ .yield from ⟨⟨by omega, rfl⟩, by simp [decodeRaw, decodeI, okIf], rfl⟩
theorem evwait (d : Reg) (base : Reg) (off : BitVec 12) : Statement (.evwait d base off) := by
  refine of_fields rfl fun _ => ?_
  exact show Encoded _ _ (.evwait d base off) from ⟨⟨by omega, rfl⟩, by simp [decodeRaw, decodeM], rfl⟩
theorem evsig (base : Reg) (off : BitVec 12) : Statement (.evsig base off) := by
  refine of_fields rfl fun _ => ?_
  exact show Encoded _ _ (.evsig base off) from ⟨⟨by omega, rfl⟩, by simp [decodeRaw, decodeM, okIf], rfl⟩
theorem prefL1 (base : Reg) (off : BitVec 12) : Statement (.prefL1 base off) := by
  refine of_fields rfl fun _ => ?_
  exact show Encoded _ _ (.prefL1 base off) from ⟨⟨by omega, rfl⟩, by simp [decodeRaw, decodeM], rfl⟩
theorem prefL2 (base : Reg) (off : BitVec 12) : Statement (.prefL2 base off) := by
  refine of_fields rfl fun _ => ?_
  exact show Encoded _ _ (.prefL2 base off) from ⟨⟨by omega, rfl⟩, by simp [decodeRaw, decodeM], rfl⟩
theorem clean (base : Reg) (off : BitVec 12) : Statement (.clean base off) := by
  refine of_fields rfl fun _ => ?_
  exact show Encoded _ _ (.clean base off) from ⟨⟨by omega, rfl⟩, by simp [decodeRaw, decodeM], rfl⟩
theorem inval (base : Reg) (off : BitVec 12) : Statement (.inval base off) := by
  refine of_fields rfl fun _ => ?_
  exact show Encoded _ _ (.inval base off) from ⟨⟨by omega, rfl⟩, by simp [decodeRaw, decodeM], rfl⟩
theorem ld (z : LdSize) (d : Reg) (base : Reg) (off : BitVec 12) : Statement (.ld z d base off) := by
  refine of_fields rfl fun _ => ?_
  have hz := ld_lt z
  exact show Encoded _ _ (.ld z d base off) from ⟨⟨by omega, rfl⟩, by simp [decodeRaw, decodeM], rfl⟩
theorem st (z : StSize) (d : Reg) (base : Reg) (off : BitVec 12) : Statement (.st z d base off) := by
  refine of_fields rfl fun _ => ?_
  have hz := st_lt z
  exact show Encoded _ _ (.st z d base off) from ⟨⟨by omega, rfl⟩, by simp [decodeRaw, decodeM], rfl⟩
theorem shli (d : Reg) (a : Reg) (n : BitVec 6) : Statement (.shli d a n) := by
  refine of_fields rfl fun _ => ?_
  have e1 : n.toNat / 64 % 64 = 0 := by omega
  have e2 : n.toNat / 4096 = 0 := by omega
  exact show Encoded _ _ (.shli d a n) from ⟨⟨by omega, rfl⟩, by simp [decodeRaw, decodeI, e1, e2, ofNat6 n (show n.toNat % 64 = n.toNat by omega)], rfl⟩
theorem shri (d : Reg) (a : Reg) (n : BitVec 6) : Statement (.shri d a n) := by
  refine of_fields rfl fun _ => ?_
  have e1 : (4096 + n.toNat) / 64 % 64 = 0 := by omega
  have e2 : (4096 + n.toNat) / 4096 = 1 := by omega
  exact show Encoded _ _ (.shri d a n) from ⟨⟨by omega, rfl⟩, by simp [decodeRaw, decodeI, e1, e2, ofNat6 n (show (4096 + n.toNat) % 64 = n.toNat by omega)], rfl⟩
theorem srai (d : Reg) (a : Reg) (n : BitVec 6) : Statement (.srai d a n) := by
  refine of_fields rfl fun _ => ?_
  have e1 : (8192 + n.toNat) / 64 % 64 = 0 := by omega
  have e2 : (8192 + n.toNat) / 4096 = 2 := by omega
  exact show Encoded _ _ (.srai d a n) from ⟨⟨by omega, rfl⟩, by simp [decodeRaw, decodeI, e1, e2, ofNat6 n (show (8192 + n.toNat) % 64 = n.toNat by omega)], rfl⟩
theorem exts (d : Reg) (a : Reg) (w : BitVec 6) (p : BitVec 6) : Statement (.exts d a w p) := by
  refine of_fields rfl fun h => ?_
  have h' : w.toNat + 1 + p.toNat ≤ 64 := by simpa [Instr.wf] using h
  have e1 : p.toNat % 64 + ((w.toNat * 64 + p.toNat) / 64 % 64 + 1) ≤ 64 := by omega
  have e2 : (w.toNat * 64 + p.toNat) / 4096 = 0 := by omega
  exact show Encoded _ _ (.exts d a w p) from ⟨⟨by omega, rfl⟩, by simp [decodeRaw, decodeI, e1, e2, ofNat6 w (show (w.toNat * 64 + p.toNat) / 64 % 64 = w.toNat by omega), ofNat6 p (show (w.toNat * 64 + p.toNat) % 64 = p.toNat by omega)], rfl⟩
theorem extz (d : Reg) (a : Reg) (w : BitVec 6) (p : BitVec 6) : Statement (.extz d a w p) := by
  refine of_fields rfl fun h => ?_
  have h' : w.toNat + 1 + p.toNat ≤ 64 := by simpa [Instr.wf] using h
  have e1 : (4096 + w.toNat * 64 + p.toNat) % 64 + ((4096 + w.toNat * 64 + p.toNat) / 64 % 64 + 1) ≤ 64 := by omega
  have e2 : (4096 + w.toNat * 64 + p.toNat) / 4096 = 1 := by omega
  exact show Encoded _ _ (.extz d a w p) from ⟨⟨by omega, rfl⟩, by simp [decodeRaw, decodeI, e1, e2, ofNat6 w (show (4096 + w.toNat * 64 + p.toNat) / 64 % 64 = w.toNat by omega), ofNat6 p (show (4096 + w.toNat * 64 + p.toNat) % 64 = p.toNat by omega)], rfl⟩
theorem ins (d : Reg) (a : Reg) (w : BitVec 6) (p : BitVec 6) : Statement (.ins d a w p) := by
  refine of_fields rfl fun h => ?_
  have h' : w.toNat + 1 + p.toNat ≤ 64 := by simpa [Instr.wf] using h
  have e1 : (8192 + w.toNat * 64 + p.toNat) % 64 + ((8192 + w.toNat * 64 + p.toNat) / 64 % 64 + 1) ≤ 64 := by omega
  have e2 : (8192 + w.toNat * 64 + p.toNat) / 4096 = 2 := by omega
  exact show Encoded _ _ (.ins d a w p) from ⟨⟨by omega, rfl⟩, by simp [decodeRaw, decodeI, e1, e2, ofNat6 w (show (8192 + w.toNat * 64 + p.toNat) / 64 % 64 = w.toNat by omega), ofNat6 p (show (8192 + w.toNat * 64 + p.toNat) % 64 = p.toNat by omega)], rfl⟩
theorem sel (d : Reg) (c : Reg) (a : Reg) (b : OpB) : Statement (.sel d c a b) := by
  refine of_fields rfl fun _ => ?_
  have hb := l_lt b
  have hf := field_lt b
  have e1 : (b.l * 512 + c.toNat) / 32 % 16 = 0 := by omega
  have e2 : (b.l * 512 + c.toNat) % 32 = c.toNat := by omega
  have e3 : (b.l * 512 + c.toNat) / 512 = b.l := by omega
  exact show Encoded _ _ (.sel d c a b) from ⟨⟨by omega, rfl⟩, by simp [decodeRaw, decodeA, e1, e2, e3], by simp [rawLit, e3, lit_eq]⟩
theorem fsqrt (z : Prec) (r : Rnd) (d : Reg) (a : Reg) : Statement (.fsqrt z r d a) := by
  refine of_fields rfl fun _ => ?_
  have hz := prec_lt z
  have hr := rnd_lt r
  have e1 : (z.code * 256 + r.code * 32 + 4) / 32 % 8 = r.code := by omega
  have e2 : (z.code * 256 + r.code * 32 + 4) % 32 = 4 := by omega
  have e3 : (z.code * 256 + r.code * 32 + 4) / 512 = 0 := by omega
  have e4 : (z.code * 256 + r.code * 32 + 4) / 256 % 2 = z.code := by omega
  exact show Encoded _ _ (.fsqrt z r d a) from ⟨⟨by omega, rfl⟩, by simp [decodeRaw, decodeA, okIf, e1, e2, e3, e4, fpRnd2], by simp [rawLit, e3]⟩
theorem ffma (z : Prec) (r : Rnd) (d : Reg) (a : Reg) (b : OpB) : Statement (.ffma z r d a b) := by
  refine of_fields rfl fun _ => ?_
  have hz := prec_lt z
  have hr := rnd_lt r
  have hb := l_lt b
  have hf := field_lt b
  have e1 : (b.l * 512 + z.code * 256 + r.code * 32) / 32 % 8 = r.code := by omega
  have e2 : (b.l * 512 + z.code * 256 + r.code * 32) % 32 = 0 := by omega
  have e3 : (b.l * 512 + z.code * 256 + r.code * 32) / 512 = b.l := by omega
  have e4 : (b.l * 512 + z.code * 256 + r.code * 32) / 256 % 2 = z.code := by omega
  exact show Encoded _ _ (.ffma z r d a b) from ⟨⟨by omega, rfl⟩, by simp [decodeRaw, decodeA, e1, e2, e3, e4], by simp [rawLit, e3, lit_eq]⟩
theorem ldv (o : Order) (p : Pal) (d : Reg) (a : Reg) (c : Reg) : Statement (.ldv o p d a c) := by
  refine of_fields rfl fun w => ?_
  have w' : o.isAcqSide = true := w
  have ho := order_lt o
  exact show Encoded _ _ (.ldv o p d a c) from ⟨⟨by omega, rfl⟩, by simp [decodeRaw, decodeS, okIf, w'], rfl⟩
theorem palget (o : Order) (d : Reg) (a : Reg) (e : Reg) : Statement (.palget o d a e) := by
  refine of_fields rfl fun w => ?_
  have w' : o.isAcqSide = true := w
  have ho := order_lt o
  exact show Encoded _ _ (.palget o d a e) from ⟨⟨by omega, rfl⟩, by simp [decodeRaw, decodeS, okIf, w'], rfl⟩
theorem waita (o : Order) (p : Pal) (d : Reg) (a : Reg) (c : Reg) : Statement (.waita o p d a c) := by
  refine of_fields rfl fun w => ?_
  have w' : o.isAcqSide = true := w
  have ho := order_lt o
  exact show Encoded _ _ (.waita o p d a c) from ⟨⟨by omega, rfl⟩, by simp [decodeRaw, decodeS, okIf, w'], rfl⟩
theorem stv (o : Order) (p : Pal) (d : Reg) (a : Reg) (c : Reg) : Statement (.stv o p d a c) := by
  refine of_fields rfl fun w => ?_
  have w' : o.isRelSide = true := w
  have ho := order_lt o
  exact show Encoded _ _ (.stv o p d a c) from ⟨⟨by omega, rfl⟩, by simp [decodeRaw, decodeS, okIf, w'], rfl⟩
theorem recl (o : Order) (p : Pal) (a : Reg) (c : Reg) : Statement (.recl o p a c) := by
  refine of_fields rfl fun w => ?_
  have w' : o.isRelSide = true := w
  have ho := order_lt o
  exact show Encoded _ _ (.recl o p a c) from ⟨⟨by omega, rfl⟩, by simp [decodeRaw, decodeS, okIf, w'], rfl⟩
theorem wake (o : Order) (p : Pal) (d : Reg) (a : Reg) (c : Reg) : Statement (.wake o p d a c) := by
  refine of_fields rfl fun w => ?_
  have w' : o.isRelSide = true := w
  have ho := order_lt o
  exact show Encoded _ _ (.wake o p d a c) from ⟨⟨by omega, rfl⟩, by simp [decodeRaw, decodeS, okIf, w'], rfl⟩
theorem fence (o : Order) (p : Pal) : Statement (.fence o p) := by
  refine of_fields rfl fun w => ?_
  have w' : o.isFence = true := w
  have ho := order_lt o
  exact show Encoded _ _ (.fence o p) from ⟨⟨by omega, rfl⟩, by simp [decodeRaw, decodeS, okIf, w'], rfl⟩
theorem palset (o : Order) (d : Reg) (a : Reg) (e : Reg) : Statement (.palset o d a e) := by
  refine of_fields rfl fun w => ?_
  have w' : o.isPal = true := w
  have ho := order_lt o
  exact show Encoded _ _ (.palset o d a e) from ⟨⟨by omega, rfl⟩, by simp [decodeRaw, decodeS, okIf, w'], rfl⟩
theorem palinv (o : Order) (e : Reg) : Statement (.palinv o e) := by
  refine of_fields rfl fun w => ?_
  have w' : o.isPal = true := w
  have ho := order_lt o
  exact show Encoded _ _ (.palinv o e) from ⟨⟨by omega, rfl⟩, by simp [decodeRaw, decodeS, okIf, w'], rfl⟩
theorem barl (o : Order) (p : Pal) (a : Reg) : Statement (.barl o p a) := by
  refine of_fields rfl fun w => ?_
  have w' : o.isBarl = true := w
  have ho := order_lt o
  exact show Encoded _ _ (.barl o p a) from ⟨⟨by omega, rfl⟩, by simp [decodeRaw, decodeS, okIf, w'], rfl⟩
theorem cpost (d : Reg) (a : Reg) (stage : BitVec 3) : Statement (.cpost d a stage) := by
  refine of_fields rfl fun _ => ?_
  have e1 : stage.toNat / 4096 = 0 := by omega
  have e2 : stage.toNat / 8 % 512 = 0 := by omega
  exact show Encoded _ _ (.cpost d a stage) from ⟨⟨by omega, rfl⟩, by simp [decodeRaw, decodeI, okIf, e1, e2], rfl⟩
theorem trgadd (n : BitVec 6) (a : Reg) : Statement (.trgadd n a) := by
  refine of_fields rfl fun _ => ?_
  have e1 : n.toNat / 128 % 32 = 0 := by omega
  have e2 : n.toNat / 4096 = 0 := by omega
  have e3 : n.toNat / 64 % 2 = 0 := by omega
  exact show Encoded _ _ (.trgadd n a) from ⟨⟨by omega, rfl⟩, by simp [decodeRaw, decodeI, okIf, e1, e2, e3], rfl⟩
theorem trgset (f : Bool) (n : BitVec 6) (d : Reg) (a : Reg) : Statement (.trgset f n d a) := by
  refine of_fields rfl fun _ => ?_
  have hf := Bool.toNat_lt f
  have e1 : (4096 + f.toNat * 64 + n.toNat) / 128 % 32 = 0 := by omega
  have e2 : (4096 + f.toNat * 64 + n.toNat) / 4096 = 1 := by omega
  have e3 : (4096 + f.toNat * 64 + n.toNat) / 64 % 2 = f.toNat := by omega
  exact show Encoded _ _ (.trgset f n d a) from ⟨⟨by omega, rfl⟩, by simp [decodeRaw, decodeI, e1, e2, e3, bool_back f, ofNat6 n (show (4096 + f.toNat * 64 + n.toNat) % 64 = n.toNat by omega)], rfl⟩
theorem trgwait (n : BitVec 6) (a : Reg) : Statement (.trgwait n a) := by
  refine of_fields rfl fun _ => ?_
  have e1 : (8192 + n.toNat) / 128 % 32 = 0 := by omega
  have e2 : (8192 + n.toNat) / 4096 = 2 := by omega
  have e3 : (8192 + n.toNat) / 64 % 2 = 0 := by omega
  exact show Encoded _ _ (.trgwait n a) from ⟨⟨by omega, rfl⟩, by simp [decodeRaw, decodeI, okIf, e1, e2, e3, ofNat6 n (show (8192 + n.toNat) % 64 = n.toNat by omega)], rfl⟩
theorem trgget (n : BitVec 6) (d : Reg) : Statement (.trgget n d) := by
  refine of_fields rfl fun _ => ?_
  have e1 : (12288 + n.toNat) / 128 % 32 = 0 := by omega
  have e2 : (12288 + n.toNat) / 4096 = 3 := by omega
  have e3 : (12288 + n.toNat) / 64 % 2 = 0 := by omega
  exact show Encoded _ _ (.trgget n d) from ⟨⟨by omega, rfl⟩, by simp [decodeRaw, decodeI, okIf, e1, e2, e3, ofNat6 n (show (12288 + n.toNat) % 64 = n.toNat by omega)], rfl⟩
theorem vabs (t : VTy) (q : QReg) (d : VReg) (a : VReg) : Statement (.vabs t q d a) := by
  refine of_fields rfl fun _ => ?_
  have ht := vty_lt t
  exact show Encoded _ _ (.vabs t q d a) from ⟨⟨by omega, rfl⟩, by simp [decodeRaw, decodeV, okIf, vBin], rfl⟩
theorem vslideUp (t : VTy) (q : QReg) (d : VReg) (a : VReg) (b : Reg) : Statement (.vslideUp t q d a b) := by
  refine of_fields rfl fun _ => ?_
  have ht := vty_lt t
  exact show Encoded _ _ (.vslideUp t q d a b) from ⟨⟨by omega, rfl⟩, by simp [decodeRaw, decodeV, vBin], rfl⟩
theorem vslideDn (t : VTy) (q : QReg) (d : VReg) (a : VReg) (b : Reg) : Statement (.vslideDn t q d a b) := by
  refine of_fields rfl fun _ => ?_
  have ht := vty_lt t
  exact show Encoded _ _ (.vslideDn t q d a b) from ⟨⟨by omega, rfl⟩, by simp [decodeRaw, decodeV, vBin], rfl⟩
theorem vbcast (t : VTy) (q : QReg) (d : VReg) (a : VReg) (b : Reg) : Statement (.vbcast t q d a b) := by
  refine of_fields rfl fun _ => ?_
  have ht := vty_lt t
  exact show Encoded _ _ (.vbcast t q d a b) from ⟨⟨by omega, rfl⟩, by simp [decodeRaw, decodeV, vBin], rfl⟩
theorem vsplat (t : VTy) (q : QReg) (d : VReg) (a : Reg) : Statement (.vsplat t q d a) := by
  refine of_fields rfl fun _ => ?_
  have ht := vty_lt t
  exact show Encoded _ _ (.vsplat t q d a) from ⟨⟨by omega, rfl⟩, by simp [decodeRaw, decodeV, okIf, vBin], rfl⟩
theorem vext (t : VTy) (d : Reg) (a : VReg) (b : Reg) : Statement (.vext t d a b) := by
  refine of_fields rfl fun _ => ?_
  have ht := vty_lt t
  exact show Encoded _ _ (.vext t d a b) from ⟨⟨by omega, rfl⟩, by simp [decodeRaw, decodeV, okIf, vBin], rfl⟩
theorem vins (t : VTy) (d : VReg) (a : Reg) (b : Reg) : Statement (.vins t d a b) := by
  refine of_fields rfl fun _ => ?_
  have ht := vty_lt t
  exact show Encoded _ _ (.vins t d a b) from ⟨⟨by omega, rfl⟩, by simp [decodeRaw, decodeV, okIf, vBin], rfl⟩
theorem vmulL (t : VTy) (q : QReg) (d : VReg) (a : VReg) (l : W32) : Statement (.vmulL t q d a l) := by
  refine of_fields rfl fun _ => ?_
  have ht := vty_lt t
  exact show Encoded _ _ (.vmulL t q d a l) from ⟨⟨by omega, rfl⟩, by simp [decodeRaw, decodeV, okIf], rfl⟩
theorem vfmaL (t : VTy) (q : QReg) (d : VReg) (a : VReg) (l : W32) : Statement (.vfmaL t q d a l) := by
  refine of_fields rfl fun _ => ?_
  have ht := vty_lt t
  exact show Encoded _ _ (.vfmaL t q d a l) from ⟨⟨by omega, rfl⟩, by simp [decodeRaw, decodeV, okIf], rfl⟩
theorem vmulK (t : VTy) (d : VReg) (a : VReg) (k : BitVec 10) : Statement (.vmulK t d a k) := by
  refine of_fields rfl fun _ => ?_
  have ht := vty_lt t
  have e1 : t.code / 8 = 0 := by omega
  have e2 : t.code % 8 = t.code := by omega
  exact show Encoded _ _ (.vmulK t d a k) from ⟨⟨by omega, rfl⟩, by simp [decodeRaw, decodeK, e1, e2], rfl⟩
theorem vfmaK (t : VTy) (d : VReg) (a : VReg) (k : BitVec 10) : Statement (.vfmaK t d a k) := by
  refine of_fields rfl fun _ => ?_
  have ht := vty_lt t
  have e1 : (8 + t.code) / 8 = 1 := by omega
  have e2 : (8 + t.code) % 8 = t.code := by omega
  exact show Encoded _ _ (.vfmaK t d a k) from ⟨⟨by omega, rfl⟩, by simp [decodeRaw, decodeK, e1, e2], rfl⟩
theorem vcvt (sat : Bool) (src : VTy) (t : VTy) (q : QReg) (d : VReg) (a : VReg) : Statement (.vcvt sat src t q d a) := by
  refine of_fields rfl fun w => ?_
  have hs := vty_lt src
  have hb := Bool.toNat_lt sat
  have w' : src ≠ t ∧ (sat = false ∨ t.isInt = true) := by simpa [Instr.wf] using w
  have n : src.code ≠ t.code := fun h => w'.1 (vty_inj h)
  have ht := vty_lt t
  have e1 : (sat.toNat * 8 + src.code) % 8 = src.code := by omega
  have e2 : (sat.toNat * 8 + src.code) / 8 = sat.toNat := by omega
  exact show Encoded _ _ (.vcvt sat src t q d a) from ⟨⟨by omega, rfl⟩, by simp [decodeRaw, decodeV, okIf, e1, e2, n, bool_back sat, bool_zero sat, w'.2], rfl⟩
theorem vclmul (h : BitVec 2) (q : QReg) (d : VReg) (a : VReg) (b : VReg) : Statement (.vclmul h q d a b) := by
  refine of_fields rfl fun _ => ?_
  have e1 : h.toNat / 4 = 0 := by omega
  exact show Encoded _ _ (.vclmul h q d a b) from ⟨⟨by omega, rfl⟩, by simp [decodeRaw, decodeV, okIf, e1], rfl⟩
theorem vpopc (t : VTy) (q : QReg) (d : VReg) (a : VReg) : Statement (.vpopc t q d a) := by
  refine of_fields rfl fun w => ?_
  have w' : t.isInt = true := w
  have ht := vty_lt t
  exact show Encoded _ _ (.vpopc t q d a) from ⟨⟨by omega, rfl⟩, by simp [decodeRaw, decodeV, okIf, w'], rfl⟩
theorem qand (d : QReg) (a : QReg) (b : QReg) : Statement (.qand d a b) := by
  refine of_fields rfl fun _ => ?_
  have e1 : d.toNat / 8 = 0 := by omega
  have e2 : a.toNat / 8 = 0 := by omega
  have e3 : b.toNat / 8 = 0 := by omega
  exact show Encoded _ _ (.qand d a b) from ⟨⟨by omega, rfl⟩, by simp [decodeRaw, decodeV, e1, e2, e3], rfl⟩
theorem qor (d : QReg) (a : QReg) (b : QReg) : Statement (.qor d a b) := by
  refine of_fields rfl fun _ => ?_
  have e1 : d.toNat / 8 = 0 := by omega
  have e2 : a.toNat / 8 = 0 := by omega
  have e3 : b.toNat / 8 = 0 := by omega
  exact show Encoded _ _ (.qor d a b) from ⟨⟨by omega, rfl⟩, by simp [decodeRaw, decodeV, e1, e2, e3], rfl⟩
theorem qxor (d : QReg) (a : QReg) (b : QReg) : Statement (.qxor d a b) := by
  refine of_fields rfl fun _ => ?_
  have e1 : d.toNat / 8 = 0 := by omega
  have e2 : a.toNat / 8 = 0 := by omega
  have e3 : b.toNat / 8 = 0 := by omega
  exact show Encoded _ _ (.qxor d a b) from ⟨⟨by omega, rfl⟩, by simp [decodeRaw, decodeV, e1, e2, e3], rfl⟩
theorem qnot (d : QReg) (a : QReg) : Statement (.qnot d a) := by
  refine of_fields rfl fun _ => ?_
  have e1 : d.toNat / 8 = 0 := by omega
  have e2 : a.toNat / 8 = 0 := by omega
  exact show Encoded _ _ (.qnot d a) from ⟨⟨by omega, rfl⟩, by simp [decodeRaw, decodeV, okIf, e1, e2], rfl⟩
theorem sbind (w : Bool) (v : Bool) (slot : BitVec 3) (d : Reg) (a : Reg) : Statement (.sbind w v slot d a) := by
  refine of_fields rfl fun _ => ?_
  have h1 := Bool.toNat_lt w
  have h2 := Bool.toNat_lt v
  have e1 : (w.toNat * 16 + v.toNat * 8 + slot.toNat) / 32 = 0 := by omega
  have e2 : (w.toNat * 16 + v.toNat * 8 + slot.toNat) / 16 % 2 = w.toNat := by omega
  have e3 : (w.toNat * 16 + v.toNat * 8 + slot.toNat) / 8 % 2 = v.toNat := by omega
  exact show Encoded _ _ (.sbind w v slot d a) from ⟨⟨by omega, rfl⟩, by simp [decodeRaw, decodeI, okIf, e1, e2, e3, bool_back w, bool_back v, r3_of slot (show (w.toNat * 16 + v.toNat * 8 + slot.toNat) % 8 = slot.toNat by omega)], rfl⟩
theorem sfree (slot : BitVec 3) : Statement (.sfree slot) := by
  refine of_fields rfl fun _ => ?_
  have e1 : slot.toNat / 8 % 512 = 0 := by omega
  have e2 : slot.toNat / 4096 = 0 := by omega
  exact show Encoded _ _ (.sfree slot) from ⟨⟨by omega, rfl⟩, by simp [decodeRaw, decodeI, okIf, e1, e2, r3_of slot (show slot.toNat % 8 = slot.toNat by omega)], rfl⟩
theorem sstat (slot : BitVec 3) (d : Reg) : Statement (.sstat slot d) := by
  refine of_fields rfl fun _ => ?_
  have e1 : (4096 + slot.toNat) / 8 % 512 = 0 := by omega
  have e2 : (4096 + slot.toNat) / 4096 = 1 := by omega
  exact show Encoded _ _ (.sstat slot d) from ⟨⟨by omega, rfl⟩, by simp [decodeRaw, decodeI, okIf, e1, e2, r3_of slot (show (4096 + slot.toNat) % 8 = slot.toNat by omega)], rfl⟩
theorem sskip (slot : BitVec 3) (a : Reg) : Statement (.sskip slot a) := by
  refine of_fields rfl fun _ => ?_
  have e1 : (8192 + slot.toNat) / 8 % 512 = 0 := by omega
  have e2 : (8192 + slot.toNat) / 4096 = 2 := by omega
  exact show Encoded _ _ (.sskip slot a) from ⟨⟨by omega, rfl⟩, by simp [decodeRaw, decodeI, okIf, e1, e2, r3_of slot (show (8192 + slot.toNat) % 8 = slot.toNat by omega)], rfl⟩
theorem sdrain (slot : BitVec 3) : Statement (.sdrain slot) := by
  refine of_fields rfl fun _ => ?_
  have e1 : (12288 + slot.toNat) / 8 % 512 = 0 := by omega
  have e2 : (12288 + slot.toNat) / 4096 = 3 := by omega
  exact show Encoded _ _ (.sdrain slot) from ⟨⟨by omega, rfl⟩, by simp [decodeRaw, decodeI, okIf, e1, e2, r3_of slot (show (12288 + slot.toNat) % 8 = slot.toNat by omega)], rfl⟩
theorem mfmt (a : Reg) : Statement (.mfmt a) := by
  refine of_fields rfl fun _ => ?_
  exact show Encoded _ _ (.mfmt a) from ⟨⟨by omega, rfl⟩, by simp [decodeRaw, decodeA, okIf], rfl⟩
theorem muprog (a : Reg) : Statement (.muprog a) := by
  refine of_fields rfl fun _ => ?_
  exact show Encoded _ _ (.muprog a) from ⟨⟨by omega, rfl⟩, by simp [decodeRaw, decodeA, okIf], rfl⟩
theorem mzero (d : Acc) : Statement (.mzero d) := by
  refine of_fields rfl fun _ => ?_
  have e1 : d.toNat / 4 = 0 := by omega
  exact show Encoded _ _ (.mzero d) from ⟨⟨by omega, rfl⟩, by simp [decodeRaw, decodeA, okIf, e1], rfl⟩
theorem mldc (d : Acc) (a : Reg) : Statement (.mldc d a) := by
  refine of_fields rfl fun _ => ?_
  have e1 : d.toNat / 4 = 0 := by omega
  exact show Encoded _ _ (.mldc d a) from ⟨⟨by omega, rfl⟩, by simp [decodeRaw, decodeA, okIf, e1], rfl⟩
theorem mstc (d : Acc) (a : Reg) : Statement (.mstc d a) := by
  refine of_fields rfl fun _ => ?_
  have e1 : d.toNat / 4 = 0 := by omega
  exact show Encoded _ _ (.mstc d a) from ⟨⟨by omega, rfl⟩, by simp [decodeRaw, decodeA, okIf, e1], rfl⟩
theorem ctlrd (c : BitVec 12) (d : Reg) : Statement (.ctlrd c d) := by
  refine of_fields rfl fun _ => ?_
  have e1 : c.toNat / 4096 = 0 := by omega
  exact show Encoded _ _ (.ctlrd c d) from ⟨⟨by omega, rfl⟩, by simp [decodeRaw, decodeI, okIf, e1], rfl⟩
theorem ctlwr (c : BitVec 12) (a : Reg) : Statement (.ctlwr c a) := by
  refine of_fields rfl fun _ => ?_
  have e1 : c.toNat / 4096 = 0 := by omega
  exact show Encoded _ _ (.ctlwr c a) from ⟨⟨by omega, rfl⟩, by simp [decodeRaw, decodeI, okIf, e1], rfl⟩
theorem statusWrite (a : Reg) : Statement (.statusWrite a) := by
  refine of_fields rfl fun _ => ?_
  exact show Encoded _ _ (.ctlwr 0x000 a) from ⟨⟨by omega, rfl⟩, by simp [decodeRaw, decodeI, okIf], rfl⟩
theorem lmhwmWrite (a : Reg) : Statement (.lmhwmWrite a) := by
  refine of_fields rfl fun _ => ?_
  exact show Encoded _ _ (.ctlwr 0x00A a) from ⟨⟨by omega, rfl⟩, by simp [decodeRaw, decodeI, okIf], rfl⟩
theorem mstatWrite (a : Reg) : Statement (.mstatWrite a) := by
  refine of_fields rfl fun _ => ?_
  exact show Encoded _ _ (.ctlwr 0x00B a) from ⟨⟨by omega, rfl⟩, by simp [decodeRaw, decodeI, okIf], rfl⟩
theorem melocRead (d : Reg) : Statement (.melocRead d) := by
  refine of_fields rfl fun _ => ?_
  exact show Encoded _ _ (.ctlrd 0x202 d) from ⟨⟨by omega, rfl⟩, by simp [decodeRaw, decodeI, okIf], rfl⟩

end Encodes
end Laws
end Sys2Proof
end

