-- ==== Sys2Proof/Laws/State.lean ====
section
/-! SUPPORT. One lemma per field and update of the state: what the register and STATUS updates leave alone. -/
namespace Sys2Proof.Machine

/-! ## setS -/

@[simp] theorem setS_tid (n : Reg) (x : Word) (s : State) : (setS n x s).tid = s.tid := by unfold setS; split; rfl; split <;> rfl
@[simp] theorem setS_core (n : Reg) (x : Word) (s : State) : (setS n x s).core = s.core := by unfold setS; split; rfl; split <;> rfl
@[simp] theorem setS_here (n : Reg) (x : Word) (s : State) : (setS n x s).here = s.here := by unfold setS; split; rfl; split <;> rfl
@[simp] theorem setS_cores (n : Reg) (x : Word) (s : State) : (setS n x s).cores = s.cores := by unfold setS; split; rfl; split <;> rfl
@[simp] theorem setS_mem (n : Reg) (x : Word) (s : State) : (setS n x s).mem = s.mem := by unfold setS; split; rfl; split <;> rfl
@[simp] theorem setS_bad (n : Reg) (x : Word) (s : State) : (setS n x s).bad = s.bad := by unfold setS; split; rfl; split <;> rfl
@[simp] theorem setS_soft (n : Reg) (x : Word) (s : State) : (setS n x s).soft = s.soft := by unfold setS; split; rfl; split <;> rfl
@[simp] theorem setS_poison (n : Reg) (x : Word) (s : State) : (setS n x s).poison = s.poison := by unfold setS; split; rfl; split <;> rfl
@[simp] theorem setS_l1bad (n : Reg) (x : Word) (s : State) : (setS n x s).l1bad = s.l1bad := by unfold setS; split; rfl; split <;> rfl
@[simp] theorem setS_l1soft (n : Reg) (x : Word) (s : State) : (setS n x s).l1soft = s.l1soft := by unfold setS; split; rfl; split <;> rfl
@[simp] theorem setS_hostOld (n : Reg) (x : Word) (s : State) : (setS n x s).hostOld = s.hostOld := by unfold setS; split; rfl; split <;> rfl
@[simp] theorem setS_pend (n : Reg) (x : Word) (s : State) : (setS n x s).pend = s.pend := by unfold setS; split; rfl; split <;> rfl
@[simp] theorem setS_versions (n : Reg) (x : Word) (s : State) : (setS n x s).versions = s.versions := by unfold setS; split; rfl; split <;> rfl
@[simp] theorem setS_waiters (n : Reg) (x : Word) (s : State) : (setS n x s).waiters = s.waiters := by unfold setS; split; rfl; split <;> rfl
@[simp] theorem setS_dir (n : Reg) (x : Word) (s : State) : (setS n x s).dir = s.dir := by unfold setS; split; rfl; split <;> rfl
@[simp] theorem setS_l2 (n : Reg) (x : Word) (s : State) : (setS n x s).l2 = s.l2 := by unfold setS; split; rfl; split <;> rfl
@[simp] theorem setS_tlb (n : Reg) (x : Word) (s : State) : (setS n x s).tlb = s.tlb := by unfold setS; split; rfl; split <;> rfl
@[simp] theorem setS_msgs (n : Reg) (x : Word) (s : State) : (setS n x s).msgs = s.msgs := by unfold setS; split; rfl; split <;> rfl
@[simp] theorem setS_chains (n : Reg) (x : Word) (s : State) : (setS n x s).chains = s.chains := by unfold setS; split; rfl; split <;> rfl
@[simp] theorem setS_palMsgs (n : Reg) (x : Word) (s : State) : (setS n x s).palMsgs = s.palMsgs := by unfold setS; split; rfl; split <;> rfl
@[simp] theorem setS_parts (n : Reg) (x : Word) (s : State) : (setS n x s).parts = s.parts := by unfold setS; split; rfl; split <;> rfl
@[simp] theorem setS_queues (n : Reg) (x : Word) (s : State) : (setS n x s).queues = s.queues := by unfold setS; split; rfl; split <;> rfl
@[simp] theorem setS_launches (n : Reg) (x : Word) (s : State) : (setS n x s).launches = s.launches := by unfold setS; split; rfl; split <;> rfl
@[simp] theorem setS_tickets (n : Reg) (x : Word) (s : State) : (setS n x s).tickets = s.tickets := by unfold setS; split; rfl; split <;> rfl
@[simp] theorem setS_nextTicket (n : Reg) (x : Word) (s : State) : (setS n x s).nextTicket = s.nextTicket := by unfold setS; split; rfl; split <;> rfl
@[simp] theorem setS_invs (n : Reg) (x : Word) (s : State) : (setS n x s).invs = s.invs := by unfold setS; split; rfl; split <;> rfl
@[simp] theorem setS_irqs (n : Reg) (x : Word) (s : State) : (setS n x s).irqs = s.irqs := by unfold setS; split; rfl; split <;> rfl
@[simp] theorem setS_hostData (n : Reg) (x : Word) (s : State) : (setS n x s).hostData = s.hostData := by unfold setS; split; rfl; split <;> rfl
@[simp] theorem setS_time (n : Reg) (x : Word) (s : State) : (setS n x s).time = s.time := by unfold setS; split; rfl; split <;> rfl
@[simp] theorem setS_failed (n : Reg) (x : Word) (s : State) : (setS n x s).failed = s.failed := by unfold setS; split; rfl; split <;> rfl
@[simp] theorem setS_flows (n : Reg) (x : Word) (s : State) : (setS n x s).flows = s.flows := by unfold setS; split; rfl; split <;> rfl
@[simp] theorem setS_gwerid (n : Reg) (x : Word) (s : State) : (setS n x s).gwerid = s.gwerid := by unfold setS; split; rfl; split <;> rfl
@[simp] theorem setS_optics (n : Reg) (x : Word) (s : State) : (setS n x s).optics = s.optics := by unfold setS; split; rfl; split <;> rfl
@[simp] theorem setS_fw (n : Reg) (x : Word) (s : State) : (setS n x s).fw = s.fw := by unfold setS; split; rfl; split <;> rfl
@[simp] theorem setS_seq (n : Reg) (x : Word) (s : State) : (setS n x s).seq = s.seq := by unfold setS; split; rfl; split <;> rfl
@[simp] theorem setS_agenda (n : Reg) (x : Word) (s : State) : (setS n x s).agenda = s.agenda := by unfold setS; split; rfl; split <;> rfl
@[simp] theorem setS_free (n : Reg) (x : Word) (s : State) : (setS n x s).free = s.free := by unfold setS; split; rfl; split <;> rfl
@[simp] theorem setS_tick (n : Reg) (x : Word) (s : State) : (setS n x s).tick = s.tick := by unfold setS; split; rfl; split <;> rfl
@[simp] theorem setS_ts_v (n : Reg) (x : Word) (s : State) : (setS n x s).ts.v = s.ts.v := by unfold setS; split; rfl; split <;> rfl
@[simp] theorem setS_ts_q (n : Reg) (x : Word) (s : State) : (setS n x s).ts.q = s.ts.q := by unfold setS; split; rfl; split <;> rfl
@[simp] theorem setS_ts_pc (n : Reg) (x : Word) (s : State) : (setS n x s).ts.pc = s.ts.pc := by unfold setS; split; rfl; split <;> rfl
@[simp] theorem setS_ts_slots (n : Reg) (x : Word) (s : State) : (setS n x s).ts.slots = s.ts.slots := by unfold setS; split; rfl; split <;> rfl
@[simp] theorem setS_ts_shQ7 (n : Reg) (x : Word) (s : State) : (setS n x s).ts.shQ7 = s.ts.shQ7 := by unfold setS; split; rfl; split <;> rfl
@[simp] theorem setS_ts_status (n : Reg) (x : Word) (s : State) : (setS n x s).ts.status = s.ts.status := by unfold setS; split; rfl; split <;> rfl
@[simp] theorem setS_ts_epc (n : Reg) (x : Word) (s : State) : (setS n x s).ts.epc = s.ts.epc := by unfold setS; split; rfl; split <;> rfl
@[simp] theorem setS_ts_ecause (n : Reg) (x : Word) (s : State) : (setS n x s).ts.ecause = s.ts.ecause := by unfold setS; split; rfl; split <;> rfl
@[simp] theorem setS_ts_eval (n : Reg) (x : Word) (s : State) : (setS n x s).ts.eval = s.ts.eval := by unfold setS; split; rfl; split <;> rfl
@[simp] theorem setS_ts_tvec (n : Reg) (x : Word) (s : State) : (setS n x s).ts.tvec = s.ts.tvec := by unfold setS; split; rfl; split <;> rfl
@[simp] theorem setS_ts_uxvec (n : Reg) (x : Word) (s : State) : (setS n x s).ts.uxvec = s.ts.uxvec := by unfold setS; split; rfl; split <;> rfl
@[simp] theorem setS_ts_uxid (n : Reg) (x : Word) (s : State) : (setS n x s).ts.uxid = s.ts.uxid := by unfold setS; split; rfl; split <;> rfl
@[simp] theorem setS_ts_uxepc (n : Reg) (x : Word) (s : State) : (setS n x s).ts.uxepc = s.ts.uxepc := by unfold setS; split; rfl; split <;> rfl
@[simp] theorem setS_ts_srctr (n : Reg) (x : Word) (s : State) : (setS n x s).ts.srctr = s.ts.srctr := by unfold setS; split; rfl; split <;> rfl
@[simp] theorem setS_ts_budget (n : Reg) (x : Word) (s : State) : (setS n x s).ts.budget = s.ts.budget := by unfold setS; split; rfl; split <;> rfl
@[simp] theorem setS_ts_rankid (n : Reg) (x : Word) (s : State) : (setS n x s).ts.rankid = s.ts.rankid := by unfold setS; split; rfl; split <;> rfl
@[simp] theorem setS_ts_coord (n : Reg) (x : Word) (s : State) : (setS n x s).ts.coord = s.ts.coord := by unfold setS; split; rfl; split <;> rfl
@[simp] theorem setS_ts_launchid (n : Reg) (x : Word) (s : State) : (setS n x s).ts.launchid = s.ts.launchid := by unfold setS; split; rfl; split <;> rfl
@[simp] theorem setS_ts_rect (n : Reg) (x : Word) (s : State) : (setS n x s).ts.rect = s.ts.rect := by unfold setS; split; rfl; split <;> rfl
@[simp] theorem setS_ts_deadline (n : Reg) (x : Word) (s : State) : (setS n x s).ts.deadline = s.ts.deadline := by unfold setS; split; rfl; split <;> rfl
@[simp] theorem setS_ts_srseed (n : Reg) (x : Word) (s : State) : (setS n x s).ts.srseed = s.ts.srseed := by unfold setS; split; rfl; split <;> rfl
@[simp] theorem setS_ts_partid (n : Reg) (x : Word) (s : State) : (setS n x s).ts.partid = s.ts.partid := by unfold setS; split; rfl; split <;> rfl
@[simp] theorem setS_ts_tsid (n : Reg) (x : Word) (s : State) : (setS n x s).ts.tsid = s.ts.tsid := by unfold setS; split; rfl; split <;> rfl
@[simp] theorem setS_ts_prio (n : Reg) (x : Word) (s : State) : (setS n x s).ts.prio = s.ts.prio := by unfold setS; split; rfl; split <;> rfl
@[simp] theorem setS_ts_priv (n : Reg) (x : Word) (s : State) : (setS n x s).ts.priv = s.ts.priv := by unfold setS; split; rfl; split <;> rfl
@[simp] theorem setS_ts_plen (n : Reg) (x : Word) (s : State) : (setS n x s).ts.plen = s.ts.plen := by unfold setS; split; rfl; split <;> rfl
@[simp] theorem setS_ts_live (n : Reg) (x : Word) (s : State) : (setS n x s).ts.live = s.ts.live := by unfold setS; split; rfl; split <;> rfl
@[simp] theorem setS_ts_run (n : Reg) (x : Word) (s : State) : (setS n x s).ts.run = s.ts.run := by unfold setS; split; rfl; split <;> rfl
@[simp] theorem setS_ts_fbuf (n : Reg) (x : Word) (s : State) : (setS n x s).ts.fbuf = s.ts.fbuf := by unfold setS; split; rfl; split <;> rfl
@[simp] theorem setS_ts_ux (n : Reg) (x : Word) (s : State) : (setS n x s).ts.ux = s.ts.ux := by unfold setS; split; rfl; split <;> rfl
@[simp] theorem setS_ts_sched (n : Reg) (x : Word) (s : State) : (setS n x s).ts.sched = s.ts.sched := by unfold setS; split; rfl; split <;> rfl
@[simp] theorem setS_ts_barl (n : Reg) (x : Word) (s : State) : (setS n x s).ts.barl = s.ts.barl := by unfold setS; split; rfl; split <;> rfl
@[simp] theorem setS_ts_waitphase (n : Reg) (x : Word) (s : State) : (setS n x s).ts.waitphase = s.ts.waitphase := by unfold setS; split; rfl; split <;> rfl
@[simp] theorem setS_ts_sends (n : Reg) (x : Word) (s : State) : (setS n x s).ts.sends = s.ts.sends := by unfold setS; split; rfl; split <;> rfl
@[simp] theorem setS_ts_locks (n : Reg) (x : Word) (s : State) : (setS n x s).ts.locks = s.ts.locks := by unfold setS; split; rfl; split <;> rfl
@[simp] theorem setS_ts_pins (n : Reg) (x : Word) (s : State) : (setS n x s).ts.pins = s.ts.pins := by unfold setS; split; rfl; split <;> rfl
@[simp] theorem setS_ts_wbase (n : Reg) (x : Word) (s : State) : (setS n x s).ts.wbase = s.ts.wbase := by unfold setS; split; rfl; split <;> rfl
@[simp] theorem setS_ts_wsize (n : Reg) (x : Word) (s : State) : (setS n x s).ts.wsize = s.ts.wsize := by unfold setS; split; rfl; split <;> rfl
@[simp] theorem setS_ts_ticket (n : Reg) (x : Word) (s : State) : (setS n x s).ts.ticket = s.ts.ticket := by unfold setS; split; rfl; split <;> rfl
@[simp] theorem setS_ts_palHold (n : Reg) (x : Word) (s : State) : (setS n x s).ts.palHold = s.ts.palHold := by unfold setS; split; rfl; split <;> rfl
@[simp] theorem setS_ts_palTaken (n : Reg) (x : Word) (s : State) : (setS n x s).ts.palTaken = s.ts.palTaken := by unfold setS; split; rfl; split <;> rfl
@[simp] theorem setS_ts_trgWait (n : Reg) (x : Word) (s : State) : (setS n x s).ts.trgWait = s.ts.trgWait := by unfold setS; split; rfl; split <;> rfl
@[simp] theorem setS_ts_enqWord (n : Reg) (x : Word) (s : State) : (setS n x s).ts.enqWord = s.ts.enqWord := by unfold setS; split; rfl; split <;> rfl

/-! ## setQ -/

@[simp] theorem setQ_tid (n : QReg) (x : Word) (s : State) : (setQ n x s).tid = s.tid := by unfold setQ; split; rfl; split <;> rfl
@[simp] theorem setQ_core (n : QReg) (x : Word) (s : State) : (setQ n x s).core = s.core := by unfold setQ; split; rfl; split <;> rfl
@[simp] theorem setQ_here (n : QReg) (x : Word) (s : State) : (setQ n x s).here = s.here := by unfold setQ; split; rfl; split <;> rfl
@[simp] theorem setQ_cores (n : QReg) (x : Word) (s : State) : (setQ n x s).cores = s.cores := by unfold setQ; split; rfl; split <;> rfl
@[simp] theorem setQ_mem (n : QReg) (x : Word) (s : State) : (setQ n x s).mem = s.mem := by unfold setQ; split; rfl; split <;> rfl
@[simp] theorem setQ_bad (n : QReg) (x : Word) (s : State) : (setQ n x s).bad = s.bad := by unfold setQ; split; rfl; split <;> rfl
@[simp] theorem setQ_soft (n : QReg) (x : Word) (s : State) : (setQ n x s).soft = s.soft := by unfold setQ; split; rfl; split <;> rfl
@[simp] theorem setQ_poison (n : QReg) (x : Word) (s : State) : (setQ n x s).poison = s.poison := by unfold setQ; split; rfl; split <;> rfl
@[simp] theorem setQ_l1bad (n : QReg) (x : Word) (s : State) : (setQ n x s).l1bad = s.l1bad := by unfold setQ; split; rfl; split <;> rfl
@[simp] theorem setQ_l1soft (n : QReg) (x : Word) (s : State) : (setQ n x s).l1soft = s.l1soft := by unfold setQ; split; rfl; split <;> rfl
@[simp] theorem setQ_hostOld (n : QReg) (x : Word) (s : State) : (setQ n x s).hostOld = s.hostOld := by unfold setQ; split; rfl; split <;> rfl
@[simp] theorem setQ_pend (n : QReg) (x : Word) (s : State) : (setQ n x s).pend = s.pend := by unfold setQ; split; rfl; split <;> rfl
@[simp] theorem setQ_versions (n : QReg) (x : Word) (s : State) : (setQ n x s).versions = s.versions := by unfold setQ; split; rfl; split <;> rfl
@[simp] theorem setQ_waiters (n : QReg) (x : Word) (s : State) : (setQ n x s).waiters = s.waiters := by unfold setQ; split; rfl; split <;> rfl
@[simp] theorem setQ_dir (n : QReg) (x : Word) (s : State) : (setQ n x s).dir = s.dir := by unfold setQ; split; rfl; split <;> rfl
@[simp] theorem setQ_l2 (n : QReg) (x : Word) (s : State) : (setQ n x s).l2 = s.l2 := by unfold setQ; split; rfl; split <;> rfl
@[simp] theorem setQ_tlb (n : QReg) (x : Word) (s : State) : (setQ n x s).tlb = s.tlb := by unfold setQ; split; rfl; split <;> rfl
@[simp] theorem setQ_msgs (n : QReg) (x : Word) (s : State) : (setQ n x s).msgs = s.msgs := by unfold setQ; split; rfl; split <;> rfl
@[simp] theorem setQ_chains (n : QReg) (x : Word) (s : State) : (setQ n x s).chains = s.chains := by unfold setQ; split; rfl; split <;> rfl
@[simp] theorem setQ_palMsgs (n : QReg) (x : Word) (s : State) : (setQ n x s).palMsgs = s.palMsgs := by unfold setQ; split; rfl; split <;> rfl
@[simp] theorem setQ_parts (n : QReg) (x : Word) (s : State) : (setQ n x s).parts = s.parts := by unfold setQ; split; rfl; split <;> rfl
@[simp] theorem setQ_queues (n : QReg) (x : Word) (s : State) : (setQ n x s).queues = s.queues := by unfold setQ; split; rfl; split <;> rfl
@[simp] theorem setQ_launches (n : QReg) (x : Word) (s : State) : (setQ n x s).launches = s.launches := by unfold setQ; split; rfl; split <;> rfl
@[simp] theorem setQ_tickets (n : QReg) (x : Word) (s : State) : (setQ n x s).tickets = s.tickets := by unfold setQ; split; rfl; split <;> rfl
@[simp] theorem setQ_nextTicket (n : QReg) (x : Word) (s : State) : (setQ n x s).nextTicket = s.nextTicket := by unfold setQ; split; rfl; split <;> rfl
@[simp] theorem setQ_invs (n : QReg) (x : Word) (s : State) : (setQ n x s).invs = s.invs := by unfold setQ; split; rfl; split <;> rfl
@[simp] theorem setQ_irqs (n : QReg) (x : Word) (s : State) : (setQ n x s).irqs = s.irqs := by unfold setQ; split; rfl; split <;> rfl
@[simp] theorem setQ_hostData (n : QReg) (x : Word) (s : State) : (setQ n x s).hostData = s.hostData := by unfold setQ; split; rfl; split <;> rfl
@[simp] theorem setQ_time (n : QReg) (x : Word) (s : State) : (setQ n x s).time = s.time := by unfold setQ; split; rfl; split <;> rfl
@[simp] theorem setQ_failed (n : QReg) (x : Word) (s : State) : (setQ n x s).failed = s.failed := by unfold setQ; split; rfl; split <;> rfl
@[simp] theorem setQ_flows (n : QReg) (x : Word) (s : State) : (setQ n x s).flows = s.flows := by unfold setQ; split; rfl; split <;> rfl
@[simp] theorem setQ_gwerid (n : QReg) (x : Word) (s : State) : (setQ n x s).gwerid = s.gwerid := by unfold setQ; split; rfl; split <;> rfl
@[simp] theorem setQ_optics (n : QReg) (x : Word) (s : State) : (setQ n x s).optics = s.optics := by unfold setQ; split; rfl; split <;> rfl
@[simp] theorem setQ_fw (n : QReg) (x : Word) (s : State) : (setQ n x s).fw = s.fw := by unfold setQ; split; rfl; split <;> rfl
@[simp] theorem setQ_seq (n : QReg) (x : Word) (s : State) : (setQ n x s).seq = s.seq := by unfold setQ; split; rfl; split <;> rfl
@[simp] theorem setQ_agenda (n : QReg) (x : Word) (s : State) : (setQ n x s).agenda = s.agenda := by unfold setQ; split; rfl; split <;> rfl
@[simp] theorem setQ_free (n : QReg) (x : Word) (s : State) : (setQ n x s).free = s.free := by unfold setQ; split; rfl; split <;> rfl
@[simp] theorem setQ_tick (n : QReg) (x : Word) (s : State) : (setQ n x s).tick = s.tick := by unfold setQ; split; rfl; split <;> rfl
@[simp] theorem setQ_ts_s (n : QReg) (x : Word) (s : State) : (setQ n x s).ts.s = s.ts.s := by unfold setQ; split; rfl; split <;> rfl
@[simp] theorem setQ_ts_v (n : QReg) (x : Word) (s : State) : (setQ n x s).ts.v = s.ts.v := by unfold setQ; split; rfl; split <;> rfl
@[simp] theorem setQ_ts_pc (n : QReg) (x : Word) (s : State) : (setQ n x s).ts.pc = s.ts.pc := by unfold setQ; split; rfl; split <;> rfl
@[simp] theorem setQ_ts_slots (n : QReg) (x : Word) (s : State) : (setQ n x s).ts.slots = s.ts.slots := by unfold setQ; split; rfl; split <;> rfl
@[simp] theorem setQ_ts_shS (n : QReg) (x : Word) (s : State) : (setQ n x s).ts.shS = s.ts.shS := by unfold setQ; split; rfl; split <;> rfl
@[simp] theorem setQ_ts_status (n : QReg) (x : Word) (s : State) : (setQ n x s).ts.status = s.ts.status := by unfold setQ; split; rfl; split <;> rfl
@[simp] theorem setQ_ts_epc (n : QReg) (x : Word) (s : State) : (setQ n x s).ts.epc = s.ts.epc := by unfold setQ; split; rfl; split <;> rfl
@[simp] theorem setQ_ts_ecause (n : QReg) (x : Word) (s : State) : (setQ n x s).ts.ecause = s.ts.ecause := by unfold setQ; split; rfl; split <;> rfl
@[simp] theorem setQ_ts_eval (n : QReg) (x : Word) (s : State) : (setQ n x s).ts.eval = s.ts.eval := by unfold setQ; split; rfl; split <;> rfl
@[simp] theorem setQ_ts_tvec (n : QReg) (x : Word) (s : State) : (setQ n x s).ts.tvec = s.ts.tvec := by unfold setQ; split; rfl; split <;> rfl
@[simp] theorem setQ_ts_uxvec (n : QReg) (x : Word) (s : State) : (setQ n x s).ts.uxvec = s.ts.uxvec := by unfold setQ; split; rfl; split <;> rfl
@[simp] theorem setQ_ts_uxid (n : QReg) (x : Word) (s : State) : (setQ n x s).ts.uxid = s.ts.uxid := by unfold setQ; split; rfl; split <;> rfl
@[simp] theorem setQ_ts_uxepc (n : QReg) (x : Word) (s : State) : (setQ n x s).ts.uxepc = s.ts.uxepc := by unfold setQ; split; rfl; split <;> rfl
@[simp] theorem setQ_ts_srctr (n : QReg) (x : Word) (s : State) : (setQ n x s).ts.srctr = s.ts.srctr := by unfold setQ; split; rfl; split <;> rfl
@[simp] theorem setQ_ts_budget (n : QReg) (x : Word) (s : State) : (setQ n x s).ts.budget = s.ts.budget := by unfold setQ; split; rfl; split <;> rfl
@[simp] theorem setQ_ts_rankid (n : QReg) (x : Word) (s : State) : (setQ n x s).ts.rankid = s.ts.rankid := by unfold setQ; split; rfl; split <;> rfl
@[simp] theorem setQ_ts_coord (n : QReg) (x : Word) (s : State) : (setQ n x s).ts.coord = s.ts.coord := by unfold setQ; split; rfl; split <;> rfl
@[simp] theorem setQ_ts_launchid (n : QReg) (x : Word) (s : State) : (setQ n x s).ts.launchid = s.ts.launchid := by unfold setQ; split; rfl; split <;> rfl
@[simp] theorem setQ_ts_rect (n : QReg) (x : Word) (s : State) : (setQ n x s).ts.rect = s.ts.rect := by unfold setQ; split; rfl; split <;> rfl
@[simp] theorem setQ_ts_deadline (n : QReg) (x : Word) (s : State) : (setQ n x s).ts.deadline = s.ts.deadline := by unfold setQ; split; rfl; split <;> rfl
@[simp] theorem setQ_ts_srseed (n : QReg) (x : Word) (s : State) : (setQ n x s).ts.srseed = s.ts.srseed := by unfold setQ; split; rfl; split <;> rfl
@[simp] theorem setQ_ts_partid (n : QReg) (x : Word) (s : State) : (setQ n x s).ts.partid = s.ts.partid := by unfold setQ; split; rfl; split <;> rfl
@[simp] theorem setQ_ts_tsid (n : QReg) (x : Word) (s : State) : (setQ n x s).ts.tsid = s.ts.tsid := by unfold setQ; split; rfl; split <;> rfl
@[simp] theorem setQ_ts_prio (n : QReg) (x : Word) (s : State) : (setQ n x s).ts.prio = s.ts.prio := by unfold setQ; split; rfl; split <;> rfl
@[simp] theorem setQ_ts_priv (n : QReg) (x : Word) (s : State) : (setQ n x s).ts.priv = s.ts.priv := by unfold setQ; split; rfl; split <;> rfl
@[simp] theorem setQ_ts_plen (n : QReg) (x : Word) (s : State) : (setQ n x s).ts.plen = s.ts.plen := by unfold setQ; split; rfl; split <;> rfl
@[simp] theorem setQ_ts_live (n : QReg) (x : Word) (s : State) : (setQ n x s).ts.live = s.ts.live := by unfold setQ; split; rfl; split <;> rfl
@[simp] theorem setQ_ts_run (n : QReg) (x : Word) (s : State) : (setQ n x s).ts.run = s.ts.run := by unfold setQ; split; rfl; split <;> rfl
@[simp] theorem setQ_ts_fbuf (n : QReg) (x : Word) (s : State) : (setQ n x s).ts.fbuf = s.ts.fbuf := by unfold setQ; split; rfl; split <;> rfl
@[simp] theorem setQ_ts_ux (n : QReg) (x : Word) (s : State) : (setQ n x s).ts.ux = s.ts.ux := by unfold setQ; split; rfl; split <;> rfl
@[simp] theorem setQ_ts_sched (n : QReg) (x : Word) (s : State) : (setQ n x s).ts.sched = s.ts.sched := by unfold setQ; split; rfl; split <;> rfl
@[simp] theorem setQ_ts_barl (n : QReg) (x : Word) (s : State) : (setQ n x s).ts.barl = s.ts.barl := by unfold setQ; split; rfl; split <;> rfl
@[simp] theorem setQ_ts_waitphase (n : QReg) (x : Word) (s : State) : (setQ n x s).ts.waitphase = s.ts.waitphase := by unfold setQ; split; rfl; split <;> rfl
@[simp] theorem setQ_ts_sends (n : QReg) (x : Word) (s : State) : (setQ n x s).ts.sends = s.ts.sends := by unfold setQ; split; rfl; split <;> rfl
@[simp] theorem setQ_ts_locks (n : QReg) (x : Word) (s : State) : (setQ n x s).ts.locks = s.ts.locks := by unfold setQ; split; rfl; split <;> rfl
@[simp] theorem setQ_ts_pins (n : QReg) (x : Word) (s : State) : (setQ n x s).ts.pins = s.ts.pins := by unfold setQ; split; rfl; split <;> rfl
@[simp] theorem setQ_ts_wbase (n : QReg) (x : Word) (s : State) : (setQ n x s).ts.wbase = s.ts.wbase := by unfold setQ; split; rfl; split <;> rfl
@[simp] theorem setQ_ts_wsize (n : QReg) (x : Word) (s : State) : (setQ n x s).ts.wsize = s.ts.wsize := by unfold setQ; split; rfl; split <;> rfl
@[simp] theorem setQ_ts_ticket (n : QReg) (x : Word) (s : State) : (setQ n x s).ts.ticket = s.ts.ticket := by unfold setQ; split; rfl; split <;> rfl
@[simp] theorem setQ_ts_palHold (n : QReg) (x : Word) (s : State) : (setQ n x s).ts.palHold = s.ts.palHold := by unfold setQ; split; rfl; split <;> rfl
@[simp] theorem setQ_ts_palTaken (n : QReg) (x : Word) (s : State) : (setQ n x s).ts.palTaken = s.ts.palTaken := by unfold setQ; split; rfl; split <;> rfl
@[simp] theorem setQ_ts_trgWait (n : QReg) (x : Word) (s : State) : (setQ n x s).ts.trgWait = s.ts.trgWait := by unfold setQ; split; rfl; split <;> rfl
@[simp] theorem setQ_ts_enqWord (n : QReg) (x : Word) (s : State) : (setQ n x s).ts.enqWord = s.ts.enqWord := by unfold setQ; split; rfl; split <;> rfl

/-! ## setV -/

@[simp] theorem setV_tid (n : VReg) (x : VWord) (s : State) : (setV n x s).tid = s.tid := rfl
@[simp] theorem setV_core (n : VReg) (x : VWord) (s : State) : (setV n x s).core = s.core := rfl
@[simp] theorem setV_here (n : VReg) (x : VWord) (s : State) : (setV n x s).here = s.here := rfl
@[simp] theorem setV_cores (n : VReg) (x : VWord) (s : State) : (setV n x s).cores = s.cores := rfl
@[simp] theorem setV_mem (n : VReg) (x : VWord) (s : State) : (setV n x s).mem = s.mem := rfl
@[simp] theorem setV_bad (n : VReg) (x : VWord) (s : State) : (setV n x s).bad = s.bad := rfl
@[simp] theorem setV_soft (n : VReg) (x : VWord) (s : State) : (setV n x s).soft = s.soft := rfl
@[simp] theorem setV_poison (n : VReg) (x : VWord) (s : State) : (setV n x s).poison = s.poison := rfl
@[simp] theorem setV_l1bad (n : VReg) (x : VWord) (s : State) : (setV n x s).l1bad = s.l1bad := rfl
@[simp] theorem setV_l1soft (n : VReg) (x : VWord) (s : State) : (setV n x s).l1soft = s.l1soft := rfl
@[simp] theorem setV_hostOld (n : VReg) (x : VWord) (s : State) : (setV n x s).hostOld = s.hostOld := rfl
@[simp] theorem setV_pend (n : VReg) (x : VWord) (s : State) : (setV n x s).pend = s.pend := rfl
@[simp] theorem setV_versions (n : VReg) (x : VWord) (s : State) : (setV n x s).versions = s.versions := rfl
@[simp] theorem setV_waiters (n : VReg) (x : VWord) (s : State) : (setV n x s).waiters = s.waiters := rfl
@[simp] theorem setV_dir (n : VReg) (x : VWord) (s : State) : (setV n x s).dir = s.dir := rfl
@[simp] theorem setV_l2 (n : VReg) (x : VWord) (s : State) : (setV n x s).l2 = s.l2 := rfl
@[simp] theorem setV_tlb (n : VReg) (x : VWord) (s : State) : (setV n x s).tlb = s.tlb := rfl
@[simp] theorem setV_msgs (n : VReg) (x : VWord) (s : State) : (setV n x s).msgs = s.msgs := rfl
@[simp] theorem setV_chains (n : VReg) (x : VWord) (s : State) : (setV n x s).chains = s.chains := rfl
@[simp] theorem setV_palMsgs (n : VReg) (x : VWord) (s : State) : (setV n x s).palMsgs = s.palMsgs := rfl
@[simp] theorem setV_parts (n : VReg) (x : VWord) (s : State) : (setV n x s).parts = s.parts := rfl
@[simp] theorem setV_queues (n : VReg) (x : VWord) (s : State) : (setV n x s).queues = s.queues := rfl
@[simp] theorem setV_launches (n : VReg) (x : VWord) (s : State) : (setV n x s).launches = s.launches := rfl
@[simp] theorem setV_tickets (n : VReg) (x : VWord) (s : State) : (setV n x s).tickets = s.tickets := rfl
@[simp] theorem setV_nextTicket (n : VReg) (x : VWord) (s : State) : (setV n x s).nextTicket = s.nextTicket := rfl
@[simp] theorem setV_invs (n : VReg) (x : VWord) (s : State) : (setV n x s).invs = s.invs := rfl
@[simp] theorem setV_irqs (n : VReg) (x : VWord) (s : State) : (setV n x s).irqs = s.irqs := rfl
@[simp] theorem setV_hostData (n : VReg) (x : VWord) (s : State) : (setV n x s).hostData = s.hostData := rfl
@[simp] theorem setV_time (n : VReg) (x : VWord) (s : State) : (setV n x s).time = s.time := rfl
@[simp] theorem setV_failed (n : VReg) (x : VWord) (s : State) : (setV n x s).failed = s.failed := rfl
@[simp] theorem setV_flows (n : VReg) (x : VWord) (s : State) : (setV n x s).flows = s.flows := rfl
@[simp] theorem setV_gwerid (n : VReg) (x : VWord) (s : State) : (setV n x s).gwerid = s.gwerid := rfl
@[simp] theorem setV_optics (n : VReg) (x : VWord) (s : State) : (setV n x s).optics = s.optics := rfl
@[simp] theorem setV_fw (n : VReg) (x : VWord) (s : State) : (setV n x s).fw = s.fw := rfl
@[simp] theorem setV_seq (n : VReg) (x : VWord) (s : State) : (setV n x s).seq = s.seq := rfl
@[simp] theorem setV_agenda (n : VReg) (x : VWord) (s : State) : (setV n x s).agenda = s.agenda := rfl
@[simp] theorem setV_free (n : VReg) (x : VWord) (s : State) : (setV n x s).free = s.free := rfl
@[simp] theorem setV_tick (n : VReg) (x : VWord) (s : State) : (setV n x s).tick = s.tick := rfl
@[simp] theorem setV_ts_s (n : VReg) (x : VWord) (s : State) : (setV n x s).ts.s = s.ts.s := rfl
@[simp] theorem setV_ts_q (n : VReg) (x : VWord) (s : State) : (setV n x s).ts.q = s.ts.q := rfl
@[simp] theorem setV_ts_pc (n : VReg) (x : VWord) (s : State) : (setV n x s).ts.pc = s.ts.pc := rfl
@[simp] theorem setV_ts_slots (n : VReg) (x : VWord) (s : State) : (setV n x s).ts.slots = s.ts.slots := rfl
@[simp] theorem setV_ts_shS (n : VReg) (x : VWord) (s : State) : (setV n x s).ts.shS = s.ts.shS := rfl
@[simp] theorem setV_ts_shQ7 (n : VReg) (x : VWord) (s : State) : (setV n x s).ts.shQ7 = s.ts.shQ7 := rfl
@[simp] theorem setV_ts_status (n : VReg) (x : VWord) (s : State) : (setV n x s).ts.status = s.ts.status := rfl
@[simp] theorem setV_ts_epc (n : VReg) (x : VWord) (s : State) : (setV n x s).ts.epc = s.ts.epc := rfl
@[simp] theorem setV_ts_ecause (n : VReg) (x : VWord) (s : State) : (setV n x s).ts.ecause = s.ts.ecause := rfl
@[simp] theorem setV_ts_eval (n : VReg) (x : VWord) (s : State) : (setV n x s).ts.eval = s.ts.eval := rfl
@[simp] theorem setV_ts_tvec (n : VReg) (x : VWord) (s : State) : (setV n x s).ts.tvec = s.ts.tvec := rfl
@[simp] theorem setV_ts_uxvec (n : VReg) (x : VWord) (s : State) : (setV n x s).ts.uxvec = s.ts.uxvec := rfl
@[simp] theorem setV_ts_uxid (n : VReg) (x : VWord) (s : State) : (setV n x s).ts.uxid = s.ts.uxid := rfl
@[simp] theorem setV_ts_uxepc (n : VReg) (x : VWord) (s : State) : (setV n x s).ts.uxepc = s.ts.uxepc := rfl
@[simp] theorem setV_ts_srctr (n : VReg) (x : VWord) (s : State) : (setV n x s).ts.srctr = s.ts.srctr := rfl
@[simp] theorem setV_ts_budget (n : VReg) (x : VWord) (s : State) : (setV n x s).ts.budget = s.ts.budget := rfl
@[simp] theorem setV_ts_rankid (n : VReg) (x : VWord) (s : State) : (setV n x s).ts.rankid = s.ts.rankid := rfl
@[simp] theorem setV_ts_coord (n : VReg) (x : VWord) (s : State) : (setV n x s).ts.coord = s.ts.coord := rfl
@[simp] theorem setV_ts_launchid (n : VReg) (x : VWord) (s : State) : (setV n x s).ts.launchid = s.ts.launchid := rfl
@[simp] theorem setV_ts_rect (n : VReg) (x : VWord) (s : State) : (setV n x s).ts.rect = s.ts.rect := rfl
@[simp] theorem setV_ts_deadline (n : VReg) (x : VWord) (s : State) : (setV n x s).ts.deadline = s.ts.deadline := rfl
@[simp] theorem setV_ts_srseed (n : VReg) (x : VWord) (s : State) : (setV n x s).ts.srseed = s.ts.srseed := rfl
@[simp] theorem setV_ts_partid (n : VReg) (x : VWord) (s : State) : (setV n x s).ts.partid = s.ts.partid := rfl
@[simp] theorem setV_ts_tsid (n : VReg) (x : VWord) (s : State) : (setV n x s).ts.tsid = s.ts.tsid := rfl
@[simp] theorem setV_ts_prio (n : VReg) (x : VWord) (s : State) : (setV n x s).ts.prio = s.ts.prio := rfl
@[simp] theorem setV_ts_priv (n : VReg) (x : VWord) (s : State) : (setV n x s).ts.priv = s.ts.priv := rfl
@[simp] theorem setV_ts_plen (n : VReg) (x : VWord) (s : State) : (setV n x s).ts.plen = s.ts.plen := rfl
@[simp] theorem setV_ts_live (n : VReg) (x : VWord) (s : State) : (setV n x s).ts.live = s.ts.live := rfl
@[simp] theorem setV_ts_run (n : VReg) (x : VWord) (s : State) : (setV n x s).ts.run = s.ts.run := rfl
@[simp] theorem setV_ts_fbuf (n : VReg) (x : VWord) (s : State) : (setV n x s).ts.fbuf = s.ts.fbuf := rfl
@[simp] theorem setV_ts_ux (n : VReg) (x : VWord) (s : State) : (setV n x s).ts.ux = s.ts.ux := rfl
@[simp] theorem setV_ts_sched (n : VReg) (x : VWord) (s : State) : (setV n x s).ts.sched = s.ts.sched := rfl
@[simp] theorem setV_ts_barl (n : VReg) (x : VWord) (s : State) : (setV n x s).ts.barl = s.ts.barl := rfl
@[simp] theorem setV_ts_waitphase (n : VReg) (x : VWord) (s : State) : (setV n x s).ts.waitphase = s.ts.waitphase := rfl
@[simp] theorem setV_ts_sends (n : VReg) (x : VWord) (s : State) : (setV n x s).ts.sends = s.ts.sends := rfl
@[simp] theorem setV_ts_locks (n : VReg) (x : VWord) (s : State) : (setV n x s).ts.locks = s.ts.locks := rfl
@[simp] theorem setV_ts_pins (n : VReg) (x : VWord) (s : State) : (setV n x s).ts.pins = s.ts.pins := rfl
@[simp] theorem setV_ts_wbase (n : VReg) (x : VWord) (s : State) : (setV n x s).ts.wbase = s.ts.wbase := rfl
@[simp] theorem setV_ts_wsize (n : VReg) (x : VWord) (s : State) : (setV n x s).ts.wsize = s.ts.wsize := rfl
@[simp] theorem setV_ts_ticket (n : VReg) (x : VWord) (s : State) : (setV n x s).ts.ticket = s.ts.ticket := rfl
@[simp] theorem setV_ts_palHold (n : VReg) (x : VWord) (s : State) : (setV n x s).ts.palHold = s.ts.palHold := rfl
@[simp] theorem setV_ts_palTaken (n : VReg) (x : VWord) (s : State) : (setV n x s).ts.palTaken = s.ts.palTaken := rfl
@[simp] theorem setV_ts_trgWait (n : VReg) (x : VWord) (s : State) : (setV n x s).ts.trgWait = s.ts.trgWait := rfl
@[simp] theorem setV_ts_enqWord (n : VReg) (x : VWord) (s : State) : (setV n x s).ts.enqWord = s.ts.enqWord := rfl

/-! ## accrue -/

@[simp] theorem accrue_tid (fl : FFlags) (s : State) : (accrue fl s).tid = s.tid := rfl
@[simp] theorem accrue_core (fl : FFlags) (s : State) : (accrue fl s).core = s.core := rfl
@[simp] theorem accrue_here (fl : FFlags) (s : State) : (accrue fl s).here = s.here := rfl
@[simp] theorem accrue_cores (fl : FFlags) (s : State) : (accrue fl s).cores = s.cores := rfl
@[simp] theorem accrue_mem (fl : FFlags) (s : State) : (accrue fl s).mem = s.mem := rfl
@[simp] theorem accrue_bad (fl : FFlags) (s : State) : (accrue fl s).bad = s.bad := rfl
@[simp] theorem accrue_soft (fl : FFlags) (s : State) : (accrue fl s).soft = s.soft := rfl
@[simp] theorem accrue_poison (fl : FFlags) (s : State) : (accrue fl s).poison = s.poison := rfl
@[simp] theorem accrue_l1bad (fl : FFlags) (s : State) : (accrue fl s).l1bad = s.l1bad := rfl
@[simp] theorem accrue_l1soft (fl : FFlags) (s : State) : (accrue fl s).l1soft = s.l1soft := rfl
@[simp] theorem accrue_hostOld (fl : FFlags) (s : State) : (accrue fl s).hostOld = s.hostOld := rfl
@[simp] theorem accrue_pend (fl : FFlags) (s : State) : (accrue fl s).pend = s.pend := rfl
@[simp] theorem accrue_versions (fl : FFlags) (s : State) : (accrue fl s).versions = s.versions := rfl
@[simp] theorem accrue_waiters (fl : FFlags) (s : State) : (accrue fl s).waiters = s.waiters := rfl
@[simp] theorem accrue_dir (fl : FFlags) (s : State) : (accrue fl s).dir = s.dir := rfl
@[simp] theorem accrue_l2 (fl : FFlags) (s : State) : (accrue fl s).l2 = s.l2 := rfl
@[simp] theorem accrue_tlb (fl : FFlags) (s : State) : (accrue fl s).tlb = s.tlb := rfl
@[simp] theorem accrue_msgs (fl : FFlags) (s : State) : (accrue fl s).msgs = s.msgs := rfl
@[simp] theorem accrue_chains (fl : FFlags) (s : State) : (accrue fl s).chains = s.chains := rfl
@[simp] theorem accrue_palMsgs (fl : FFlags) (s : State) : (accrue fl s).palMsgs = s.palMsgs := rfl
@[simp] theorem accrue_parts (fl : FFlags) (s : State) : (accrue fl s).parts = s.parts := rfl
@[simp] theorem accrue_queues (fl : FFlags) (s : State) : (accrue fl s).queues = s.queues := rfl
@[simp] theorem accrue_launches (fl : FFlags) (s : State) : (accrue fl s).launches = s.launches := rfl
@[simp] theorem accrue_tickets (fl : FFlags) (s : State) : (accrue fl s).tickets = s.tickets := rfl
@[simp] theorem accrue_nextTicket (fl : FFlags) (s : State) : (accrue fl s).nextTicket = s.nextTicket := rfl
@[simp] theorem accrue_invs (fl : FFlags) (s : State) : (accrue fl s).invs = s.invs := rfl
@[simp] theorem accrue_irqs (fl : FFlags) (s : State) : (accrue fl s).irqs = s.irqs := rfl
@[simp] theorem accrue_hostData (fl : FFlags) (s : State) : (accrue fl s).hostData = s.hostData := rfl
@[simp] theorem accrue_time (fl : FFlags) (s : State) : (accrue fl s).time = s.time := rfl
@[simp] theorem accrue_failed (fl : FFlags) (s : State) : (accrue fl s).failed = s.failed := rfl
@[simp] theorem accrue_flows (fl : FFlags) (s : State) : (accrue fl s).flows = s.flows := rfl
@[simp] theorem accrue_gwerid (fl : FFlags) (s : State) : (accrue fl s).gwerid = s.gwerid := rfl
@[simp] theorem accrue_optics (fl : FFlags) (s : State) : (accrue fl s).optics = s.optics := rfl
@[simp] theorem accrue_fw (fl : FFlags) (s : State) : (accrue fl s).fw = s.fw := rfl
@[simp] theorem accrue_seq (fl : FFlags) (s : State) : (accrue fl s).seq = s.seq := rfl
@[simp] theorem accrue_agenda (fl : FFlags) (s : State) : (accrue fl s).agenda = s.agenda := rfl
@[simp] theorem accrue_free (fl : FFlags) (s : State) : (accrue fl s).free = s.free := rfl
@[simp] theorem accrue_tick (fl : FFlags) (s : State) : (accrue fl s).tick = s.tick := rfl
@[simp] theorem accrue_ts_s (fl : FFlags) (s : State) : (accrue fl s).ts.s = s.ts.s := rfl
@[simp] theorem accrue_ts_v (fl : FFlags) (s : State) : (accrue fl s).ts.v = s.ts.v := rfl
@[simp] theorem accrue_ts_q (fl : FFlags) (s : State) : (accrue fl s).ts.q = s.ts.q := rfl
@[simp] theorem accrue_ts_pc (fl : FFlags) (s : State) : (accrue fl s).ts.pc = s.ts.pc := rfl
@[simp] theorem accrue_ts_slots (fl : FFlags) (s : State) : (accrue fl s).ts.slots = s.ts.slots := rfl
@[simp] theorem accrue_ts_shS (fl : FFlags) (s : State) : (accrue fl s).ts.shS = s.ts.shS := rfl
@[simp] theorem accrue_ts_shQ7 (fl : FFlags) (s : State) : (accrue fl s).ts.shQ7 = s.ts.shQ7 := rfl
@[simp] theorem accrue_ts_epc (fl : FFlags) (s : State) : (accrue fl s).ts.epc = s.ts.epc := rfl
@[simp] theorem accrue_ts_ecause (fl : FFlags) (s : State) : (accrue fl s).ts.ecause = s.ts.ecause := rfl
@[simp] theorem accrue_ts_eval (fl : FFlags) (s : State) : (accrue fl s).ts.eval = s.ts.eval := rfl
@[simp] theorem accrue_ts_tvec (fl : FFlags) (s : State) : (accrue fl s).ts.tvec = s.ts.tvec := rfl
@[simp] theorem accrue_ts_uxvec (fl : FFlags) (s : State) : (accrue fl s).ts.uxvec = s.ts.uxvec := rfl
@[simp] theorem accrue_ts_uxid (fl : FFlags) (s : State) : (accrue fl s).ts.uxid = s.ts.uxid := rfl
@[simp] theorem accrue_ts_uxepc (fl : FFlags) (s : State) : (accrue fl s).ts.uxepc = s.ts.uxepc := rfl
@[simp] theorem accrue_ts_srctr (fl : FFlags) (s : State) : (accrue fl s).ts.srctr = s.ts.srctr := rfl
@[simp] theorem accrue_ts_budget (fl : FFlags) (s : State) : (accrue fl s).ts.budget = s.ts.budget := rfl
@[simp] theorem accrue_ts_rankid (fl : FFlags) (s : State) : (accrue fl s).ts.rankid = s.ts.rankid := rfl
@[simp] theorem accrue_ts_coord (fl : FFlags) (s : State) : (accrue fl s).ts.coord = s.ts.coord := rfl
@[simp] theorem accrue_ts_launchid (fl : FFlags) (s : State) : (accrue fl s).ts.launchid = s.ts.launchid := rfl
@[simp] theorem accrue_ts_rect (fl : FFlags) (s : State) : (accrue fl s).ts.rect = s.ts.rect := rfl
@[simp] theorem accrue_ts_deadline (fl : FFlags) (s : State) : (accrue fl s).ts.deadline = s.ts.deadline := rfl
@[simp] theorem accrue_ts_srseed (fl : FFlags) (s : State) : (accrue fl s).ts.srseed = s.ts.srseed := rfl
@[simp] theorem accrue_ts_partid (fl : FFlags) (s : State) : (accrue fl s).ts.partid = s.ts.partid := rfl
@[simp] theorem accrue_ts_tsid (fl : FFlags) (s : State) : (accrue fl s).ts.tsid = s.ts.tsid := rfl
@[simp] theorem accrue_ts_prio (fl : FFlags) (s : State) : (accrue fl s).ts.prio = s.ts.prio := rfl
@[simp] theorem accrue_ts_priv (fl : FFlags) (s : State) : (accrue fl s).ts.priv = s.ts.priv := rfl
@[simp] theorem accrue_ts_plen (fl : FFlags) (s : State) : (accrue fl s).ts.plen = s.ts.plen := rfl
@[simp] theorem accrue_ts_live (fl : FFlags) (s : State) : (accrue fl s).ts.live = s.ts.live := rfl
@[simp] theorem accrue_ts_run (fl : FFlags) (s : State) : (accrue fl s).ts.run = s.ts.run := rfl
@[simp] theorem accrue_ts_fbuf (fl : FFlags) (s : State) : (accrue fl s).ts.fbuf = s.ts.fbuf := rfl
@[simp] theorem accrue_ts_ux (fl : FFlags) (s : State) : (accrue fl s).ts.ux = s.ts.ux := rfl
@[simp] theorem accrue_ts_sched (fl : FFlags) (s : State) : (accrue fl s).ts.sched = s.ts.sched := rfl
@[simp] theorem accrue_ts_barl (fl : FFlags) (s : State) : (accrue fl s).ts.barl = s.ts.barl := rfl
@[simp] theorem accrue_ts_waitphase (fl : FFlags) (s : State) : (accrue fl s).ts.waitphase = s.ts.waitphase := rfl
@[simp] theorem accrue_ts_sends (fl : FFlags) (s : State) : (accrue fl s).ts.sends = s.ts.sends := rfl
@[simp] theorem accrue_ts_locks (fl : FFlags) (s : State) : (accrue fl s).ts.locks = s.ts.locks := rfl
@[simp] theorem accrue_ts_pins (fl : FFlags) (s : State) : (accrue fl s).ts.pins = s.ts.pins := rfl
@[simp] theorem accrue_ts_wbase (fl : FFlags) (s : State) : (accrue fl s).ts.wbase = s.ts.wbase := rfl
@[simp] theorem accrue_ts_wsize (fl : FFlags) (s : State) : (accrue fl s).ts.wsize = s.ts.wsize := rfl
@[simp] theorem accrue_ts_ticket (fl : FFlags) (s : State) : (accrue fl s).ts.ticket = s.ts.ticket := rfl
@[simp] theorem accrue_ts_palHold (fl : FFlags) (s : State) : (accrue fl s).ts.palHold = s.ts.palHold := rfl
@[simp] theorem accrue_ts_palTaken (fl : FFlags) (s : State) : (accrue fl s).ts.palTaken = s.ts.palTaken := rfl
@[simp] theorem accrue_ts_trgWait (fl : FFlags) (s : State) : (accrue fl s).ts.trgWait = s.ts.trgWait := rfl
@[simp] theorem accrue_ts_enqWord (fl : FFlags) (s : State) : (accrue fl s).ts.enqWord = s.ts.enqWord := rfl

/-! ## useDraws -/

@[simp] theorem useDraws_tid (k : Nat) (s : State) : (useDraws k s).tid = s.tid := rfl
@[simp] theorem useDraws_core (k : Nat) (s : State) : (useDraws k s).core = s.core := rfl
@[simp] theorem useDraws_here (k : Nat) (s : State) : (useDraws k s).here = s.here := rfl
@[simp] theorem useDraws_cores (k : Nat) (s : State) : (useDraws k s).cores = s.cores := rfl
@[simp] theorem useDraws_mem (k : Nat) (s : State) : (useDraws k s).mem = s.mem := rfl
@[simp] theorem useDraws_bad (k : Nat) (s : State) : (useDraws k s).bad = s.bad := rfl
@[simp] theorem useDraws_soft (k : Nat) (s : State) : (useDraws k s).soft = s.soft := rfl
@[simp] theorem useDraws_poison (k : Nat) (s : State) : (useDraws k s).poison = s.poison := rfl
@[simp] theorem useDraws_l1bad (k : Nat) (s : State) : (useDraws k s).l1bad = s.l1bad := rfl
@[simp] theorem useDraws_l1soft (k : Nat) (s : State) : (useDraws k s).l1soft = s.l1soft := rfl
@[simp] theorem useDraws_hostOld (k : Nat) (s : State) : (useDraws k s).hostOld = s.hostOld := rfl
@[simp] theorem useDraws_pend (k : Nat) (s : State) : (useDraws k s).pend = s.pend := rfl
@[simp] theorem useDraws_versions (k : Nat) (s : State) : (useDraws k s).versions = s.versions := rfl
@[simp] theorem useDraws_waiters (k : Nat) (s : State) : (useDraws k s).waiters = s.waiters := rfl
@[simp] theorem useDraws_dir (k : Nat) (s : State) : (useDraws k s).dir = s.dir := rfl
@[simp] theorem useDraws_l2 (k : Nat) (s : State) : (useDraws k s).l2 = s.l2 := rfl
@[simp] theorem useDraws_tlb (k : Nat) (s : State) : (useDraws k s).tlb = s.tlb := rfl
@[simp] theorem useDraws_msgs (k : Nat) (s : State) : (useDraws k s).msgs = s.msgs := rfl
@[simp] theorem useDraws_chains (k : Nat) (s : State) : (useDraws k s).chains = s.chains := rfl
@[simp] theorem useDraws_palMsgs (k : Nat) (s : State) : (useDraws k s).palMsgs = s.palMsgs := rfl
@[simp] theorem useDraws_parts (k : Nat) (s : State) : (useDraws k s).parts = s.parts := rfl
@[simp] theorem useDraws_queues (k : Nat) (s : State) : (useDraws k s).queues = s.queues := rfl
@[simp] theorem useDraws_launches (k : Nat) (s : State) : (useDraws k s).launches = s.launches := rfl
@[simp] theorem useDraws_tickets (k : Nat) (s : State) : (useDraws k s).tickets = s.tickets := rfl
@[simp] theorem useDraws_nextTicket (k : Nat) (s : State) : (useDraws k s).nextTicket = s.nextTicket := rfl
@[simp] theorem useDraws_invs (k : Nat) (s : State) : (useDraws k s).invs = s.invs := rfl
@[simp] theorem useDraws_irqs (k : Nat) (s : State) : (useDraws k s).irqs = s.irqs := rfl
@[simp] theorem useDraws_hostData (k : Nat) (s : State) : (useDraws k s).hostData = s.hostData := rfl
@[simp] theorem useDraws_time (k : Nat) (s : State) : (useDraws k s).time = s.time := rfl
@[simp] theorem useDraws_failed (k : Nat) (s : State) : (useDraws k s).failed = s.failed := rfl
@[simp] theorem useDraws_flows (k : Nat) (s : State) : (useDraws k s).flows = s.flows := rfl
@[simp] theorem useDraws_gwerid (k : Nat) (s : State) : (useDraws k s).gwerid = s.gwerid := rfl
@[simp] theorem useDraws_optics (k : Nat) (s : State) : (useDraws k s).optics = s.optics := rfl
@[simp] theorem useDraws_fw (k : Nat) (s : State) : (useDraws k s).fw = s.fw := rfl
@[simp] theorem useDraws_seq (k : Nat) (s : State) : (useDraws k s).seq = s.seq := rfl
@[simp] theorem useDraws_agenda (k : Nat) (s : State) : (useDraws k s).agenda = s.agenda := rfl
@[simp] theorem useDraws_free (k : Nat) (s : State) : (useDraws k s).free = s.free := rfl
@[simp] theorem useDraws_tick (k : Nat) (s : State) : (useDraws k s).tick = s.tick := rfl
@[simp] theorem useDraws_ts_s (k : Nat) (s : State) : (useDraws k s).ts.s = s.ts.s := rfl
@[simp] theorem useDraws_ts_v (k : Nat) (s : State) : (useDraws k s).ts.v = s.ts.v := rfl
@[simp] theorem useDraws_ts_q (k : Nat) (s : State) : (useDraws k s).ts.q = s.ts.q := rfl
@[simp] theorem useDraws_ts_pc (k : Nat) (s : State) : (useDraws k s).ts.pc = s.ts.pc := rfl
@[simp] theorem useDraws_ts_slots (k : Nat) (s : State) : (useDraws k s).ts.slots = s.ts.slots := rfl
@[simp] theorem useDraws_ts_shS (k : Nat) (s : State) : (useDraws k s).ts.shS = s.ts.shS := rfl
@[simp] theorem useDraws_ts_shQ7 (k : Nat) (s : State) : (useDraws k s).ts.shQ7 = s.ts.shQ7 := rfl
@[simp] theorem useDraws_ts_status (k : Nat) (s : State) : (useDraws k s).ts.status = s.ts.status := rfl
@[simp] theorem useDraws_ts_epc (k : Nat) (s : State) : (useDraws k s).ts.epc = s.ts.epc := rfl
@[simp] theorem useDraws_ts_ecause (k : Nat) (s : State) : (useDraws k s).ts.ecause = s.ts.ecause := rfl
@[simp] theorem useDraws_ts_eval (k : Nat) (s : State) : (useDraws k s).ts.eval = s.ts.eval := rfl
@[simp] theorem useDraws_ts_tvec (k : Nat) (s : State) : (useDraws k s).ts.tvec = s.ts.tvec := rfl
@[simp] theorem useDraws_ts_uxvec (k : Nat) (s : State) : (useDraws k s).ts.uxvec = s.ts.uxvec := rfl
@[simp] theorem useDraws_ts_uxid (k : Nat) (s : State) : (useDraws k s).ts.uxid = s.ts.uxid := rfl
@[simp] theorem useDraws_ts_uxepc (k : Nat) (s : State) : (useDraws k s).ts.uxepc = s.ts.uxepc := rfl
@[simp] theorem useDraws_ts_budget (k : Nat) (s : State) : (useDraws k s).ts.budget = s.ts.budget := rfl
@[simp] theorem useDraws_ts_rankid (k : Nat) (s : State) : (useDraws k s).ts.rankid = s.ts.rankid := rfl
@[simp] theorem useDraws_ts_coord (k : Nat) (s : State) : (useDraws k s).ts.coord = s.ts.coord := rfl
@[simp] theorem useDraws_ts_launchid (k : Nat) (s : State) : (useDraws k s).ts.launchid = s.ts.launchid := rfl
@[simp] theorem useDraws_ts_rect (k : Nat) (s : State) : (useDraws k s).ts.rect = s.ts.rect := rfl
@[simp] theorem useDraws_ts_deadline (k : Nat) (s : State) : (useDraws k s).ts.deadline = s.ts.deadline := rfl
@[simp] theorem useDraws_ts_srseed (k : Nat) (s : State) : (useDraws k s).ts.srseed = s.ts.srseed := rfl
@[simp] theorem useDraws_ts_partid (k : Nat) (s : State) : (useDraws k s).ts.partid = s.ts.partid := rfl
@[simp] theorem useDraws_ts_tsid (k : Nat) (s : State) : (useDraws k s).ts.tsid = s.ts.tsid := rfl
@[simp] theorem useDraws_ts_prio (k : Nat) (s : State) : (useDraws k s).ts.prio = s.ts.prio := rfl
@[simp] theorem useDraws_ts_priv (k : Nat) (s : State) : (useDraws k s).ts.priv = s.ts.priv := rfl
@[simp] theorem useDraws_ts_plen (k : Nat) (s : State) : (useDraws k s).ts.plen = s.ts.plen := rfl
@[simp] theorem useDraws_ts_live (k : Nat) (s : State) : (useDraws k s).ts.live = s.ts.live := rfl
@[simp] theorem useDraws_ts_run (k : Nat) (s : State) : (useDraws k s).ts.run = s.ts.run := rfl
@[simp] theorem useDraws_ts_fbuf (k : Nat) (s : State) : (useDraws k s).ts.fbuf = s.ts.fbuf := rfl
@[simp] theorem useDraws_ts_ux (k : Nat) (s : State) : (useDraws k s).ts.ux = s.ts.ux := rfl
@[simp] theorem useDraws_ts_sched (k : Nat) (s : State) : (useDraws k s).ts.sched = s.ts.sched := rfl
@[simp] theorem useDraws_ts_barl (k : Nat) (s : State) : (useDraws k s).ts.barl = s.ts.barl := rfl
@[simp] theorem useDraws_ts_waitphase (k : Nat) (s : State) : (useDraws k s).ts.waitphase = s.ts.waitphase := rfl
@[simp] theorem useDraws_ts_sends (k : Nat) (s : State) : (useDraws k s).ts.sends = s.ts.sends := rfl
@[simp] theorem useDraws_ts_locks (k : Nat) (s : State) : (useDraws k s).ts.locks = s.ts.locks := rfl
@[simp] theorem useDraws_ts_pins (k : Nat) (s : State) : (useDraws k s).ts.pins = s.ts.pins := rfl
@[simp] theorem useDraws_ts_wbase (k : Nat) (s : State) : (useDraws k s).ts.wbase = s.ts.wbase := rfl
@[simp] theorem useDraws_ts_wsize (k : Nat) (s : State) : (useDraws k s).ts.wsize = s.ts.wsize := rfl
@[simp] theorem useDraws_ts_ticket (k : Nat) (s : State) : (useDraws k s).ts.ticket = s.ts.ticket := rfl
@[simp] theorem useDraws_ts_palHold (k : Nat) (s : State) : (useDraws k s).ts.palHold = s.ts.palHold := rfl
@[simp] theorem useDraws_ts_palTaken (k : Nat) (s : State) : (useDraws k s).ts.palTaken = s.ts.palTaken := rfl
@[simp] theorem useDraws_ts_trgWait (k : Nat) (s : State) : (useDraws k s).ts.trgWait = s.ts.trgWait := rfl
@[simp] theorem useDraws_ts_enqWord (k : Nat) (s : State) : (useDraws k s).ts.enqWord = s.ts.enqWord := rfl

/-! ## modStatus -/

@[simp] theorem modStatus_tid (f : Word → Word) (s : State) : (modStatus f s).tid = s.tid := rfl
@[simp] theorem modStatus_core (f : Word → Word) (s : State) : (modStatus f s).core = s.core := rfl
@[simp] theorem modStatus_here (f : Word → Word) (s : State) : (modStatus f s).here = s.here := rfl
@[simp] theorem modStatus_cores (f : Word → Word) (s : State) : (modStatus f s).cores = s.cores := rfl
@[simp] theorem modStatus_mem (f : Word → Word) (s : State) : (modStatus f s).mem = s.mem := rfl
@[simp] theorem modStatus_bad (f : Word → Word) (s : State) : (modStatus f s).bad = s.bad := rfl
@[simp] theorem modStatus_soft (f : Word → Word) (s : State) : (modStatus f s).soft = s.soft := rfl
@[simp] theorem modStatus_poison (f : Word → Word) (s : State) : (modStatus f s).poison = s.poison := rfl
@[simp] theorem modStatus_l1bad (f : Word → Word) (s : State) : (modStatus f s).l1bad = s.l1bad := rfl
@[simp] theorem modStatus_l1soft (f : Word → Word) (s : State) : (modStatus f s).l1soft = s.l1soft := rfl
@[simp] theorem modStatus_hostOld (f : Word → Word) (s : State) : (modStatus f s).hostOld = s.hostOld := rfl
@[simp] theorem modStatus_pend (f : Word → Word) (s : State) : (modStatus f s).pend = s.pend := rfl
@[simp] theorem modStatus_versions (f : Word → Word) (s : State) : (modStatus f s).versions = s.versions := rfl
@[simp] theorem modStatus_waiters (f : Word → Word) (s : State) : (modStatus f s).waiters = s.waiters := rfl
@[simp] theorem modStatus_dir (f : Word → Word) (s : State) : (modStatus f s).dir = s.dir := rfl
@[simp] theorem modStatus_l2 (f : Word → Word) (s : State) : (modStatus f s).l2 = s.l2 := rfl
@[simp] theorem modStatus_tlb (f : Word → Word) (s : State) : (modStatus f s).tlb = s.tlb := rfl
@[simp] theorem modStatus_msgs (f : Word → Word) (s : State) : (modStatus f s).msgs = s.msgs := rfl
@[simp] theorem modStatus_chains (f : Word → Word) (s : State) : (modStatus f s).chains = s.chains := rfl
@[simp] theorem modStatus_palMsgs (f : Word → Word) (s : State) : (modStatus f s).palMsgs = s.palMsgs := rfl
@[simp] theorem modStatus_parts (f : Word → Word) (s : State) : (modStatus f s).parts = s.parts := rfl
@[simp] theorem modStatus_queues (f : Word → Word) (s : State) : (modStatus f s).queues = s.queues := rfl
@[simp] theorem modStatus_launches (f : Word → Word) (s : State) : (modStatus f s).launches = s.launches := rfl
@[simp] theorem modStatus_tickets (f : Word → Word) (s : State) : (modStatus f s).tickets = s.tickets := rfl
@[simp] theorem modStatus_nextTicket (f : Word → Word) (s : State) : (modStatus f s).nextTicket = s.nextTicket := rfl
@[simp] theorem modStatus_invs (f : Word → Word) (s : State) : (modStatus f s).invs = s.invs := rfl
@[simp] theorem modStatus_irqs (f : Word → Word) (s : State) : (modStatus f s).irqs = s.irqs := rfl
@[simp] theorem modStatus_hostData (f : Word → Word) (s : State) : (modStatus f s).hostData = s.hostData := rfl
@[simp] theorem modStatus_time (f : Word → Word) (s : State) : (modStatus f s).time = s.time := rfl
@[simp] theorem modStatus_failed (f : Word → Word) (s : State) : (modStatus f s).failed = s.failed := rfl
@[simp] theorem modStatus_flows (f : Word → Word) (s : State) : (modStatus f s).flows = s.flows := rfl
@[simp] theorem modStatus_gwerid (f : Word → Word) (s : State) : (modStatus f s).gwerid = s.gwerid := rfl
@[simp] theorem modStatus_optics (f : Word → Word) (s : State) : (modStatus f s).optics = s.optics := rfl
@[simp] theorem modStatus_fw (f : Word → Word) (s : State) : (modStatus f s).fw = s.fw := rfl
@[simp] theorem modStatus_seq (f : Word → Word) (s : State) : (modStatus f s).seq = s.seq := rfl
@[simp] theorem modStatus_agenda (f : Word → Word) (s : State) : (modStatus f s).agenda = s.agenda := rfl
@[simp] theorem modStatus_free (f : Word → Word) (s : State) : (modStatus f s).free = s.free := rfl
@[simp] theorem modStatus_tick (f : Word → Word) (s : State) : (modStatus f s).tick = s.tick := rfl
@[simp] theorem modStatus_ts_s (f : Word → Word) (s : State) : (modStatus f s).ts.s = s.ts.s := rfl
@[simp] theorem modStatus_ts_v (f : Word → Word) (s : State) : (modStatus f s).ts.v = s.ts.v := rfl
@[simp] theorem modStatus_ts_q (f : Word → Word) (s : State) : (modStatus f s).ts.q = s.ts.q := rfl
@[simp] theorem modStatus_ts_pc (f : Word → Word) (s : State) : (modStatus f s).ts.pc = s.ts.pc := rfl
@[simp] theorem modStatus_ts_slots (f : Word → Word) (s : State) : (modStatus f s).ts.slots = s.ts.slots := rfl
@[simp] theorem modStatus_ts_shS (f : Word → Word) (s : State) : (modStatus f s).ts.shS = s.ts.shS := rfl
@[simp] theorem modStatus_ts_shQ7 (f : Word → Word) (s : State) : (modStatus f s).ts.shQ7 = s.ts.shQ7 := rfl
@[simp] theorem modStatus_ts_epc (f : Word → Word) (s : State) : (modStatus f s).ts.epc = s.ts.epc := rfl
@[simp] theorem modStatus_ts_ecause (f : Word → Word) (s : State) : (modStatus f s).ts.ecause = s.ts.ecause := rfl
@[simp] theorem modStatus_ts_eval (f : Word → Word) (s : State) : (modStatus f s).ts.eval = s.ts.eval := rfl
@[simp] theorem modStatus_ts_tvec (f : Word → Word) (s : State) : (modStatus f s).ts.tvec = s.ts.tvec := rfl
@[simp] theorem modStatus_ts_uxvec (f : Word → Word) (s : State) : (modStatus f s).ts.uxvec = s.ts.uxvec := rfl
@[simp] theorem modStatus_ts_uxid (f : Word → Word) (s : State) : (modStatus f s).ts.uxid = s.ts.uxid := rfl
@[simp] theorem modStatus_ts_uxepc (f : Word → Word) (s : State) : (modStatus f s).ts.uxepc = s.ts.uxepc := rfl
@[simp] theorem modStatus_ts_srctr (f : Word → Word) (s : State) : (modStatus f s).ts.srctr = s.ts.srctr := rfl
@[simp] theorem modStatus_ts_budget (f : Word → Word) (s : State) : (modStatus f s).ts.budget = s.ts.budget := rfl
@[simp] theorem modStatus_ts_rankid (f : Word → Word) (s : State) : (modStatus f s).ts.rankid = s.ts.rankid := rfl
@[simp] theorem modStatus_ts_coord (f : Word → Word) (s : State) : (modStatus f s).ts.coord = s.ts.coord := rfl
@[simp] theorem modStatus_ts_launchid (f : Word → Word) (s : State) : (modStatus f s).ts.launchid = s.ts.launchid := rfl
@[simp] theorem modStatus_ts_rect (f : Word → Word) (s : State) : (modStatus f s).ts.rect = s.ts.rect := rfl
@[simp] theorem modStatus_ts_deadline (f : Word → Word) (s : State) : (modStatus f s).ts.deadline = s.ts.deadline := rfl
@[simp] theorem modStatus_ts_srseed (f : Word → Word) (s : State) : (modStatus f s).ts.srseed = s.ts.srseed := rfl
@[simp] theorem modStatus_ts_partid (f : Word → Word) (s : State) : (modStatus f s).ts.partid = s.ts.partid := rfl
@[simp] theorem modStatus_ts_tsid (f : Word → Word) (s : State) : (modStatus f s).ts.tsid = s.ts.tsid := rfl
@[simp] theorem modStatus_ts_prio (f : Word → Word) (s : State) : (modStatus f s).ts.prio = s.ts.prio := rfl
@[simp] theorem modStatus_ts_priv (f : Word → Word) (s : State) : (modStatus f s).ts.priv = s.ts.priv := rfl
@[simp] theorem modStatus_ts_plen (f : Word → Word) (s : State) : (modStatus f s).ts.plen = s.ts.plen := rfl
@[simp] theorem modStatus_ts_live (f : Word → Word) (s : State) : (modStatus f s).ts.live = s.ts.live := rfl
@[simp] theorem modStatus_ts_run (f : Word → Word) (s : State) : (modStatus f s).ts.run = s.ts.run := rfl
@[simp] theorem modStatus_ts_fbuf (f : Word → Word) (s : State) : (modStatus f s).ts.fbuf = s.ts.fbuf := rfl
@[simp] theorem modStatus_ts_ux (f : Word → Word) (s : State) : (modStatus f s).ts.ux = s.ts.ux := rfl
@[simp] theorem modStatus_ts_sched (f : Word → Word) (s : State) : (modStatus f s).ts.sched = s.ts.sched := rfl
@[simp] theorem modStatus_ts_barl (f : Word → Word) (s : State) : (modStatus f s).ts.barl = s.ts.barl := rfl
@[simp] theorem modStatus_ts_waitphase (f : Word → Word) (s : State) : (modStatus f s).ts.waitphase = s.ts.waitphase := rfl
@[simp] theorem modStatus_ts_sends (f : Word → Word) (s : State) : (modStatus f s).ts.sends = s.ts.sends := rfl
@[simp] theorem modStatus_ts_locks (f : Word → Word) (s : State) : (modStatus f s).ts.locks = s.ts.locks := rfl
@[simp] theorem modStatus_ts_pins (f : Word → Word) (s : State) : (modStatus f s).ts.pins = s.ts.pins := rfl
@[simp] theorem modStatus_ts_wbase (f : Word → Word) (s : State) : (modStatus f s).ts.wbase = s.ts.wbase := rfl
@[simp] theorem modStatus_ts_wsize (f : Word → Word) (s : State) : (modStatus f s).ts.wsize = s.ts.wsize := rfl
@[simp] theorem modStatus_ts_ticket (f : Word → Word) (s : State) : (modStatus f s).ts.ticket = s.ts.ticket := rfl
@[simp] theorem modStatus_ts_palHold (f : Word → Word) (s : State) : (modStatus f s).ts.palHold = s.ts.palHold := rfl
@[simp] theorem modStatus_ts_palTaken (f : Word → Word) (s : State) : (modStatus f s).ts.palTaken = s.ts.palTaken := rfl
@[simp] theorem modStatus_ts_trgWait (f : Word → Word) (s : State) : (modStatus f s).ts.trgWait = s.ts.trgWait := rfl
@[simp] theorem modStatus_ts_enqWord (f : Word → Word) (s : State) : (modStatus f s).ts.enqWord = s.ts.enqWord := rfl

/-! ## emptyFetch -/

@[simp] theorem emptyFetch_tid (s : State) : (emptyFetch s).tid = s.tid := rfl
@[simp] theorem emptyFetch_core (s : State) : (emptyFetch s).core = s.core := rfl
@[simp] theorem emptyFetch_here (s : State) : (emptyFetch s).here = s.here := rfl
@[simp] theorem emptyFetch_cores (s : State) : (emptyFetch s).cores = s.cores := rfl
@[simp] theorem emptyFetch_mem (s : State) : (emptyFetch s).mem = s.mem := rfl
@[simp] theorem emptyFetch_bad (s : State) : (emptyFetch s).bad = s.bad := rfl
@[simp] theorem emptyFetch_soft (s : State) : (emptyFetch s).soft = s.soft := rfl
@[simp] theorem emptyFetch_poison (s : State) : (emptyFetch s).poison = s.poison := rfl
@[simp] theorem emptyFetch_l1bad (s : State) : (emptyFetch s).l1bad = s.l1bad := rfl
@[simp] theorem emptyFetch_l1soft (s : State) : (emptyFetch s).l1soft = s.l1soft := rfl
@[simp] theorem emptyFetch_hostOld (s : State) : (emptyFetch s).hostOld = s.hostOld := rfl
@[simp] theorem emptyFetch_pend (s : State) : (emptyFetch s).pend = s.pend := rfl
@[simp] theorem emptyFetch_versions (s : State) : (emptyFetch s).versions = s.versions := rfl
@[simp] theorem emptyFetch_waiters (s : State) : (emptyFetch s).waiters = s.waiters := rfl
@[simp] theorem emptyFetch_dir (s : State) : (emptyFetch s).dir = s.dir := rfl
@[simp] theorem emptyFetch_l2 (s : State) : (emptyFetch s).l2 = s.l2 := rfl
@[simp] theorem emptyFetch_tlb (s : State) : (emptyFetch s).tlb = s.tlb := rfl
@[simp] theorem emptyFetch_msgs (s : State) : (emptyFetch s).msgs = s.msgs := rfl
@[simp] theorem emptyFetch_chains (s : State) : (emptyFetch s).chains = s.chains := rfl
@[simp] theorem emptyFetch_palMsgs (s : State) : (emptyFetch s).palMsgs = s.palMsgs := rfl
@[simp] theorem emptyFetch_parts (s : State) : (emptyFetch s).parts = s.parts := rfl
@[simp] theorem emptyFetch_queues (s : State) : (emptyFetch s).queues = s.queues := rfl
@[simp] theorem emptyFetch_launches (s : State) : (emptyFetch s).launches = s.launches := rfl
@[simp] theorem emptyFetch_tickets (s : State) : (emptyFetch s).tickets = s.tickets := rfl
@[simp] theorem emptyFetch_nextTicket (s : State) : (emptyFetch s).nextTicket = s.nextTicket := rfl
@[simp] theorem emptyFetch_invs (s : State) : (emptyFetch s).invs = s.invs := rfl
@[simp] theorem emptyFetch_irqs (s : State) : (emptyFetch s).irqs = s.irqs := rfl
@[simp] theorem emptyFetch_hostData (s : State) : (emptyFetch s).hostData = s.hostData := rfl
@[simp] theorem emptyFetch_time (s : State) : (emptyFetch s).time = s.time := rfl
@[simp] theorem emptyFetch_failed (s : State) : (emptyFetch s).failed = s.failed := rfl
@[simp] theorem emptyFetch_flows (s : State) : (emptyFetch s).flows = s.flows := rfl
@[simp] theorem emptyFetch_gwerid (s : State) : (emptyFetch s).gwerid = s.gwerid := rfl
@[simp] theorem emptyFetch_optics (s : State) : (emptyFetch s).optics = s.optics := rfl
@[simp] theorem emptyFetch_fw (s : State) : (emptyFetch s).fw = s.fw := rfl
@[simp] theorem emptyFetch_seq (s : State) : (emptyFetch s).seq = s.seq := rfl
@[simp] theorem emptyFetch_agenda (s : State) : (emptyFetch s).agenda = s.agenda := rfl
@[simp] theorem emptyFetch_free (s : State) : (emptyFetch s).free = s.free := rfl
@[simp] theorem emptyFetch_tick (s : State) : (emptyFetch s).tick = s.tick := rfl
@[simp] theorem emptyFetch_ts_s (s : State) : (emptyFetch s).ts.s = s.ts.s := rfl
@[simp] theorem emptyFetch_ts_v (s : State) : (emptyFetch s).ts.v = s.ts.v := rfl
@[simp] theorem emptyFetch_ts_q (s : State) : (emptyFetch s).ts.q = s.ts.q := rfl
@[simp] theorem emptyFetch_ts_pc (s : State) : (emptyFetch s).ts.pc = s.ts.pc := rfl
@[simp] theorem emptyFetch_ts_slots (s : State) : (emptyFetch s).ts.slots = s.ts.slots := rfl
@[simp] theorem emptyFetch_ts_shS (s : State) : (emptyFetch s).ts.shS = s.ts.shS := rfl
@[simp] theorem emptyFetch_ts_shQ7 (s : State) : (emptyFetch s).ts.shQ7 = s.ts.shQ7 := rfl
@[simp] theorem emptyFetch_ts_status (s : State) : (emptyFetch s).ts.status = s.ts.status := rfl
@[simp] theorem emptyFetch_ts_epc (s : State) : (emptyFetch s).ts.epc = s.ts.epc := rfl
@[simp] theorem emptyFetch_ts_ecause (s : State) : (emptyFetch s).ts.ecause = s.ts.ecause := rfl
@[simp] theorem emptyFetch_ts_eval (s : State) : (emptyFetch s).ts.eval = s.ts.eval := rfl
@[simp] theorem emptyFetch_ts_tvec (s : State) : (emptyFetch s).ts.tvec = s.ts.tvec := rfl
@[simp] theorem emptyFetch_ts_uxvec (s : State) : (emptyFetch s).ts.uxvec = s.ts.uxvec := rfl
@[simp] theorem emptyFetch_ts_uxid (s : State) : (emptyFetch s).ts.uxid = s.ts.uxid := rfl
@[simp] theorem emptyFetch_ts_uxepc (s : State) : (emptyFetch s).ts.uxepc = s.ts.uxepc := rfl
@[simp] theorem emptyFetch_ts_srctr (s : State) : (emptyFetch s).ts.srctr = s.ts.srctr := rfl
@[simp] theorem emptyFetch_ts_budget (s : State) : (emptyFetch s).ts.budget = s.ts.budget := rfl
@[simp] theorem emptyFetch_ts_rankid (s : State) : (emptyFetch s).ts.rankid = s.ts.rankid := rfl
@[simp] theorem emptyFetch_ts_coord (s : State) : (emptyFetch s).ts.coord = s.ts.coord := rfl
@[simp] theorem emptyFetch_ts_launchid (s : State) : (emptyFetch s).ts.launchid = s.ts.launchid := rfl
@[simp] theorem emptyFetch_ts_rect (s : State) : (emptyFetch s).ts.rect = s.ts.rect := rfl
@[simp] theorem emptyFetch_ts_deadline (s : State) : (emptyFetch s).ts.deadline = s.ts.deadline := rfl
@[simp] theorem emptyFetch_ts_srseed (s : State) : (emptyFetch s).ts.srseed = s.ts.srseed := rfl
@[simp] theorem emptyFetch_ts_partid (s : State) : (emptyFetch s).ts.partid = s.ts.partid := rfl
@[simp] theorem emptyFetch_ts_tsid (s : State) : (emptyFetch s).ts.tsid = s.ts.tsid := rfl
@[simp] theorem emptyFetch_ts_prio (s : State) : (emptyFetch s).ts.prio = s.ts.prio := rfl
@[simp] theorem emptyFetch_ts_priv (s : State) : (emptyFetch s).ts.priv = s.ts.priv := rfl
@[simp] theorem emptyFetch_ts_plen (s : State) : (emptyFetch s).ts.plen = s.ts.plen := rfl
@[simp] theorem emptyFetch_ts_live (s : State) : (emptyFetch s).ts.live = s.ts.live := rfl
@[simp] theorem emptyFetch_ts_run (s : State) : (emptyFetch s).ts.run = s.ts.run := rfl
@[simp] theorem emptyFetch_ts_ux (s : State) : (emptyFetch s).ts.ux = s.ts.ux := rfl
@[simp] theorem emptyFetch_ts_sched (s : State) : (emptyFetch s).ts.sched = s.ts.sched := rfl
@[simp] theorem emptyFetch_ts_barl (s : State) : (emptyFetch s).ts.barl = s.ts.barl := rfl
@[simp] theorem emptyFetch_ts_waitphase (s : State) : (emptyFetch s).ts.waitphase = s.ts.waitphase := rfl
@[simp] theorem emptyFetch_ts_sends (s : State) : (emptyFetch s).ts.sends = s.ts.sends := rfl
@[simp] theorem emptyFetch_ts_locks (s : State) : (emptyFetch s).ts.locks = s.ts.locks := rfl
@[simp] theorem emptyFetch_ts_pins (s : State) : (emptyFetch s).ts.pins = s.ts.pins := rfl
@[simp] theorem emptyFetch_ts_wbase (s : State) : (emptyFetch s).ts.wbase = s.ts.wbase := rfl
@[simp] theorem emptyFetch_ts_wsize (s : State) : (emptyFetch s).ts.wsize = s.ts.wsize := rfl
@[simp] theorem emptyFetch_ts_ticket (s : State) : (emptyFetch s).ts.ticket = s.ts.ticket := rfl
@[simp] theorem emptyFetch_ts_palHold (s : State) : (emptyFetch s).ts.palHold = s.ts.palHold := rfl
@[simp] theorem emptyFetch_ts_palTaken (s : State) : (emptyFetch s).ts.palTaken = s.ts.palTaken := rfl
@[simp] theorem emptyFetch_ts_trgWait (s : State) : (emptyFetch s).ts.trgWait = s.ts.trgWait := rfl
@[simp] theorem emptyFetch_ts_enqWord (s : State) : (emptyFetch s).ts.enqWord = s.ts.enqWord := rfl

/-! ## setRun -/

@[simp] theorem setRun_tid (r : Run) (s : State) : (setRun r s).tid = s.tid := rfl
@[simp] theorem setRun_core (r : Run) (s : State) : (setRun r s).core = s.core := rfl
@[simp] theorem setRun_here (r : Run) (s : State) : (setRun r s).here = s.here := rfl
@[simp] theorem setRun_cores (r : Run) (s : State) : (setRun r s).cores = s.cores := rfl
@[simp] theorem setRun_mem (r : Run) (s : State) : (setRun r s).mem = s.mem := rfl
@[simp] theorem setRun_bad (r : Run) (s : State) : (setRun r s).bad = s.bad := rfl
@[simp] theorem setRun_soft (r : Run) (s : State) : (setRun r s).soft = s.soft := rfl
@[simp] theorem setRun_poison (r : Run) (s : State) : (setRun r s).poison = s.poison := rfl
@[simp] theorem setRun_l1bad (r : Run) (s : State) : (setRun r s).l1bad = s.l1bad := rfl
@[simp] theorem setRun_l1soft (r : Run) (s : State) : (setRun r s).l1soft = s.l1soft := rfl
@[simp] theorem setRun_hostOld (r : Run) (s : State) : (setRun r s).hostOld = s.hostOld := rfl
@[simp] theorem setRun_pend (r : Run) (s : State) : (setRun r s).pend = s.pend := rfl
@[simp] theorem setRun_versions (r : Run) (s : State) : (setRun r s).versions = s.versions := rfl
@[simp] theorem setRun_waiters (r : Run) (s : State) : (setRun r s).waiters = s.waiters := rfl
@[simp] theorem setRun_dir (r : Run) (s : State) : (setRun r s).dir = s.dir := rfl
@[simp] theorem setRun_l2 (r : Run) (s : State) : (setRun r s).l2 = s.l2 := rfl
@[simp] theorem setRun_tlb (r : Run) (s : State) : (setRun r s).tlb = s.tlb := rfl
@[simp] theorem setRun_msgs (r : Run) (s : State) : (setRun r s).msgs = s.msgs := rfl
@[simp] theorem setRun_chains (r : Run) (s : State) : (setRun r s).chains = s.chains := rfl
@[simp] theorem setRun_palMsgs (r : Run) (s : State) : (setRun r s).palMsgs = s.palMsgs := rfl
@[simp] theorem setRun_parts (r : Run) (s : State) : (setRun r s).parts = s.parts := rfl
@[simp] theorem setRun_queues (r : Run) (s : State) : (setRun r s).queues = s.queues := rfl
@[simp] theorem setRun_launches (r : Run) (s : State) : (setRun r s).launches = s.launches := rfl
@[simp] theorem setRun_tickets (r : Run) (s : State) : (setRun r s).tickets = s.tickets := rfl
@[simp] theorem setRun_nextTicket (r : Run) (s : State) : (setRun r s).nextTicket = s.nextTicket := rfl
@[simp] theorem setRun_invs (r : Run) (s : State) : (setRun r s).invs = s.invs := rfl
@[simp] theorem setRun_irqs (r : Run) (s : State) : (setRun r s).irqs = s.irqs := rfl
@[simp] theorem setRun_hostData (r : Run) (s : State) : (setRun r s).hostData = s.hostData := rfl
@[simp] theorem setRun_time (r : Run) (s : State) : (setRun r s).time = s.time := rfl
@[simp] theorem setRun_failed (r : Run) (s : State) : (setRun r s).failed = s.failed := rfl
@[simp] theorem setRun_flows (r : Run) (s : State) : (setRun r s).flows = s.flows := rfl
@[simp] theorem setRun_gwerid (r : Run) (s : State) : (setRun r s).gwerid = s.gwerid := rfl
@[simp] theorem setRun_optics (r : Run) (s : State) : (setRun r s).optics = s.optics := rfl
@[simp] theorem setRun_fw (r : Run) (s : State) : (setRun r s).fw = s.fw := rfl
@[simp] theorem setRun_seq (r : Run) (s : State) : (setRun r s).seq = s.seq := rfl
@[simp] theorem setRun_agenda (r : Run) (s : State) : (setRun r s).agenda = s.agenda := rfl
@[simp] theorem setRun_free (r : Run) (s : State) : (setRun r s).free = s.free := rfl
@[simp] theorem setRun_tick (r : Run) (s : State) : (setRun r s).tick = s.tick := rfl
@[simp] theorem setRun_ts_s (r : Run) (s : State) : (setRun r s).ts.s = s.ts.s := rfl
@[simp] theorem setRun_ts_v (r : Run) (s : State) : (setRun r s).ts.v = s.ts.v := rfl
@[simp] theorem setRun_ts_q (r : Run) (s : State) : (setRun r s).ts.q = s.ts.q := rfl
@[simp] theorem setRun_ts_pc (r : Run) (s : State) : (setRun r s).ts.pc = s.ts.pc := rfl
@[simp] theorem setRun_ts_slots (r : Run) (s : State) : (setRun r s).ts.slots = s.ts.slots := rfl
@[simp] theorem setRun_ts_shS (r : Run) (s : State) : (setRun r s).ts.shS = s.ts.shS := rfl
@[simp] theorem setRun_ts_shQ7 (r : Run) (s : State) : (setRun r s).ts.shQ7 = s.ts.shQ7 := rfl
@[simp] theorem setRun_ts_status (r : Run) (s : State) : (setRun r s).ts.status = s.ts.status := rfl
@[simp] theorem setRun_ts_epc (r : Run) (s : State) : (setRun r s).ts.epc = s.ts.epc := rfl
@[simp] theorem setRun_ts_ecause (r : Run) (s : State) : (setRun r s).ts.ecause = s.ts.ecause := rfl
@[simp] theorem setRun_ts_eval (r : Run) (s : State) : (setRun r s).ts.eval = s.ts.eval := rfl
@[simp] theorem setRun_ts_tvec (r : Run) (s : State) : (setRun r s).ts.tvec = s.ts.tvec := rfl
@[simp] theorem setRun_ts_uxvec (r : Run) (s : State) : (setRun r s).ts.uxvec = s.ts.uxvec := rfl
@[simp] theorem setRun_ts_uxid (r : Run) (s : State) : (setRun r s).ts.uxid = s.ts.uxid := rfl
@[simp] theorem setRun_ts_uxepc (r : Run) (s : State) : (setRun r s).ts.uxepc = s.ts.uxepc := rfl
@[simp] theorem setRun_ts_srctr (r : Run) (s : State) : (setRun r s).ts.srctr = s.ts.srctr := rfl
@[simp] theorem setRun_ts_budget (r : Run) (s : State) : (setRun r s).ts.budget = s.ts.budget := rfl
@[simp] theorem setRun_ts_rankid (r : Run) (s : State) : (setRun r s).ts.rankid = s.ts.rankid := rfl
@[simp] theorem setRun_ts_coord (r : Run) (s : State) : (setRun r s).ts.coord = s.ts.coord := rfl
@[simp] theorem setRun_ts_launchid (r : Run) (s : State) : (setRun r s).ts.launchid = s.ts.launchid := rfl
@[simp] theorem setRun_ts_rect (r : Run) (s : State) : (setRun r s).ts.rect = s.ts.rect := rfl
@[simp] theorem setRun_ts_deadline (r : Run) (s : State) : (setRun r s).ts.deadline = s.ts.deadline := rfl
@[simp] theorem setRun_ts_srseed (r : Run) (s : State) : (setRun r s).ts.srseed = s.ts.srseed := rfl
@[simp] theorem setRun_ts_partid (r : Run) (s : State) : (setRun r s).ts.partid = s.ts.partid := rfl
@[simp] theorem setRun_ts_tsid (r : Run) (s : State) : (setRun r s).ts.tsid = s.ts.tsid := rfl
@[simp] theorem setRun_ts_prio (r : Run) (s : State) : (setRun r s).ts.prio = s.ts.prio := rfl
@[simp] theorem setRun_ts_priv (r : Run) (s : State) : (setRun r s).ts.priv = s.ts.priv := rfl
@[simp] theorem setRun_ts_plen (r : Run) (s : State) : (setRun r s).ts.plen = s.ts.plen := rfl
@[simp] theorem setRun_ts_live (r : Run) (s : State) : (setRun r s).ts.live = s.ts.live := rfl
@[simp] theorem setRun_ts_fbuf (r : Run) (s : State) : (setRun r s).ts.fbuf = s.ts.fbuf := rfl
@[simp] theorem setRun_ts_ux (r : Run) (s : State) : (setRun r s).ts.ux = s.ts.ux := rfl
@[simp] theorem setRun_ts_sched (r : Run) (s : State) : (setRun r s).ts.sched = s.ts.sched := rfl
@[simp] theorem setRun_ts_barl (r : Run) (s : State) : (setRun r s).ts.barl = s.ts.barl := rfl
@[simp] theorem setRun_ts_waitphase (r : Run) (s : State) : (setRun r s).ts.waitphase = s.ts.waitphase := rfl
@[simp] theorem setRun_ts_sends (r : Run) (s : State) : (setRun r s).ts.sends = s.ts.sends := rfl
@[simp] theorem setRun_ts_locks (r : Run) (s : State) : (setRun r s).ts.locks = s.ts.locks := rfl
@[simp] theorem setRun_ts_pins (r : Run) (s : State) : (setRun r s).ts.pins = s.ts.pins := rfl
@[simp] theorem setRun_ts_wbase (r : Run) (s : State) : (setRun r s).ts.wbase = s.ts.wbase := rfl
@[simp] theorem setRun_ts_wsize (r : Run) (s : State) : (setRun r s).ts.wsize = s.ts.wsize := rfl
@[simp] theorem setRun_ts_ticket (r : Run) (s : State) : (setRun r s).ts.ticket = s.ts.ticket := rfl
@[simp] theorem setRun_ts_palHold (r : Run) (s : State) : (setRun r s).ts.palHold = s.ts.palHold := rfl
@[simp] theorem setRun_ts_palTaken (r : Run) (s : State) : (setRun r s).ts.palTaken = s.ts.palTaken := rfl
@[simp] theorem setRun_ts_trgWait (r : Run) (s : State) : (setRun r s).ts.trgWait = s.ts.trgWait := rfl
@[simp] theorem setRun_ts_enqWord (r : Run) (s : State) : (setRun r s).ts.enqWord = s.ts.enqWord := rfl

/-! ## jumpTo -/

@[simp] theorem jumpTo_tid (n : Nat) (s : State) : (jumpTo n s).tid = s.tid := rfl
@[simp] theorem jumpTo_core (n : Nat) (s : State) : (jumpTo n s).core = s.core := rfl
@[simp] theorem jumpTo_here (n : Nat) (s : State) : (jumpTo n s).here = s.here := rfl
@[simp] theorem jumpTo_cores (n : Nat) (s : State) : (jumpTo n s).cores = s.cores := rfl
@[simp] theorem jumpTo_mem (n : Nat) (s : State) : (jumpTo n s).mem = s.mem := rfl
@[simp] theorem jumpTo_bad (n : Nat) (s : State) : (jumpTo n s).bad = s.bad := rfl
@[simp] theorem jumpTo_soft (n : Nat) (s : State) : (jumpTo n s).soft = s.soft := rfl
@[simp] theorem jumpTo_poison (n : Nat) (s : State) : (jumpTo n s).poison = s.poison := rfl
@[simp] theorem jumpTo_l1bad (n : Nat) (s : State) : (jumpTo n s).l1bad = s.l1bad := rfl
@[simp] theorem jumpTo_l1soft (n : Nat) (s : State) : (jumpTo n s).l1soft = s.l1soft := rfl
@[simp] theorem jumpTo_hostOld (n : Nat) (s : State) : (jumpTo n s).hostOld = s.hostOld := rfl
@[simp] theorem jumpTo_pend (n : Nat) (s : State) : (jumpTo n s).pend = s.pend := rfl
@[simp] theorem jumpTo_versions (n : Nat) (s : State) : (jumpTo n s).versions = s.versions := rfl
@[simp] theorem jumpTo_waiters (n : Nat) (s : State) : (jumpTo n s).waiters = s.waiters := rfl
@[simp] theorem jumpTo_dir (n : Nat) (s : State) : (jumpTo n s).dir = s.dir := rfl
@[simp] theorem jumpTo_l2 (n : Nat) (s : State) : (jumpTo n s).l2 = s.l2 := rfl
@[simp] theorem jumpTo_tlb (n : Nat) (s : State) : (jumpTo n s).tlb = s.tlb := rfl
@[simp] theorem jumpTo_msgs (n : Nat) (s : State) : (jumpTo n s).msgs = s.msgs := rfl
@[simp] theorem jumpTo_chains (n : Nat) (s : State) : (jumpTo n s).chains = s.chains := rfl
@[simp] theorem jumpTo_palMsgs (n : Nat) (s : State) : (jumpTo n s).palMsgs = s.palMsgs := rfl
@[simp] theorem jumpTo_parts (n : Nat) (s : State) : (jumpTo n s).parts = s.parts := rfl
@[simp] theorem jumpTo_queues (n : Nat) (s : State) : (jumpTo n s).queues = s.queues := rfl
@[simp] theorem jumpTo_launches (n : Nat) (s : State) : (jumpTo n s).launches = s.launches := rfl
@[simp] theorem jumpTo_tickets (n : Nat) (s : State) : (jumpTo n s).tickets = s.tickets := rfl
@[simp] theorem jumpTo_nextTicket (n : Nat) (s : State) : (jumpTo n s).nextTicket = s.nextTicket := rfl
@[simp] theorem jumpTo_invs (n : Nat) (s : State) : (jumpTo n s).invs = s.invs := rfl
@[simp] theorem jumpTo_irqs (n : Nat) (s : State) : (jumpTo n s).irqs = s.irqs := rfl
@[simp] theorem jumpTo_hostData (n : Nat) (s : State) : (jumpTo n s).hostData = s.hostData := rfl
@[simp] theorem jumpTo_time (n : Nat) (s : State) : (jumpTo n s).time = s.time := rfl
@[simp] theorem jumpTo_failed (n : Nat) (s : State) : (jumpTo n s).failed = s.failed := rfl
@[simp] theorem jumpTo_flows (n : Nat) (s : State) : (jumpTo n s).flows = s.flows := rfl
@[simp] theorem jumpTo_gwerid (n : Nat) (s : State) : (jumpTo n s).gwerid = s.gwerid := rfl
@[simp] theorem jumpTo_optics (n : Nat) (s : State) : (jumpTo n s).optics = s.optics := rfl
@[simp] theorem jumpTo_fw (n : Nat) (s : State) : (jumpTo n s).fw = s.fw := rfl
@[simp] theorem jumpTo_seq (n : Nat) (s : State) : (jumpTo n s).seq = s.seq := rfl
@[simp] theorem jumpTo_agenda (n : Nat) (s : State) : (jumpTo n s).agenda = s.agenda := rfl
@[simp] theorem jumpTo_free (n : Nat) (s : State) : (jumpTo n s).free = s.free := rfl
@[simp] theorem jumpTo_tick (n : Nat) (s : State) : (jumpTo n s).tick = s.tick := rfl
@[simp] theorem jumpTo_ts_s (n : Nat) (s : State) : (jumpTo n s).ts.s = s.ts.s := rfl
@[simp] theorem jumpTo_ts_v (n : Nat) (s : State) : (jumpTo n s).ts.v = s.ts.v := rfl
@[simp] theorem jumpTo_ts_q (n : Nat) (s : State) : (jumpTo n s).ts.q = s.ts.q := rfl
@[simp] theorem jumpTo_ts_slots (n : Nat) (s : State) : (jumpTo n s).ts.slots = s.ts.slots := rfl
@[simp] theorem jumpTo_ts_shS (n : Nat) (s : State) : (jumpTo n s).ts.shS = s.ts.shS := rfl
@[simp] theorem jumpTo_ts_shQ7 (n : Nat) (s : State) : (jumpTo n s).ts.shQ7 = s.ts.shQ7 := rfl
@[simp] theorem jumpTo_ts_status (n : Nat) (s : State) : (jumpTo n s).ts.status = s.ts.status := rfl
@[simp] theorem jumpTo_ts_epc (n : Nat) (s : State) : (jumpTo n s).ts.epc = s.ts.epc := rfl
@[simp] theorem jumpTo_ts_ecause (n : Nat) (s : State) : (jumpTo n s).ts.ecause = s.ts.ecause := rfl
@[simp] theorem jumpTo_ts_eval (n : Nat) (s : State) : (jumpTo n s).ts.eval = s.ts.eval := rfl
@[simp] theorem jumpTo_ts_tvec (n : Nat) (s : State) : (jumpTo n s).ts.tvec = s.ts.tvec := rfl
@[simp] theorem jumpTo_ts_uxvec (n : Nat) (s : State) : (jumpTo n s).ts.uxvec = s.ts.uxvec := rfl
@[simp] theorem jumpTo_ts_uxid (n : Nat) (s : State) : (jumpTo n s).ts.uxid = s.ts.uxid := rfl
@[simp] theorem jumpTo_ts_uxepc (n : Nat) (s : State) : (jumpTo n s).ts.uxepc = s.ts.uxepc := rfl
@[simp] theorem jumpTo_ts_srctr (n : Nat) (s : State) : (jumpTo n s).ts.srctr = s.ts.srctr := rfl
@[simp] theorem jumpTo_ts_budget (n : Nat) (s : State) : (jumpTo n s).ts.budget = s.ts.budget := rfl
@[simp] theorem jumpTo_ts_rankid (n : Nat) (s : State) : (jumpTo n s).ts.rankid = s.ts.rankid := rfl
@[simp] theorem jumpTo_ts_coord (n : Nat) (s : State) : (jumpTo n s).ts.coord = s.ts.coord := rfl
@[simp] theorem jumpTo_ts_launchid (n : Nat) (s : State) : (jumpTo n s).ts.launchid = s.ts.launchid := rfl
@[simp] theorem jumpTo_ts_rect (n : Nat) (s : State) : (jumpTo n s).ts.rect = s.ts.rect := rfl
@[simp] theorem jumpTo_ts_deadline (n : Nat) (s : State) : (jumpTo n s).ts.deadline = s.ts.deadline := rfl
@[simp] theorem jumpTo_ts_srseed (n : Nat) (s : State) : (jumpTo n s).ts.srseed = s.ts.srseed := rfl
@[simp] theorem jumpTo_ts_partid (n : Nat) (s : State) : (jumpTo n s).ts.partid = s.ts.partid := rfl
@[simp] theorem jumpTo_ts_tsid (n : Nat) (s : State) : (jumpTo n s).ts.tsid = s.ts.tsid := rfl
@[simp] theorem jumpTo_ts_prio (n : Nat) (s : State) : (jumpTo n s).ts.prio = s.ts.prio := rfl
@[simp] theorem jumpTo_ts_priv (n : Nat) (s : State) : (jumpTo n s).ts.priv = s.ts.priv := rfl
@[simp] theorem jumpTo_ts_plen (n : Nat) (s : State) : (jumpTo n s).ts.plen = s.ts.plen := rfl
@[simp] theorem jumpTo_ts_live (n : Nat) (s : State) : (jumpTo n s).ts.live = s.ts.live := rfl
@[simp] theorem jumpTo_ts_ux (n : Nat) (s : State) : (jumpTo n s).ts.ux = s.ts.ux := rfl
@[simp] theorem jumpTo_ts_sched (n : Nat) (s : State) : (jumpTo n s).ts.sched = s.ts.sched := rfl
@[simp] theorem jumpTo_ts_barl (n : Nat) (s : State) : (jumpTo n s).ts.barl = s.ts.barl := rfl
@[simp] theorem jumpTo_ts_waitphase (n : Nat) (s : State) : (jumpTo n s).ts.waitphase = s.ts.waitphase := rfl
@[simp] theorem jumpTo_ts_sends (n : Nat) (s : State) : (jumpTo n s).ts.sends = s.ts.sends := rfl
@[simp] theorem jumpTo_ts_locks (n : Nat) (s : State) : (jumpTo n s).ts.locks = s.ts.locks := rfl
@[simp] theorem jumpTo_ts_pins (n : Nat) (s : State) : (jumpTo n s).ts.pins = s.ts.pins := rfl
@[simp] theorem jumpTo_ts_wbase (n : Nat) (s : State) : (jumpTo n s).ts.wbase = s.ts.wbase := rfl
@[simp] theorem jumpTo_ts_wsize (n : Nat) (s : State) : (jumpTo n s).ts.wsize = s.ts.wsize := rfl
@[simp] theorem jumpTo_ts_ticket (n : Nat) (s : State) : (jumpTo n s).ts.ticket = s.ts.ticket := rfl
@[simp] theorem jumpTo_ts_palHold (n : Nat) (s : State) : (jumpTo n s).ts.palHold = s.ts.palHold := rfl
@[simp] theorem jumpTo_ts_palTaken (n : Nat) (s : State) : (jumpTo n s).ts.palTaken = s.ts.palTaken := rfl
@[simp] theorem jumpTo_ts_trgWait (n : Nat) (s : State) : (jumpTo n s).ts.trgWait = s.ts.trgWait := rfl
@[simp] theorem jumpTo_ts_enqWord (n : Nat) (s : State) : (jumpTo n s).ts.enqWord = s.ts.enqWord := rfl

/-! ## dropTaken -/

@[simp] theorem dropTaken_tid (s : State) : (dropTaken s).tid = s.tid := rfl
@[simp] theorem dropTaken_core (s : State) : (dropTaken s).core = s.core := rfl
@[simp] theorem dropTaken_here (s : State) : (dropTaken s).here = s.here := rfl
@[simp] theorem dropTaken_cores (s : State) : (dropTaken s).cores = s.cores := rfl
@[simp] theorem dropTaken_mem (s : State) : (dropTaken s).mem = s.mem := rfl
@[simp] theorem dropTaken_bad (s : State) : (dropTaken s).bad = s.bad := rfl
@[simp] theorem dropTaken_soft (s : State) : (dropTaken s).soft = s.soft := rfl
@[simp] theorem dropTaken_poison (s : State) : (dropTaken s).poison = s.poison := rfl
@[simp] theorem dropTaken_l1bad (s : State) : (dropTaken s).l1bad = s.l1bad := rfl
@[simp] theorem dropTaken_l1soft (s : State) : (dropTaken s).l1soft = s.l1soft := rfl
@[simp] theorem dropTaken_hostOld (s : State) : (dropTaken s).hostOld = s.hostOld := rfl
@[simp] theorem dropTaken_pend (s : State) : (dropTaken s).pend = s.pend := rfl
@[simp] theorem dropTaken_versions (s : State) : (dropTaken s).versions = s.versions := rfl
@[simp] theorem dropTaken_waiters (s : State) : (dropTaken s).waiters = s.waiters := rfl
@[simp] theorem dropTaken_dir (s : State) : (dropTaken s).dir = s.dir := rfl
@[simp] theorem dropTaken_l2 (s : State) : (dropTaken s).l2 = s.l2 := rfl
@[simp] theorem dropTaken_tlb (s : State) : (dropTaken s).tlb = s.tlb := rfl
@[simp] theorem dropTaken_msgs (s : State) : (dropTaken s).msgs = s.msgs := rfl
@[simp] theorem dropTaken_chains (s : State) : (dropTaken s).chains = s.chains := rfl
@[simp] theorem dropTaken_palMsgs (s : State) : (dropTaken s).palMsgs = s.palMsgs := rfl
@[simp] theorem dropTaken_parts (s : State) : (dropTaken s).parts = s.parts := rfl
@[simp] theorem dropTaken_queues (s : State) : (dropTaken s).queues = s.queues := rfl
@[simp] theorem dropTaken_launches (s : State) : (dropTaken s).launches = s.launches := rfl
@[simp] theorem dropTaken_tickets (s : State) : (dropTaken s).tickets = s.tickets := rfl
@[simp] theorem dropTaken_nextTicket (s : State) : (dropTaken s).nextTicket = s.nextTicket := rfl
@[simp] theorem dropTaken_invs (s : State) : (dropTaken s).invs = s.invs := rfl
@[simp] theorem dropTaken_irqs (s : State) : (dropTaken s).irqs = s.irqs := rfl
@[simp] theorem dropTaken_hostData (s : State) : (dropTaken s).hostData = s.hostData := rfl
@[simp] theorem dropTaken_time (s : State) : (dropTaken s).time = s.time := rfl
@[simp] theorem dropTaken_failed (s : State) : (dropTaken s).failed = s.failed := rfl
@[simp] theorem dropTaken_flows (s : State) : (dropTaken s).flows = s.flows := rfl
@[simp] theorem dropTaken_gwerid (s : State) : (dropTaken s).gwerid = s.gwerid := rfl
@[simp] theorem dropTaken_optics (s : State) : (dropTaken s).optics = s.optics := rfl
@[simp] theorem dropTaken_fw (s : State) : (dropTaken s).fw = s.fw := rfl
@[simp] theorem dropTaken_seq (s : State) : (dropTaken s).seq = s.seq := rfl
@[simp] theorem dropTaken_agenda (s : State) : (dropTaken s).agenda = s.agenda := rfl
@[simp] theorem dropTaken_free (s : State) : (dropTaken s).free = s.free := rfl
@[simp] theorem dropTaken_tick (s : State) : (dropTaken s).tick = s.tick := rfl
@[simp] theorem dropTaken_ts_s (s : State) : (dropTaken s).ts.s = s.ts.s := rfl
@[simp] theorem dropTaken_ts_v (s : State) : (dropTaken s).ts.v = s.ts.v := rfl
@[simp] theorem dropTaken_ts_q (s : State) : (dropTaken s).ts.q = s.ts.q := rfl
@[simp] theorem dropTaken_ts_pc (s : State) : (dropTaken s).ts.pc = s.ts.pc := rfl
@[simp] theorem dropTaken_ts_slots (s : State) : (dropTaken s).ts.slots = s.ts.slots := rfl
@[simp] theorem dropTaken_ts_shS (s : State) : (dropTaken s).ts.shS = s.ts.shS := rfl
@[simp] theorem dropTaken_ts_shQ7 (s : State) : (dropTaken s).ts.shQ7 = s.ts.shQ7 := rfl
@[simp] theorem dropTaken_ts_status (s : State) : (dropTaken s).ts.status = s.ts.status := rfl
@[simp] theorem dropTaken_ts_epc (s : State) : (dropTaken s).ts.epc = s.ts.epc := rfl
@[simp] theorem dropTaken_ts_ecause (s : State) : (dropTaken s).ts.ecause = s.ts.ecause := rfl
@[simp] theorem dropTaken_ts_eval (s : State) : (dropTaken s).ts.eval = s.ts.eval := rfl
@[simp] theorem dropTaken_ts_tvec (s : State) : (dropTaken s).ts.tvec = s.ts.tvec := rfl
@[simp] theorem dropTaken_ts_uxvec (s : State) : (dropTaken s).ts.uxvec = s.ts.uxvec := rfl
@[simp] theorem dropTaken_ts_uxid (s : State) : (dropTaken s).ts.uxid = s.ts.uxid := rfl
@[simp] theorem dropTaken_ts_uxepc (s : State) : (dropTaken s).ts.uxepc = s.ts.uxepc := rfl
@[simp] theorem dropTaken_ts_srctr (s : State) : (dropTaken s).ts.srctr = s.ts.srctr := rfl
@[simp] theorem dropTaken_ts_budget (s : State) : (dropTaken s).ts.budget = s.ts.budget := rfl
@[simp] theorem dropTaken_ts_rankid (s : State) : (dropTaken s).ts.rankid = s.ts.rankid := rfl
@[simp] theorem dropTaken_ts_coord (s : State) : (dropTaken s).ts.coord = s.ts.coord := rfl
@[simp] theorem dropTaken_ts_launchid (s : State) : (dropTaken s).ts.launchid = s.ts.launchid := rfl
@[simp] theorem dropTaken_ts_rect (s : State) : (dropTaken s).ts.rect = s.ts.rect := rfl
@[simp] theorem dropTaken_ts_deadline (s : State) : (dropTaken s).ts.deadline = s.ts.deadline := rfl
@[simp] theorem dropTaken_ts_srseed (s : State) : (dropTaken s).ts.srseed = s.ts.srseed := rfl
@[simp] theorem dropTaken_ts_partid (s : State) : (dropTaken s).ts.partid = s.ts.partid := rfl
@[simp] theorem dropTaken_ts_tsid (s : State) : (dropTaken s).ts.tsid = s.ts.tsid := rfl
@[simp] theorem dropTaken_ts_prio (s : State) : (dropTaken s).ts.prio = s.ts.prio := rfl
@[simp] theorem dropTaken_ts_priv (s : State) : (dropTaken s).ts.priv = s.ts.priv := rfl
@[simp] theorem dropTaken_ts_plen (s : State) : (dropTaken s).ts.plen = s.ts.plen := rfl
@[simp] theorem dropTaken_ts_live (s : State) : (dropTaken s).ts.live = s.ts.live := rfl
@[simp] theorem dropTaken_ts_run (s : State) : (dropTaken s).ts.run = s.ts.run := rfl
@[simp] theorem dropTaken_ts_fbuf (s : State) : (dropTaken s).ts.fbuf = s.ts.fbuf := rfl
@[simp] theorem dropTaken_ts_ux (s : State) : (dropTaken s).ts.ux = s.ts.ux := rfl
@[simp] theorem dropTaken_ts_sched (s : State) : (dropTaken s).ts.sched = s.ts.sched := rfl
@[simp] theorem dropTaken_ts_barl (s : State) : (dropTaken s).ts.barl = s.ts.barl := rfl
@[simp] theorem dropTaken_ts_waitphase (s : State) : (dropTaken s).ts.waitphase = s.ts.waitphase := rfl
@[simp] theorem dropTaken_ts_sends (s : State) : (dropTaken s).ts.sends = s.ts.sends := rfl
@[simp] theorem dropTaken_ts_locks (s : State) : (dropTaken s).ts.locks = s.ts.locks := rfl
@[simp] theorem dropTaken_ts_pins (s : State) : (dropTaken s).ts.pins = s.ts.pins := rfl
@[simp] theorem dropTaken_ts_wbase (s : State) : (dropTaken s).ts.wbase = s.ts.wbase := rfl
@[simp] theorem dropTaken_ts_wsize (s : State) : (dropTaken s).ts.wsize = s.ts.wsize := rfl
@[simp] theorem dropTaken_ts_ticket (s : State) : (dropTaken s).ts.ticket = s.ts.ticket := rfl
@[simp] theorem dropTaken_ts_palHold (s : State) : (dropTaken s).ts.palHold = s.ts.palHold := rfl

/-! ## setSlot -/

@[simp] theorem setSlot_tid (i : Nat) (k : Slot) (s : State) : (setSlot i k s).tid = s.tid := rfl
@[simp] theorem setSlot_core (i : Nat) (k : Slot) (s : State) : (setSlot i k s).core = s.core := rfl
@[simp] theorem setSlot_here (i : Nat) (k : Slot) (s : State) : (setSlot i k s).here = s.here := rfl
@[simp] theorem setSlot_cores (i : Nat) (k : Slot) (s : State) : (setSlot i k s).cores = s.cores := rfl
@[simp] theorem setSlot_mem (i : Nat) (k : Slot) (s : State) : (setSlot i k s).mem = s.mem := rfl
@[simp] theorem setSlot_bad (i : Nat) (k : Slot) (s : State) : (setSlot i k s).bad = s.bad := rfl
@[simp] theorem setSlot_soft (i : Nat) (k : Slot) (s : State) : (setSlot i k s).soft = s.soft := rfl
@[simp] theorem setSlot_poison (i : Nat) (k : Slot) (s : State) : (setSlot i k s).poison = s.poison := rfl
@[simp] theorem setSlot_l1bad (i : Nat) (k : Slot) (s : State) : (setSlot i k s).l1bad = s.l1bad := rfl
@[simp] theorem setSlot_l1soft (i : Nat) (k : Slot) (s : State) : (setSlot i k s).l1soft = s.l1soft := rfl
@[simp] theorem setSlot_hostOld (i : Nat) (k : Slot) (s : State) : (setSlot i k s).hostOld = s.hostOld := rfl
@[simp] theorem setSlot_pend (i : Nat) (k : Slot) (s : State) : (setSlot i k s).pend = s.pend := rfl
@[simp] theorem setSlot_versions (i : Nat) (k : Slot) (s : State) : (setSlot i k s).versions = s.versions := rfl
@[simp] theorem setSlot_waiters (i : Nat) (k : Slot) (s : State) : (setSlot i k s).waiters = s.waiters := rfl
@[simp] theorem setSlot_dir (i : Nat) (k : Slot) (s : State) : (setSlot i k s).dir = s.dir := rfl
@[simp] theorem setSlot_l2 (i : Nat) (k : Slot) (s : State) : (setSlot i k s).l2 = s.l2 := rfl
@[simp] theorem setSlot_tlb (i : Nat) (k : Slot) (s : State) : (setSlot i k s).tlb = s.tlb := rfl
@[simp] theorem setSlot_msgs (i : Nat) (k : Slot) (s : State) : (setSlot i k s).msgs = s.msgs := rfl
@[simp] theorem setSlot_chains (i : Nat) (k : Slot) (s : State) : (setSlot i k s).chains = s.chains := rfl
@[simp] theorem setSlot_palMsgs (i : Nat) (k : Slot) (s : State) : (setSlot i k s).palMsgs = s.palMsgs := rfl
@[simp] theorem setSlot_parts (i : Nat) (k : Slot) (s : State) : (setSlot i k s).parts = s.parts := rfl
@[simp] theorem setSlot_queues (i : Nat) (k : Slot) (s : State) : (setSlot i k s).queues = s.queues := rfl
@[simp] theorem setSlot_launches (i : Nat) (k : Slot) (s : State) : (setSlot i k s).launches = s.launches := rfl
@[simp] theorem setSlot_tickets (i : Nat) (k : Slot) (s : State) : (setSlot i k s).tickets = s.tickets := rfl
@[simp] theorem setSlot_nextTicket (i : Nat) (k : Slot) (s : State) : (setSlot i k s).nextTicket = s.nextTicket := rfl
@[simp] theorem setSlot_invs (i : Nat) (k : Slot) (s : State) : (setSlot i k s).invs = s.invs := rfl
@[simp] theorem setSlot_irqs (i : Nat) (k : Slot) (s : State) : (setSlot i k s).irqs = s.irqs := rfl
@[simp] theorem setSlot_hostData (i : Nat) (k : Slot) (s : State) : (setSlot i k s).hostData = s.hostData := rfl
@[simp] theorem setSlot_time (i : Nat) (k : Slot) (s : State) : (setSlot i k s).time = s.time := rfl
@[simp] theorem setSlot_failed (i : Nat) (k : Slot) (s : State) : (setSlot i k s).failed = s.failed := rfl
@[simp] theorem setSlot_flows (i : Nat) (k : Slot) (s : State) : (setSlot i k s).flows = s.flows := rfl
@[simp] theorem setSlot_gwerid (i : Nat) (k : Slot) (s : State) : (setSlot i k s).gwerid = s.gwerid := rfl
@[simp] theorem setSlot_optics (i : Nat) (k : Slot) (s : State) : (setSlot i k s).optics = s.optics := rfl
@[simp] theorem setSlot_fw (i : Nat) (k : Slot) (s : State) : (setSlot i k s).fw = s.fw := rfl
@[simp] theorem setSlot_seq (i : Nat) (k : Slot) (s : State) : (setSlot i k s).seq = s.seq := rfl
@[simp] theorem setSlot_agenda (i : Nat) (k : Slot) (s : State) : (setSlot i k s).agenda = s.agenda := rfl
@[simp] theorem setSlot_free (i : Nat) (k : Slot) (s : State) : (setSlot i k s).free = s.free := rfl
@[simp] theorem setSlot_tick (i : Nat) (k : Slot) (s : State) : (setSlot i k s).tick = s.tick := rfl
@[simp] theorem setSlot_ts_s (i : Nat) (k : Slot) (s : State) : (setSlot i k s).ts.s = s.ts.s := rfl
@[simp] theorem setSlot_ts_v (i : Nat) (k : Slot) (s : State) : (setSlot i k s).ts.v = s.ts.v := rfl
@[simp] theorem setSlot_ts_q (i : Nat) (k : Slot) (s : State) : (setSlot i k s).ts.q = s.ts.q := rfl
@[simp] theorem setSlot_ts_pc (i : Nat) (k : Slot) (s : State) : (setSlot i k s).ts.pc = s.ts.pc := rfl
@[simp] theorem setSlot_ts_shS (i : Nat) (k : Slot) (s : State) : (setSlot i k s).ts.shS = s.ts.shS := rfl
@[simp] theorem setSlot_ts_shQ7 (i : Nat) (k : Slot) (s : State) : (setSlot i k s).ts.shQ7 = s.ts.shQ7 := rfl
@[simp] theorem setSlot_ts_status (i : Nat) (k : Slot) (s : State) : (setSlot i k s).ts.status = s.ts.status := rfl
@[simp] theorem setSlot_ts_epc (i : Nat) (k : Slot) (s : State) : (setSlot i k s).ts.epc = s.ts.epc := rfl
@[simp] theorem setSlot_ts_ecause (i : Nat) (k : Slot) (s : State) : (setSlot i k s).ts.ecause = s.ts.ecause := rfl
@[simp] theorem setSlot_ts_eval (i : Nat) (k : Slot) (s : State) : (setSlot i k s).ts.eval = s.ts.eval := rfl
@[simp] theorem setSlot_ts_tvec (i : Nat) (k : Slot) (s : State) : (setSlot i k s).ts.tvec = s.ts.tvec := rfl
@[simp] theorem setSlot_ts_uxvec (i : Nat) (k : Slot) (s : State) : (setSlot i k s).ts.uxvec = s.ts.uxvec := rfl
@[simp] theorem setSlot_ts_uxid (i : Nat) (k : Slot) (s : State) : (setSlot i k s).ts.uxid = s.ts.uxid := rfl
@[simp] theorem setSlot_ts_uxepc (i : Nat) (k : Slot) (s : State) : (setSlot i k s).ts.uxepc = s.ts.uxepc := rfl
@[simp] theorem setSlot_ts_srctr (i : Nat) (k : Slot) (s : State) : (setSlot i k s).ts.srctr = s.ts.srctr := rfl
@[simp] theorem setSlot_ts_budget (i : Nat) (k : Slot) (s : State) : (setSlot i k s).ts.budget = s.ts.budget := rfl
@[simp] theorem setSlot_ts_rankid (i : Nat) (k : Slot) (s : State) : (setSlot i k s).ts.rankid = s.ts.rankid := rfl
@[simp] theorem setSlot_ts_coord (i : Nat) (k : Slot) (s : State) : (setSlot i k s).ts.coord = s.ts.coord := rfl
@[simp] theorem setSlot_ts_launchid (i : Nat) (k : Slot) (s : State) : (setSlot i k s).ts.launchid = s.ts.launchid := rfl
@[simp] theorem setSlot_ts_rect (i : Nat) (k : Slot) (s : State) : (setSlot i k s).ts.rect = s.ts.rect := rfl
@[simp] theorem setSlot_ts_deadline (i : Nat) (k : Slot) (s : State) : (setSlot i k s).ts.deadline = s.ts.deadline := rfl
@[simp] theorem setSlot_ts_srseed (i : Nat) (k : Slot) (s : State) : (setSlot i k s).ts.srseed = s.ts.srseed := rfl
@[simp] theorem setSlot_ts_partid (i : Nat) (k : Slot) (s : State) : (setSlot i k s).ts.partid = s.ts.partid := rfl
@[simp] theorem setSlot_ts_tsid (i : Nat) (k : Slot) (s : State) : (setSlot i k s).ts.tsid = s.ts.tsid := rfl
@[simp] theorem setSlot_ts_prio (i : Nat) (k : Slot) (s : State) : (setSlot i k s).ts.prio = s.ts.prio := rfl
@[simp] theorem setSlot_ts_priv (i : Nat) (k : Slot) (s : State) : (setSlot i k s).ts.priv = s.ts.priv := rfl
@[simp] theorem setSlot_ts_plen (i : Nat) (k : Slot) (s : State) : (setSlot i k s).ts.plen = s.ts.plen := rfl
@[simp] theorem setSlot_ts_live (i : Nat) (k : Slot) (s : State) : (setSlot i k s).ts.live = s.ts.live := rfl
@[simp] theorem setSlot_ts_run (i : Nat) (k : Slot) (s : State) : (setSlot i k s).ts.run = s.ts.run := rfl
@[simp] theorem setSlot_ts_fbuf (i : Nat) (k : Slot) (s : State) : (setSlot i k s).ts.fbuf = s.ts.fbuf := rfl
@[simp] theorem setSlot_ts_ux (i : Nat) (k : Slot) (s : State) : (setSlot i k s).ts.ux = s.ts.ux := rfl
@[simp] theorem setSlot_ts_sched (i : Nat) (k : Slot) (s : State) : (setSlot i k s).ts.sched = s.ts.sched := rfl
@[simp] theorem setSlot_ts_barl (i : Nat) (k : Slot) (s : State) : (setSlot i k s).ts.barl = s.ts.barl := rfl
@[simp] theorem setSlot_ts_waitphase (i : Nat) (k : Slot) (s : State) : (setSlot i k s).ts.waitphase = s.ts.waitphase := rfl
@[simp] theorem setSlot_ts_sends (i : Nat) (k : Slot) (s : State) : (setSlot i k s).ts.sends = s.ts.sends := rfl
@[simp] theorem setSlot_ts_locks (i : Nat) (k : Slot) (s : State) : (setSlot i k s).ts.locks = s.ts.locks := rfl
@[simp] theorem setSlot_ts_pins (i : Nat) (k : Slot) (s : State) : (setSlot i k s).ts.pins = s.ts.pins := rfl
@[simp] theorem setSlot_ts_wbase (i : Nat) (k : Slot) (s : State) : (setSlot i k s).ts.wbase = s.ts.wbase := rfl
@[simp] theorem setSlot_ts_wsize (i : Nat) (k : Slot) (s : State) : (setSlot i k s).ts.wsize = s.ts.wsize := rfl
@[simp] theorem setSlot_ts_ticket (i : Nat) (k : Slot) (s : State) : (setSlot i k s).ts.ticket = s.ts.ticket := rfl
@[simp] theorem setSlot_ts_palHold (i : Nat) (k : Slot) (s : State) : (setSlot i k s).ts.palHold = s.ts.palHold := rfl
@[simp] theorem setSlot_ts_palTaken (i : Nat) (k : Slot) (s : State) : (setSlot i k s).ts.palTaken = s.ts.palTaken := rfl
@[simp] theorem setSlot_ts_trgWait (i : Nat) (k : Slot) (s : State) : (setSlot i k s).ts.trgWait = s.ts.trgWait := rfl
@[simp] theorem setSlot_ts_enqWord (i : Nat) (k : Slot) (s : State) : (setSlot i k s).ts.enqWord = s.ts.enqWord := rfl

/-! ## putBound -/

@[simp] theorem putBound_tid (r : RegRef) (x : Nat) (s : State) : (putBound r x s).tid = s.tid := by cases r <;> rfl
@[simp] theorem putBound_core (r : RegRef) (x : Nat) (s : State) : (putBound r x s).core = s.core := by cases r <;> rfl
@[simp] theorem putBound_here (r : RegRef) (x : Nat) (s : State) : (putBound r x s).here = s.here := by cases r <;> rfl
@[simp] theorem putBound_cores (r : RegRef) (x : Nat) (s : State) : (putBound r x s).cores = s.cores := by cases r <;> rfl
@[simp] theorem putBound_mem (r : RegRef) (x : Nat) (s : State) : (putBound r x s).mem = s.mem := by cases r <;> rfl
@[simp] theorem putBound_bad (r : RegRef) (x : Nat) (s : State) : (putBound r x s).bad = s.bad := by cases r <;> rfl
@[simp] theorem putBound_soft (r : RegRef) (x : Nat) (s : State) : (putBound r x s).soft = s.soft := by cases r <;> rfl
@[simp] theorem putBound_poison (r : RegRef) (x : Nat) (s : State) : (putBound r x s).poison = s.poison := by cases r <;> rfl
@[simp] theorem putBound_l1bad (r : RegRef) (x : Nat) (s : State) : (putBound r x s).l1bad = s.l1bad := by cases r <;> rfl
@[simp] theorem putBound_l1soft (r : RegRef) (x : Nat) (s : State) : (putBound r x s).l1soft = s.l1soft := by cases r <;> rfl
@[simp] theorem putBound_hostOld (r : RegRef) (x : Nat) (s : State) : (putBound r x s).hostOld = s.hostOld := by cases r <;> rfl
@[simp] theorem putBound_pend (r : RegRef) (x : Nat) (s : State) : (putBound r x s).pend = s.pend := by cases r <;> rfl
@[simp] theorem putBound_versions (r : RegRef) (x : Nat) (s : State) : (putBound r x s).versions = s.versions := by cases r <;> rfl
@[simp] theorem putBound_waiters (r : RegRef) (x : Nat) (s : State) : (putBound r x s).waiters = s.waiters := by cases r <;> rfl
@[simp] theorem putBound_dir (r : RegRef) (x : Nat) (s : State) : (putBound r x s).dir = s.dir := by cases r <;> rfl
@[simp] theorem putBound_l2 (r : RegRef) (x : Nat) (s : State) : (putBound r x s).l2 = s.l2 := by cases r <;> rfl
@[simp] theorem putBound_tlb (r : RegRef) (x : Nat) (s : State) : (putBound r x s).tlb = s.tlb := by cases r <;> rfl
@[simp] theorem putBound_msgs (r : RegRef) (x : Nat) (s : State) : (putBound r x s).msgs = s.msgs := by cases r <;> rfl
@[simp] theorem putBound_chains (r : RegRef) (x : Nat) (s : State) : (putBound r x s).chains = s.chains := by cases r <;> rfl
@[simp] theorem putBound_palMsgs (r : RegRef) (x : Nat) (s : State) : (putBound r x s).palMsgs = s.palMsgs := by cases r <;> rfl
@[simp] theorem putBound_parts (r : RegRef) (x : Nat) (s : State) : (putBound r x s).parts = s.parts := by cases r <;> rfl
@[simp] theorem putBound_queues (r : RegRef) (x : Nat) (s : State) : (putBound r x s).queues = s.queues := by cases r <;> rfl
@[simp] theorem putBound_launches (r : RegRef) (x : Nat) (s : State) : (putBound r x s).launches = s.launches := by cases r <;> rfl
@[simp] theorem putBound_tickets (r : RegRef) (x : Nat) (s : State) : (putBound r x s).tickets = s.tickets := by cases r <;> rfl
@[simp] theorem putBound_nextTicket (r : RegRef) (x : Nat) (s : State) : (putBound r x s).nextTicket = s.nextTicket := by cases r <;> rfl
@[simp] theorem putBound_invs (r : RegRef) (x : Nat) (s : State) : (putBound r x s).invs = s.invs := by cases r <;> rfl
@[simp] theorem putBound_irqs (r : RegRef) (x : Nat) (s : State) : (putBound r x s).irqs = s.irqs := by cases r <;> rfl
@[simp] theorem putBound_hostData (r : RegRef) (x : Nat) (s : State) : (putBound r x s).hostData = s.hostData := by cases r <;> rfl
@[simp] theorem putBound_time (r : RegRef) (x : Nat) (s : State) : (putBound r x s).time = s.time := by cases r <;> rfl
@[simp] theorem putBound_failed (r : RegRef) (x : Nat) (s : State) : (putBound r x s).failed = s.failed := by cases r <;> rfl
@[simp] theorem putBound_flows (r : RegRef) (x : Nat) (s : State) : (putBound r x s).flows = s.flows := by cases r <;> rfl
@[simp] theorem putBound_gwerid (r : RegRef) (x : Nat) (s : State) : (putBound r x s).gwerid = s.gwerid := by cases r <;> rfl
@[simp] theorem putBound_optics (r : RegRef) (x : Nat) (s : State) : (putBound r x s).optics = s.optics := by cases r <;> rfl
@[simp] theorem putBound_fw (r : RegRef) (x : Nat) (s : State) : (putBound r x s).fw = s.fw := by cases r <;> rfl
@[simp] theorem putBound_seq (r : RegRef) (x : Nat) (s : State) : (putBound r x s).seq = s.seq := by cases r <;> rfl
@[simp] theorem putBound_agenda (r : RegRef) (x : Nat) (s : State) : (putBound r x s).agenda = s.agenda := by cases r <;> rfl
@[simp] theorem putBound_free (r : RegRef) (x : Nat) (s : State) : (putBound r x s).free = s.free := by cases r <;> rfl
@[simp] theorem putBound_tick (r : RegRef) (x : Nat) (s : State) : (putBound r x s).tick = s.tick := by cases r <;> rfl
@[simp] theorem putBound_ts_q (r : RegRef) (x : Nat) (s : State) : (putBound r x s).ts.q = s.ts.q := by cases r <;> rfl
@[simp] theorem putBound_ts_pc (r : RegRef) (x : Nat) (s : State) : (putBound r x s).ts.pc = s.ts.pc := by cases r <;> rfl
@[simp] theorem putBound_ts_slots (r : RegRef) (x : Nat) (s : State) : (putBound r x s).ts.slots = s.ts.slots := by cases r <;> rfl
@[simp] theorem putBound_ts_shS (r : RegRef) (x : Nat) (s : State) : (putBound r x s).ts.shS = s.ts.shS := by cases r <;> rfl
@[simp] theorem putBound_ts_shQ7 (r : RegRef) (x : Nat) (s : State) : (putBound r x s).ts.shQ7 = s.ts.shQ7 := by cases r <;> rfl
@[simp] theorem putBound_ts_status (r : RegRef) (x : Nat) (s : State) : (putBound r x s).ts.status = s.ts.status := by cases r <;> rfl
@[simp] theorem putBound_ts_epc (r : RegRef) (x : Nat) (s : State) : (putBound r x s).ts.epc = s.ts.epc := by cases r <;> rfl
@[simp] theorem putBound_ts_ecause (r : RegRef) (x : Nat) (s : State) : (putBound r x s).ts.ecause = s.ts.ecause := by cases r <;> rfl
@[simp] theorem putBound_ts_eval (r : RegRef) (x : Nat) (s : State) : (putBound r x s).ts.eval = s.ts.eval := by cases r <;> rfl
@[simp] theorem putBound_ts_tvec (r : RegRef) (x : Nat) (s : State) : (putBound r x s).ts.tvec = s.ts.tvec := by cases r <;> rfl
@[simp] theorem putBound_ts_uxvec (r : RegRef) (x : Nat) (s : State) : (putBound r x s).ts.uxvec = s.ts.uxvec := by cases r <;> rfl
@[simp] theorem putBound_ts_uxid (r : RegRef) (x : Nat) (s : State) : (putBound r x s).ts.uxid = s.ts.uxid := by cases r <;> rfl
@[simp] theorem putBound_ts_uxepc (r : RegRef) (x : Nat) (s : State) : (putBound r x s).ts.uxepc = s.ts.uxepc := by cases r <;> rfl
@[simp] theorem putBound_ts_srctr (r : RegRef) (x : Nat) (s : State) : (putBound r x s).ts.srctr = s.ts.srctr := by cases r <;> rfl
@[simp] theorem putBound_ts_budget (r : RegRef) (x : Nat) (s : State) : (putBound r x s).ts.budget = s.ts.budget := by cases r <;> rfl
@[simp] theorem putBound_ts_rankid (r : RegRef) (x : Nat) (s : State) : (putBound r x s).ts.rankid = s.ts.rankid := by cases r <;> rfl
@[simp] theorem putBound_ts_coord (r : RegRef) (x : Nat) (s : State) : (putBound r x s).ts.coord = s.ts.coord := by cases r <;> rfl
@[simp] theorem putBound_ts_launchid (r : RegRef) (x : Nat) (s : State) : (putBound r x s).ts.launchid = s.ts.launchid := by cases r <;> rfl
@[simp] theorem putBound_ts_rect (r : RegRef) (x : Nat) (s : State) : (putBound r x s).ts.rect = s.ts.rect := by cases r <;> rfl
@[simp] theorem putBound_ts_deadline (r : RegRef) (x : Nat) (s : State) : (putBound r x s).ts.deadline = s.ts.deadline := by cases r <;> rfl
@[simp] theorem putBound_ts_srseed (r : RegRef) (x : Nat) (s : State) : (putBound r x s).ts.srseed = s.ts.srseed := by cases r <;> rfl
@[simp] theorem putBound_ts_partid (r : RegRef) (x : Nat) (s : State) : (putBound r x s).ts.partid = s.ts.partid := by cases r <;> rfl
@[simp] theorem putBound_ts_tsid (r : RegRef) (x : Nat) (s : State) : (putBound r x s).ts.tsid = s.ts.tsid := by cases r <;> rfl
@[simp] theorem putBound_ts_prio (r : RegRef) (x : Nat) (s : State) : (putBound r x s).ts.prio = s.ts.prio := by cases r <;> rfl
@[simp] theorem putBound_ts_priv (r : RegRef) (x : Nat) (s : State) : (putBound r x s).ts.priv = s.ts.priv := by cases r <;> rfl
@[simp] theorem putBound_ts_plen (r : RegRef) (x : Nat) (s : State) : (putBound r x s).ts.plen = s.ts.plen := by cases r <;> rfl
@[simp] theorem putBound_ts_live (r : RegRef) (x : Nat) (s : State) : (putBound r x s).ts.live = s.ts.live := by cases r <;> rfl
@[simp] theorem putBound_ts_run (r : RegRef) (x : Nat) (s : State) : (putBound r x s).ts.run = s.ts.run := by cases r <;> rfl
@[simp] theorem putBound_ts_fbuf (r : RegRef) (x : Nat) (s : State) : (putBound r x s).ts.fbuf = s.ts.fbuf := by cases r <;> rfl
@[simp] theorem putBound_ts_ux (r : RegRef) (x : Nat) (s : State) : (putBound r x s).ts.ux = s.ts.ux := by cases r <;> rfl
@[simp] theorem putBound_ts_sched (r : RegRef) (x : Nat) (s : State) : (putBound r x s).ts.sched = s.ts.sched := by cases r <;> rfl
@[simp] theorem putBound_ts_barl (r : RegRef) (x : Nat) (s : State) : (putBound r x s).ts.barl = s.ts.barl := by cases r <;> rfl
@[simp] theorem putBound_ts_waitphase (r : RegRef) (x : Nat) (s : State) : (putBound r x s).ts.waitphase = s.ts.waitphase := by cases r <;> rfl
@[simp] theorem putBound_ts_sends (r : RegRef) (x : Nat) (s : State) : (putBound r x s).ts.sends = s.ts.sends := by cases r <;> rfl
@[simp] theorem putBound_ts_locks (r : RegRef) (x : Nat) (s : State) : (putBound r x s).ts.locks = s.ts.locks := by cases r <;> rfl
@[simp] theorem putBound_ts_pins (r : RegRef) (x : Nat) (s : State) : (putBound r x s).ts.pins = s.ts.pins := by cases r <;> rfl
@[simp] theorem putBound_ts_wbase (r : RegRef) (x : Nat) (s : State) : (putBound r x s).ts.wbase = s.ts.wbase := by cases r <;> rfl
@[simp] theorem putBound_ts_wsize (r : RegRef) (x : Nat) (s : State) : (putBound r x s).ts.wsize = s.ts.wsize := by cases r <;> rfl
@[simp] theorem putBound_ts_ticket (r : RegRef) (x : Nat) (s : State) : (putBound r x s).ts.ticket = s.ts.ticket := by cases r <;> rfl
@[simp] theorem putBound_ts_palHold (r : RegRef) (x : Nat) (s : State) : (putBound r x s).ts.palHold = s.ts.palHold := by cases r <;> rfl
@[simp] theorem putBound_ts_palTaken (r : RegRef) (x : Nat) (s : State) : (putBound r x s).ts.palTaken = s.ts.palTaken := by cases r <;> rfl
@[simp] theorem putBound_ts_trgWait (r : RegRef) (x : Nat) (s : State) : (putBound r x s).ts.trgWait = s.ts.trgWait := by cases r <;> rfl
@[simp] theorem putBound_ts_enqWord (r : RegRef) (x : Nat) (s : State) : (putBound r x s).ts.enqWord = s.ts.enqWord := by cases r <;> rfl

/-! ## keepOwn -/

@[simp] theorem keepOwn_tid (r : RegRef) (o : State) (s : State) : (keepOwn r o s).tid = s.tid := by cases r <;> rfl
@[simp] theorem keepOwn_core (r : RegRef) (o : State) (s : State) : (keepOwn r o s).core = s.core := by cases r <;> rfl
@[simp] theorem keepOwn_here (r : RegRef) (o : State) (s : State) : (keepOwn r o s).here = s.here := by cases r <;> rfl
@[simp] theorem keepOwn_cores (r : RegRef) (o : State) (s : State) : (keepOwn r o s).cores = s.cores := by cases r <;> rfl
@[simp] theorem keepOwn_mem (r : RegRef) (o : State) (s : State) : (keepOwn r o s).mem = s.mem := by cases r <;> rfl
@[simp] theorem keepOwn_bad (r : RegRef) (o : State) (s : State) : (keepOwn r o s).bad = s.bad := by cases r <;> rfl
@[simp] theorem keepOwn_soft (r : RegRef) (o : State) (s : State) : (keepOwn r o s).soft = s.soft := by cases r <;> rfl
@[simp] theorem keepOwn_poison (r : RegRef) (o : State) (s : State) : (keepOwn r o s).poison = s.poison := by cases r <;> rfl
@[simp] theorem keepOwn_l1bad (r : RegRef) (o : State) (s : State) : (keepOwn r o s).l1bad = s.l1bad := by cases r <;> rfl
@[simp] theorem keepOwn_l1soft (r : RegRef) (o : State) (s : State) : (keepOwn r o s).l1soft = s.l1soft := by cases r <;> rfl
@[simp] theorem keepOwn_hostOld (r : RegRef) (o : State) (s : State) : (keepOwn r o s).hostOld = s.hostOld := by cases r <;> rfl
@[simp] theorem keepOwn_pend (r : RegRef) (o : State) (s : State) : (keepOwn r o s).pend = s.pend := by cases r <;> rfl
@[simp] theorem keepOwn_versions (r : RegRef) (o : State) (s : State) : (keepOwn r o s).versions = s.versions := by cases r <;> rfl
@[simp] theorem keepOwn_waiters (r : RegRef) (o : State) (s : State) : (keepOwn r o s).waiters = s.waiters := by cases r <;> rfl
@[simp] theorem keepOwn_dir (r : RegRef) (o : State) (s : State) : (keepOwn r o s).dir = s.dir := by cases r <;> rfl
@[simp] theorem keepOwn_l2 (r : RegRef) (o : State) (s : State) : (keepOwn r o s).l2 = s.l2 := by cases r <;> rfl
@[simp] theorem keepOwn_tlb (r : RegRef) (o : State) (s : State) : (keepOwn r o s).tlb = s.tlb := by cases r <;> rfl
@[simp] theorem keepOwn_msgs (r : RegRef) (o : State) (s : State) : (keepOwn r o s).msgs = s.msgs := by cases r <;> rfl
@[simp] theorem keepOwn_chains (r : RegRef) (o : State) (s : State) : (keepOwn r o s).chains = s.chains := by cases r <;> rfl
@[simp] theorem keepOwn_palMsgs (r : RegRef) (o : State) (s : State) : (keepOwn r o s).palMsgs = s.palMsgs := by cases r <;> rfl
@[simp] theorem keepOwn_parts (r : RegRef) (o : State) (s : State) : (keepOwn r o s).parts = s.parts := by cases r <;> rfl
@[simp] theorem keepOwn_queues (r : RegRef) (o : State) (s : State) : (keepOwn r o s).queues = s.queues := by cases r <;> rfl
@[simp] theorem keepOwn_launches (r : RegRef) (o : State) (s : State) : (keepOwn r o s).launches = s.launches := by cases r <;> rfl
@[simp] theorem keepOwn_tickets (r : RegRef) (o : State) (s : State) : (keepOwn r o s).tickets = s.tickets := by cases r <;> rfl
@[simp] theorem keepOwn_nextTicket (r : RegRef) (o : State) (s : State) : (keepOwn r o s).nextTicket = s.nextTicket := by cases r <;> rfl
@[simp] theorem keepOwn_invs (r : RegRef) (o : State) (s : State) : (keepOwn r o s).invs = s.invs := by cases r <;> rfl
@[simp] theorem keepOwn_irqs (r : RegRef) (o : State) (s : State) : (keepOwn r o s).irqs = s.irqs := by cases r <;> rfl
@[simp] theorem keepOwn_hostData (r : RegRef) (o : State) (s : State) : (keepOwn r o s).hostData = s.hostData := by cases r <;> rfl
@[simp] theorem keepOwn_time (r : RegRef) (o : State) (s : State) : (keepOwn r o s).time = s.time := by cases r <;> rfl
@[simp] theorem keepOwn_failed (r : RegRef) (o : State) (s : State) : (keepOwn r o s).failed = s.failed := by cases r <;> rfl
@[simp] theorem keepOwn_flows (r : RegRef) (o : State) (s : State) : (keepOwn r o s).flows = s.flows := by cases r <;> rfl
@[simp] theorem keepOwn_gwerid (r : RegRef) (o : State) (s : State) : (keepOwn r o s).gwerid = s.gwerid := by cases r <;> rfl
@[simp] theorem keepOwn_optics (r : RegRef) (o : State) (s : State) : (keepOwn r o s).optics = s.optics := by cases r <;> rfl
@[simp] theorem keepOwn_fw (r : RegRef) (o : State) (s : State) : (keepOwn r o s).fw = s.fw := by cases r <;> rfl
@[simp] theorem keepOwn_seq (r : RegRef) (o : State) (s : State) : (keepOwn r o s).seq = s.seq := by cases r <;> rfl
@[simp] theorem keepOwn_agenda (r : RegRef) (o : State) (s : State) : (keepOwn r o s).agenda = s.agenda := by cases r <;> rfl
@[simp] theorem keepOwn_free (r : RegRef) (o : State) (s : State) : (keepOwn r o s).free = s.free := by cases r <;> rfl
@[simp] theorem keepOwn_tick (r : RegRef) (o : State) (s : State) : (keepOwn r o s).tick = s.tick := by cases r <;> rfl
@[simp] theorem keepOwn_ts_q (r : RegRef) (o : State) (s : State) : (keepOwn r o s).ts.q = s.ts.q := by cases r <;> rfl
@[simp] theorem keepOwn_ts_pc (r : RegRef) (o : State) (s : State) : (keepOwn r o s).ts.pc = s.ts.pc := by cases r <;> rfl
@[simp] theorem keepOwn_ts_slots (r : RegRef) (o : State) (s : State) : (keepOwn r o s).ts.slots = s.ts.slots := by cases r <;> rfl
@[simp] theorem keepOwn_ts_shS (r : RegRef) (o : State) (s : State) : (keepOwn r o s).ts.shS = s.ts.shS := by cases r <;> rfl
@[simp] theorem keepOwn_ts_shQ7 (r : RegRef) (o : State) (s : State) : (keepOwn r o s).ts.shQ7 = s.ts.shQ7 := by cases r <;> rfl
@[simp] theorem keepOwn_ts_status (r : RegRef) (o : State) (s : State) : (keepOwn r o s).ts.status = s.ts.status := by cases r <;> rfl
@[simp] theorem keepOwn_ts_epc (r : RegRef) (o : State) (s : State) : (keepOwn r o s).ts.epc = s.ts.epc := by cases r <;> rfl
@[simp] theorem keepOwn_ts_ecause (r : RegRef) (o : State) (s : State) : (keepOwn r o s).ts.ecause = s.ts.ecause := by cases r <;> rfl
@[simp] theorem keepOwn_ts_eval (r : RegRef) (o : State) (s : State) : (keepOwn r o s).ts.eval = s.ts.eval := by cases r <;> rfl
@[simp] theorem keepOwn_ts_tvec (r : RegRef) (o : State) (s : State) : (keepOwn r o s).ts.tvec = s.ts.tvec := by cases r <;> rfl
@[simp] theorem keepOwn_ts_uxvec (r : RegRef) (o : State) (s : State) : (keepOwn r o s).ts.uxvec = s.ts.uxvec := by cases r <;> rfl
@[simp] theorem keepOwn_ts_uxid (r : RegRef) (o : State) (s : State) : (keepOwn r o s).ts.uxid = s.ts.uxid := by cases r <;> rfl
@[simp] theorem keepOwn_ts_uxepc (r : RegRef) (o : State) (s : State) : (keepOwn r o s).ts.uxepc = s.ts.uxepc := by cases r <;> rfl
@[simp] theorem keepOwn_ts_srctr (r : RegRef) (o : State) (s : State) : (keepOwn r o s).ts.srctr = s.ts.srctr := by cases r <;> rfl
@[simp] theorem keepOwn_ts_budget (r : RegRef) (o : State) (s : State) : (keepOwn r o s).ts.budget = s.ts.budget := by cases r <;> rfl
@[simp] theorem keepOwn_ts_rankid (r : RegRef) (o : State) (s : State) : (keepOwn r o s).ts.rankid = s.ts.rankid := by cases r <;> rfl
@[simp] theorem keepOwn_ts_coord (r : RegRef) (o : State) (s : State) : (keepOwn r o s).ts.coord = s.ts.coord := by cases r <;> rfl
@[simp] theorem keepOwn_ts_launchid (r : RegRef) (o : State) (s : State) : (keepOwn r o s).ts.launchid = s.ts.launchid := by cases r <;> rfl
@[simp] theorem keepOwn_ts_rect (r : RegRef) (o : State) (s : State) : (keepOwn r o s).ts.rect = s.ts.rect := by cases r <;> rfl
@[simp] theorem keepOwn_ts_deadline (r : RegRef) (o : State) (s : State) : (keepOwn r o s).ts.deadline = s.ts.deadline := by cases r <;> rfl
@[simp] theorem keepOwn_ts_srseed (r : RegRef) (o : State) (s : State) : (keepOwn r o s).ts.srseed = s.ts.srseed := by cases r <;> rfl
@[simp] theorem keepOwn_ts_partid (r : RegRef) (o : State) (s : State) : (keepOwn r o s).ts.partid = s.ts.partid := by cases r <;> rfl
@[simp] theorem keepOwn_ts_tsid (r : RegRef) (o : State) (s : State) : (keepOwn r o s).ts.tsid = s.ts.tsid := by cases r <;> rfl
@[simp] theorem keepOwn_ts_prio (r : RegRef) (o : State) (s : State) : (keepOwn r o s).ts.prio = s.ts.prio := by cases r <;> rfl
@[simp] theorem keepOwn_ts_priv (r : RegRef) (o : State) (s : State) : (keepOwn r o s).ts.priv = s.ts.priv := by cases r <;> rfl
@[simp] theorem keepOwn_ts_plen (r : RegRef) (o : State) (s : State) : (keepOwn r o s).ts.plen = s.ts.plen := by cases r <;> rfl
@[simp] theorem keepOwn_ts_live (r : RegRef) (o : State) (s : State) : (keepOwn r o s).ts.live = s.ts.live := by cases r <;> rfl
@[simp] theorem keepOwn_ts_run (r : RegRef) (o : State) (s : State) : (keepOwn r o s).ts.run = s.ts.run := by cases r <;> rfl
@[simp] theorem keepOwn_ts_fbuf (r : RegRef) (o : State) (s : State) : (keepOwn r o s).ts.fbuf = s.ts.fbuf := by cases r <;> rfl
@[simp] theorem keepOwn_ts_ux (r : RegRef) (o : State) (s : State) : (keepOwn r o s).ts.ux = s.ts.ux := by cases r <;> rfl
@[simp] theorem keepOwn_ts_sched (r : RegRef) (o : State) (s : State) : (keepOwn r o s).ts.sched = s.ts.sched := by cases r <;> rfl
@[simp] theorem keepOwn_ts_barl (r : RegRef) (o : State) (s : State) : (keepOwn r o s).ts.barl = s.ts.barl := by cases r <;> rfl
@[simp] theorem keepOwn_ts_waitphase (r : RegRef) (o : State) (s : State) : (keepOwn r o s).ts.waitphase = s.ts.waitphase := by cases r <;> rfl
@[simp] theorem keepOwn_ts_sends (r : RegRef) (o : State) (s : State) : (keepOwn r o s).ts.sends = s.ts.sends := by cases r <;> rfl
@[simp] theorem keepOwn_ts_locks (r : RegRef) (o : State) (s : State) : (keepOwn r o s).ts.locks = s.ts.locks := by cases r <;> rfl
@[simp] theorem keepOwn_ts_pins (r : RegRef) (o : State) (s : State) : (keepOwn r o s).ts.pins = s.ts.pins := by cases r <;> rfl
@[simp] theorem keepOwn_ts_wbase (r : RegRef) (o : State) (s : State) : (keepOwn r o s).ts.wbase = s.ts.wbase := by cases r <;> rfl
@[simp] theorem keepOwn_ts_wsize (r : RegRef) (o : State) (s : State) : (keepOwn r o s).ts.wsize = s.ts.wsize := by cases r <;> rfl
@[simp] theorem keepOwn_ts_ticket (r : RegRef) (o : State) (s : State) : (keepOwn r o s).ts.ticket = s.ts.ticket := by cases r <;> rfl
@[simp] theorem keepOwn_ts_palHold (r : RegRef) (o : State) (s : State) : (keepOwn r o s).ts.palHold = s.ts.palHold := by cases r <;> rfl
@[simp] theorem keepOwn_ts_palTaken (r : RegRef) (o : State) (s : State) : (keepOwn r o s).ts.palTaken = s.ts.palTaken := by cases r <;> rfl
@[simp] theorem keepOwn_ts_trgWait (r : RegRef) (o : State) (s : State) : (keepOwn r o s).ts.trgWait = s.ts.trgWait := by cases r <;> rfl
@[simp] theorem keepOwn_ts_enqWord (r : RegRef) (o : State) (s : State) : (keepOwn r o s).ts.enqWord = s.ts.enqWord := by cases r <;> rfl

/-! ## retire -/

@[simp] theorem retire_tid (u : Use) (o : State) (s : State) : (retire u o s).tid = s.tid := rfl
@[simp] theorem retire_core (u : Use) (o : State) (s : State) : (retire u o s).core = s.core := rfl
@[simp] theorem retire_here (u : Use) (o : State) (s : State) : (retire u o s).here = s.here := rfl
@[simp] theorem retire_cores (u : Use) (o : State) (s : State) : (retire u o s).cores = s.cores := rfl
@[simp] theorem retire_mem (u : Use) (o : State) (s : State) : (retire u o s).mem = s.mem := rfl
@[simp] theorem retire_bad (u : Use) (o : State) (s : State) : (retire u o s).bad = s.bad := rfl
@[simp] theorem retire_soft (u : Use) (o : State) (s : State) : (retire u o s).soft = s.soft := rfl
@[simp] theorem retire_poison (u : Use) (o : State) (s : State) : (retire u o s).poison = s.poison := rfl
@[simp] theorem retire_l1bad (u : Use) (o : State) (s : State) : (retire u o s).l1bad = s.l1bad := rfl
@[simp] theorem retire_l1soft (u : Use) (o : State) (s : State) : (retire u o s).l1soft = s.l1soft := rfl
@[simp] theorem retire_hostOld (u : Use) (o : State) (s : State) : (retire u o s).hostOld = s.hostOld := rfl
@[simp] theorem retire_pend (u : Use) (o : State) (s : State) : (retire u o s).pend = s.pend := rfl
@[simp] theorem retire_versions (u : Use) (o : State) (s : State) : (retire u o s).versions = s.versions := rfl
@[simp] theorem retire_waiters (u : Use) (o : State) (s : State) : (retire u o s).waiters = s.waiters := rfl
@[simp] theorem retire_dir (u : Use) (o : State) (s : State) : (retire u o s).dir = s.dir := rfl
@[simp] theorem retire_l2 (u : Use) (o : State) (s : State) : (retire u o s).l2 = s.l2 := rfl
@[simp] theorem retire_tlb (u : Use) (o : State) (s : State) : (retire u o s).tlb = s.tlb := rfl
@[simp] theorem retire_msgs (u : Use) (o : State) (s : State) : (retire u o s).msgs = s.msgs := rfl
@[simp] theorem retire_chains (u : Use) (o : State) (s : State) : (retire u o s).chains = s.chains := rfl
@[simp] theorem retire_palMsgs (u : Use) (o : State) (s : State) : (retire u o s).palMsgs = s.palMsgs := rfl
@[simp] theorem retire_parts (u : Use) (o : State) (s : State) : (retire u o s).parts = s.parts := rfl
@[simp] theorem retire_queues (u : Use) (o : State) (s : State) : (retire u o s).queues = s.queues := rfl
@[simp] theorem retire_launches (u : Use) (o : State) (s : State) : (retire u o s).launches = s.launches := rfl
@[simp] theorem retire_tickets (u : Use) (o : State) (s : State) : (retire u o s).tickets = s.tickets := rfl
@[simp] theorem retire_nextTicket (u : Use) (o : State) (s : State) : (retire u o s).nextTicket = s.nextTicket := rfl
@[simp] theorem retire_invs (u : Use) (o : State) (s : State) : (retire u o s).invs = s.invs := rfl
@[simp] theorem retire_irqs (u : Use) (o : State) (s : State) : (retire u o s).irqs = s.irqs := rfl
@[simp] theorem retire_hostData (u : Use) (o : State) (s : State) : (retire u o s).hostData = s.hostData := rfl
@[simp] theorem retire_time (u : Use) (o : State) (s : State) : (retire u o s).time = s.time := rfl
@[simp] theorem retire_failed (u : Use) (o : State) (s : State) : (retire u o s).failed = s.failed := rfl
@[simp] theorem retire_flows (u : Use) (o : State) (s : State) : (retire u o s).flows = s.flows := rfl
@[simp] theorem retire_gwerid (u : Use) (o : State) (s : State) : (retire u o s).gwerid = s.gwerid := rfl
@[simp] theorem retire_optics (u : Use) (o : State) (s : State) : (retire u o s).optics = s.optics := rfl
@[simp] theorem retire_fw (u : Use) (o : State) (s : State) : (retire u o s).fw = s.fw := rfl
@[simp] theorem retire_seq (u : Use) (o : State) (s : State) : (retire u o s).seq = s.seq := rfl
@[simp] theorem retire_agenda (u : Use) (o : State) (s : State) : (retire u o s).agenda = s.agenda := rfl
@[simp] theorem retire_free (u : Use) (o : State) (s : State) : (retire u o s).free = s.free := rfl
@[simp] theorem retire_tick (u : Use) (o : State) (s : State) : (retire u o s).tick = s.tick := rfl
@[simp] theorem retire_ts_s (u : Use) (o : State) (s : State) : (retire u o s).ts.s = s.ts.s := rfl
@[simp] theorem retire_ts_v (u : Use) (o : State) (s : State) : (retire u o s).ts.v = s.ts.v := rfl
@[simp] theorem retire_ts_q (u : Use) (o : State) (s : State) : (retire u o s).ts.q = s.ts.q := rfl
@[simp] theorem retire_ts_pc (u : Use) (o : State) (s : State) : (retire u o s).ts.pc = s.ts.pc := rfl
@[simp] theorem retire_ts_slots (u : Use) (o : State) (s : State) : (retire u o s).ts.slots = s.ts.slots := rfl
@[simp] theorem retire_ts_shS (u : Use) (o : State) (s : State) : (retire u o s).ts.shS = s.ts.shS := rfl
@[simp] theorem retire_ts_shQ7 (u : Use) (o : State) (s : State) : (retire u o s).ts.shQ7 = s.ts.shQ7 := rfl
@[simp] theorem retire_ts_status (u : Use) (o : State) (s : State) : (retire u o s).ts.status = s.ts.status := rfl
@[simp] theorem retire_ts_epc (u : Use) (o : State) (s : State) : (retire u o s).ts.epc = s.ts.epc := rfl
@[simp] theorem retire_ts_ecause (u : Use) (o : State) (s : State) : (retire u o s).ts.ecause = s.ts.ecause := rfl
@[simp] theorem retire_ts_eval (u : Use) (o : State) (s : State) : (retire u o s).ts.eval = s.ts.eval := rfl
@[simp] theorem retire_ts_tvec (u : Use) (o : State) (s : State) : (retire u o s).ts.tvec = s.ts.tvec := rfl
@[simp] theorem retire_ts_uxvec (u : Use) (o : State) (s : State) : (retire u o s).ts.uxvec = s.ts.uxvec := rfl
@[simp] theorem retire_ts_uxid (u : Use) (o : State) (s : State) : (retire u o s).ts.uxid = s.ts.uxid := rfl
@[simp] theorem retire_ts_uxepc (u : Use) (o : State) (s : State) : (retire u o s).ts.uxepc = s.ts.uxepc := rfl
@[simp] theorem retire_ts_srctr (u : Use) (o : State) (s : State) : (retire u o s).ts.srctr = s.ts.srctr := rfl
@[simp] theorem retire_ts_budget (u : Use) (o : State) (s : State) : (retire u o s).ts.budget = s.ts.budget := rfl
@[simp] theorem retire_ts_rankid (u : Use) (o : State) (s : State) : (retire u o s).ts.rankid = s.ts.rankid := rfl
@[simp] theorem retire_ts_coord (u : Use) (o : State) (s : State) : (retire u o s).ts.coord = s.ts.coord := rfl
@[simp] theorem retire_ts_launchid (u : Use) (o : State) (s : State) : (retire u o s).ts.launchid = s.ts.launchid := rfl
@[simp] theorem retire_ts_rect (u : Use) (o : State) (s : State) : (retire u o s).ts.rect = s.ts.rect := rfl
@[simp] theorem retire_ts_deadline (u : Use) (o : State) (s : State) : (retire u o s).ts.deadline = s.ts.deadline := rfl
@[simp] theorem retire_ts_srseed (u : Use) (o : State) (s : State) : (retire u o s).ts.srseed = s.ts.srseed := rfl
@[simp] theorem retire_ts_partid (u : Use) (o : State) (s : State) : (retire u o s).ts.partid = s.ts.partid := rfl
@[simp] theorem retire_ts_tsid (u : Use) (o : State) (s : State) : (retire u o s).ts.tsid = s.ts.tsid := rfl
@[simp] theorem retire_ts_prio (u : Use) (o : State) (s : State) : (retire u o s).ts.prio = s.ts.prio := rfl
@[simp] theorem retire_ts_priv (u : Use) (o : State) (s : State) : (retire u o s).ts.priv = s.ts.priv := rfl
@[simp] theorem retire_ts_plen (u : Use) (o : State) (s : State) : (retire u o s).ts.plen = s.ts.plen := rfl
@[simp] theorem retire_ts_fbuf (u : Use) (o : State) (s : State) : (retire u o s).ts.fbuf = s.ts.fbuf := rfl
@[simp] theorem retire_ts_ux (u : Use) (o : State) (s : State) : (retire u o s).ts.ux = s.ts.ux := rfl
@[simp] theorem retire_ts_sched (u : Use) (o : State) (s : State) : (retire u o s).ts.sched = s.ts.sched := rfl
@[simp] theorem retire_ts_barl (u : Use) (o : State) (s : State) : (retire u o s).ts.barl = s.ts.barl := rfl
@[simp] theorem retire_ts_waitphase (u : Use) (o : State) (s : State) : (retire u o s).ts.waitphase = s.ts.waitphase := rfl
@[simp] theorem retire_ts_sends (u : Use) (o : State) (s : State) : (retire u o s).ts.sends = s.ts.sends := rfl
@[simp] theorem retire_ts_locks (u : Use) (o : State) (s : State) : (retire u o s).ts.locks = s.ts.locks := rfl
@[simp] theorem retire_ts_pins (u : Use) (o : State) (s : State) : (retire u o s).ts.pins = s.ts.pins := rfl
@[simp] theorem retire_ts_wbase (u : Use) (o : State) (s : State) : (retire u o s).ts.wbase = s.ts.wbase := rfl
@[simp] theorem retire_ts_wsize (u : Use) (o : State) (s : State) : (retire u o s).ts.wsize = s.ts.wsize := rfl
@[simp] theorem retire_ts_palHold (u : Use) (o : State) (s : State) : (retire u o s).ts.palHold = s.ts.palHold := rfl

@[simp] theorem tickFree_ts (s : State) : (tickFree s).ts = s.ts := rfl
@[simp] theorem tickFree_tid (s : State) : (tickFree s).tid = s.tid := rfl
@[simp] theorem tickFree_core (s : State) : (tickFree s).core = s.core := rfl
@[simp] theorem tickFree_here (s : State) : (tickFree s).here = s.here := rfl
@[simp] theorem tickFree_cores (s : State) : (tickFree s).cores = s.cores := rfl
@[simp] theorem tickFree_mem (s : State) : (tickFree s).mem = s.mem := rfl
@[simp] theorem tickFree_bad (s : State) : (tickFree s).bad = s.bad := rfl
@[simp] theorem tickFree_soft (s : State) : (tickFree s).soft = s.soft := rfl
@[simp] theorem tickFree_poison (s : State) : (tickFree s).poison = s.poison := rfl
@[simp] theorem tickFree_l1bad (s : State) : (tickFree s).l1bad = s.l1bad := rfl
@[simp] theorem tickFree_l1soft (s : State) : (tickFree s).l1soft = s.l1soft := rfl
@[simp] theorem tickFree_hostOld (s : State) : (tickFree s).hostOld = s.hostOld := rfl
@[simp] theorem tickFree_pend (s : State) : (tickFree s).pend = s.pend := rfl
@[simp] theorem tickFree_versions (s : State) : (tickFree s).versions = s.versions := rfl
@[simp] theorem tickFree_waiters (s : State) : (tickFree s).waiters = s.waiters := rfl
@[simp] theorem tickFree_dir (s : State) : (tickFree s).dir = s.dir := rfl
@[simp] theorem tickFree_l2 (s : State) : (tickFree s).l2 = s.l2 := rfl
@[simp] theorem tickFree_tlb (s : State) : (tickFree s).tlb = s.tlb := rfl
@[simp] theorem tickFree_msgs (s : State) : (tickFree s).msgs = s.msgs := rfl
@[simp] theorem tickFree_chains (s : State) : (tickFree s).chains = s.chains := rfl
@[simp] theorem tickFree_palMsgs (s : State) : (tickFree s).palMsgs = s.palMsgs := rfl
@[simp] theorem tickFree_parts (s : State) : (tickFree s).parts = s.parts := rfl
@[simp] theorem tickFree_queues (s : State) : (tickFree s).queues = s.queues := rfl
@[simp] theorem tickFree_launches (s : State) : (tickFree s).launches = s.launches := rfl
@[simp] theorem tickFree_tickets (s : State) : (tickFree s).tickets = s.tickets := rfl
@[simp] theorem tickFree_nextTicket (s : State) : (tickFree s).nextTicket = s.nextTicket := rfl
@[simp] theorem tickFree_invs (s : State) : (tickFree s).invs = s.invs := rfl
@[simp] theorem tickFree_irqs (s : State) : (tickFree s).irqs = s.irqs := rfl
@[simp] theorem tickFree_hostData (s : State) : (tickFree s).hostData = s.hostData := rfl
@[simp] theorem tickFree_time (s : State) : (tickFree s).time = s.time := rfl
@[simp] theorem tickFree_failed (s : State) : (tickFree s).failed = s.failed := rfl
@[simp] theorem tickFree_flows (s : State) : (tickFree s).flows = s.flows := rfl
@[simp] theorem tickFree_gwerid (s : State) : (tickFree s).gwerid = s.gwerid := rfl
@[simp] theorem tickFree_optics (s : State) : (tickFree s).optics = s.optics := rfl
@[simp] theorem tickFree_fw (s : State) : (tickFree s).fw = s.fw := rfl
@[simp] theorem tickFree_seq (s : State) : (tickFree s).seq = s.seq := rfl
@[simp] theorem tickFree_agenda (s : State) : (tickFree s).agenda = s.agenda := rfl
@[simp] theorem tickFree_tick (s : State) : (tickFree s).tick = s.tick := rfl
@[simp] theorem noteMeloc_ts (l : Word) (s : State) : (noteMeloc l s).ts = s.ts := rfl
@[simp] theorem noteMeloc_tid (l : Word) (s : State) : (noteMeloc l s).tid = s.tid := rfl
@[simp] theorem noteMeloc_here (l : Word) (s : State) : (noteMeloc l s).here = s.here := rfl
@[simp] theorem noteMeloc_cores (l : Word) (s : State) : (noteMeloc l s).cores = s.cores := rfl
@[simp] theorem noteMeloc_mem (l : Word) (s : State) : (noteMeloc l s).mem = s.mem := rfl
@[simp] theorem noteMeloc_bad (l : Word) (s : State) : (noteMeloc l s).bad = s.bad := rfl
@[simp] theorem noteMeloc_soft (l : Word) (s : State) : (noteMeloc l s).soft = s.soft := rfl
@[simp] theorem noteMeloc_poison (l : Word) (s : State) : (noteMeloc l s).poison = s.poison := rfl
@[simp] theorem noteMeloc_l1bad (l : Word) (s : State) : (noteMeloc l s).l1bad = s.l1bad := rfl
@[simp] theorem noteMeloc_l1soft (l : Word) (s : State) : (noteMeloc l s).l1soft = s.l1soft := rfl
@[simp] theorem noteMeloc_hostOld (l : Word) (s : State) : (noteMeloc l s).hostOld = s.hostOld := rfl
@[simp] theorem noteMeloc_pend (l : Word) (s : State) : (noteMeloc l s).pend = s.pend := rfl
@[simp] theorem noteMeloc_versions (l : Word) (s : State) : (noteMeloc l s).versions = s.versions := rfl
@[simp] theorem noteMeloc_waiters (l : Word) (s : State) : (noteMeloc l s).waiters = s.waiters := rfl
@[simp] theorem noteMeloc_dir (l : Word) (s : State) : (noteMeloc l s).dir = s.dir := rfl
@[simp] theorem noteMeloc_l2 (l : Word) (s : State) : (noteMeloc l s).l2 = s.l2 := rfl
@[simp] theorem noteMeloc_tlb (l : Word) (s : State) : (noteMeloc l s).tlb = s.tlb := rfl
@[simp] theorem noteMeloc_msgs (l : Word) (s : State) : (noteMeloc l s).msgs = s.msgs := rfl
@[simp] theorem noteMeloc_chains (l : Word) (s : State) : (noteMeloc l s).chains = s.chains := rfl
@[simp] theorem noteMeloc_palMsgs (l : Word) (s : State) : (noteMeloc l s).palMsgs = s.palMsgs := rfl
@[simp] theorem noteMeloc_parts (l : Word) (s : State) : (noteMeloc l s).parts = s.parts := rfl
@[simp] theorem noteMeloc_queues (l : Word) (s : State) : (noteMeloc l s).queues = s.queues := rfl
@[simp] theorem noteMeloc_launches (l : Word) (s : State) : (noteMeloc l s).launches = s.launches := rfl
@[simp] theorem noteMeloc_tickets (l : Word) (s : State) : (noteMeloc l s).tickets = s.tickets := rfl
@[simp] theorem noteMeloc_nextTicket (l : Word) (s : State) : (noteMeloc l s).nextTicket = s.nextTicket := rfl
@[simp] theorem noteMeloc_invs (l : Word) (s : State) : (noteMeloc l s).invs = s.invs := rfl
@[simp] theorem noteMeloc_irqs (l : Word) (s : State) : (noteMeloc l s).irqs = s.irqs := rfl
@[simp] theorem noteMeloc_hostData (l : Word) (s : State) : (noteMeloc l s).hostData = s.hostData := rfl
@[simp] theorem noteMeloc_time (l : Word) (s : State) : (noteMeloc l s).time = s.time := rfl
@[simp] theorem noteMeloc_failed (l : Word) (s : State) : (noteMeloc l s).failed = s.failed := rfl
@[simp] theorem noteMeloc_flows (l : Word) (s : State) : (noteMeloc l s).flows = s.flows := rfl
@[simp] theorem noteMeloc_gwerid (l : Word) (s : State) : (noteMeloc l s).gwerid = s.gwerid := rfl
@[simp] theorem noteMeloc_optics (l : Word) (s : State) : (noteMeloc l s).optics = s.optics := rfl
@[simp] theorem noteMeloc_fw (l : Word) (s : State) : (noteMeloc l s).fw = s.fw := rfl
@[simp] theorem noteMeloc_seq (l : Word) (s : State) : (noteMeloc l s).seq = s.seq := rfl
@[simp] theorem noteMeloc_agenda (l : Word) (s : State) : (noteMeloc l s).agenda = s.agenda := rfl
@[simp] theorem noteMeloc_free (l : Word) (s : State) : (noteMeloc l s).free = s.free := rfl
@[simp] theorem noteMeloc_tick (l : Word) (s : State) : (noteMeloc l s).tick = s.tick := rfl

end Sys2Proof.Machine
end

