-- ==== Sys2Proof/Laws/Regs.lean ====
section
/-! SUPPORT. The register files, STATUS bits and the retirement of an instruction: what later proofs cite instead of
unfolding (01 R12, R26; 04 R88; 08 R171; 19 R378). -/
namespace Sys2Proof.Machine

/-! ## Vectors -/

theorem vecGet_vecSet_same {α : Type} {n : Nat} (x : Vector α (n + 1)) (i : Nat) (y : α) : vecGet (vecSet x i y) i = y := by
  simp [vecGet, vecSet]

theorem vecGet_vecSet_ne {α : Type} {n : Nat} (x : Vector α (n + 1)) (i j : Nat) (y : α) (h : i % (n + 1) ≠ j % (n + 1)) :
    vecGet (vecSet x i y) j = vecGet x j := by
  unfold vecGet vecSet
  rw [Vector.getElem_set_ne _ _ h]

/-! ## STATUS bits that an accrual of flags leaves alone -/

@[simp] theorem isF_accrue (fl : FFlags) (s : State) : isF (accrue fl s) = isF s := by
  simp [isF, accrue, modStatus]
@[simp] theorem inUx_accrue (fl : FFlags) (s : State) : inUx (accrue fl s) = inUx s := by
  simp [inUx, accrue, modStatus]
@[simp] theorem inTrap_accrue (fl : FFlags) (s : State) : inTrap (accrue fl s) = inTrap s := by
  simp [inTrap, accrue, modStatus]
@[simp] theorem uxEn_accrue (fl : FFlags) (s : State) : uxEn (accrue fl s) = uxEn s := by
  simp [uxEn, accrue, modStatus]
@[simp] theorem inUx_useDraws (k : Nat) (s : State) : inUx (useDraws k s) = inUx s := rfl
@[simp] theorem inUx_setS (n : Reg) (x : Word) (s : State) : inUx (setS n x s) = inUx s := by simp [inUx]
@[simp] theorem inUx_setV (n : VReg) (x : VWord) (s : State) : inUx (setV n x s) = inUx s := rfl
@[simp] theorem inUx_setQ (n : QReg) (x : Word) (s : State) : inUx (setQ n x s) = inUx s := by simp [inUx]
@[simp] theorem inUx_setRun (r : Run) (s : State) : inUx (setRun r s) = inUx s := rfl
@[simp] theorem inUx_jumpTo (n : Nat) (s : State) : inUx (jumpTo n s) = inUx s := rfl
@[simp] theorem inUx_retire (u : Use) (o s : State) : inUx (retire u o s) = inUx s := rfl

/-! ## Scalar registers -/

theorem getS_zero (s : State) : getS 0 s = 0 := rfl

theorem getS_setS_same (n : Reg) (x : Word) (s : State) : getS n (setS n x s) = if n = 0 then 0 else x := by
  by_cases h : n = 0
  · simp only [getS, if_pos h]
  · unfold getS
    rw [inUx_setS, if_neg h, if_neg h]
    unfold setS
    rw [if_neg h]
    by_cases h2 : inUx s = true ∧ 24 ≤ n.toNat
    · rw [if_pos h2, if_pos h2]; exact vecGet_vecSet_same _ _ _
    · rw [if_neg h2, if_neg h2]; exact vecGet_vecSet_same _ _ _

theorem getS_setS_ne (n m : Reg) (x : Word) (s : State) (h : m ≠ n) : getS m (setS n x s) = getS m s := by
  have hm := m.isLt
  have hn := n.isLt
  have hne : m.toNat ≠ n.toNat := fun e => h (BitVec.eq_of_toNat_eq e)
  unfold getS
  rw [inUx_setS]
  unfold setS
  by_cases hm0 : m = 0
  · rw [if_pos hm0, if_pos hm0]
  rw [if_neg hm0, if_neg hm0]
  by_cases hn0 : n = 0
  · rw [if_pos hn0]
  rw [if_neg hn0]
  by_cases h2 : inUx s = true ∧ 24 ≤ m.toNat
  · rw [if_pos h2, if_pos h2]
    by_cases h3 : inUx s = true ∧ 24 ≤ n.toNat
    · rw [if_pos h3]; exact vecGet_vecSet_ne (n := 7) _ _ _ _ (by omega)
    · rw [if_neg h3]
  · rw [if_neg h2, if_neg h2]
    by_cases h3 : inUx s = true ∧ 24 ≤ n.toNat
    · rw [if_pos h3]
    · rw [if_neg h3]; exact vecGet_vecSet_ne (n := 31) _ _ _ _ (by omega)

/-! ## Retirement -/

/-- The state after an instruction of a length has retired with its effects applied to `t`, issued in `s`. -/
theorem finish_ok (u : Use) (s t : State) (hl : locked u s = false) (hp : t.ts.pc.toNat + u.len < fetchLimit t) :
    finish u s (.ok t) = { retire u s t with ts := { (retire u s t).ts with pc := BitVec.ofNat 20 (t.ts.pc.toNat + u.len) } } := by
  have h : fetchLimit (retire u s t) = fetchLimit t := rfl
  simp [finish, hl, advance, h, hp]

theorem execUse_plain (u : Use) (s : State) (body : State → Eff) (h : plain u s = true) :
    execUse u s body = finish u (countRefused (body s) s) (body s) := by
  simp [execUse, h]

/-- Only a trap can be a refusal that is counted (20 R391). -/
@[simp] theorem countRefused_ok (t s : State) : countRefused (.ok t) s = s := rfl
@[simp] theorem countRefused_jump (t s : State) (x : Nat) : countRefused (.jump t x) s = s := rfl
@[simp] theorem countRefused_hold (t s : State) (r : Run) : countRefused (.hold t r) s = s := rfl

theorem fetchLimit_congr (s t : State) (h1 : t.tid = s.tid) (h2 : t.ts.wsize = s.ts.wsize) (h3 : isF t = isF s) :
    fetchLimit t = fetchLimit s := by
  simp [fetchLimit, isBank, h1, h2, h3]

end Sys2Proof.Machine
end

