-- ==== Sys2Proof/Tests/Slice0.lean ====
section
/-! SUPPORT. Tests: the checks of WellFormed refuse an ill-formed term, words written out from 02 decode to what they stand
for, single steps give what the specification's own examples give, and for each statement a state and operands that meet its
hypotheses, clause by clause. -/
namespace Sys2Proof.Tests

-- One theorem at a time: each elaboration thread reserves a large stack.
set_option Elab.async false

open Sys2Proof Sys2Proof.Machine Sys2Proof.Claims

/-! ## States -/

/-- A partition with cores (0, 0), (0, 1), (1, 0) and (1, 1) and the first gigabyte of HBM. -/
def part : Partition :=
  { rcd := { pid := 1, cores := [0, 1, 64, 65], g := 0, shareM := 64, shareX := 64, shareO := 64, root := 0x10000,
             hbm := [(0, 2 ^ 30)], privwin := 2 ^ 40, plg := 13, qtable := 0x20000, faultq := 0x30000, statblk := 0x60000,
             pool := 0x100000, nframe := 2, vecbase := 0x40, penhost := 0, penq := 0, pwin := [], groups := [], pairs := [] }
    lastLid := 7, fwdrop := 0, halted := false, freeFrames := [0, 1], irqHeld := [], capFell := false }

/-- A launch of one core that runs at core (0, 0). -/
def launch : Launch :=
  { pid := 1, lid := 7, slot := 0, q := 0, pen := false, lgw := 0, lgh := 0, row0 := 0, col0 := 0, prio := 0, policy := 0,
    deadline := 1000, declared := vecGen 4 fun _ => 1000000, charged := vecGen 4 fun _ => 0, grace := vecGen 4 fun _ => none,
    graceFrom := vecGen 4 fun _ => none, unlimited := vecGen 4 fun _ => false, trapped := vecGen 4 fun _ => false,
    overC := none, demoted := false, missed := false, graceUsed := false, degraded := false, ovTrap := false, entry := 0x1000,
    image := 0x200000, compl := 0x300000, notify := false, sbound := 0, imgBytes := 4096, kwords := 0, stages := [], tvec := 0,
    uxvec := 0, seed := 0, lmbase := 0, st := .running, preds := [], tadmit := 0, tstart := 0, outcome := 0, code := 0,
    kill := none, palGen := vecGen 11 fun _ => 0, palReqs := [], ctxs := [], held := [] }

/-- Thread set 0 of core (0, 0) at U, READY at 0x1000, with a trap handler at 0x2000. -/
def user : State :=
  { State.reset with
    ts := { ThreadSet.reset 0 with pc := 0x1000, tvec := 0x2001, partid := 1, launchid := 7, run := .ready }
    core := { Core.reset with owner := some (1, 7) }
    parts := [part], launches := [launch] }

/-- `user` with other thread-set fields. -/
def withTs (f : ThreadSet → ThreadSet) (s : State) : State := { s with ts := f s.ts }

/-- `user` with scalar registers. -/
def withRegs (xs : List (Reg × Word)) (s : State) : State := xs.foldl (fun t p => setS p.1 p.2 t) s

/-- Firmware's thread set: the same at F. -/
def super : State := withTs (fun t => { t with status := 1 }) user

/-- A reserve bank: a context with a window of 64 KiB at 0x80000. -/
def bank : State := { withTs (fun t => { t with wbase := 0x80000, wsize := 0x10000 }) user with tid := 4 }

/-- What a state's next step leaves, where it goes on. -/
def after (o : Host.Outcome State Fault Refusal) : Option State :=
  match o with
  | .next t => some t
  | .fault _ | .refused _ => none

/-- What one instruction leaves in a scalar register. -/
def result (i : Instr) (r : Reg) (s : State) : Option Word := (after (exec i s)).map fun t => getS r t



/-- Page tables of `part`: the first gigabyte of HBM cacheable at 0, versioned at 8 GiB, uncached at 16 GiB, read-only at 24 GiB
and host-backed at 32 GiB; the leaves are in the TLB. -/
def mapped : State :=
  let leaf (flags : Nat) : Nat := 3 + flags * 2 ^ 54
  let rows : List (Nat × Nat) := [(0, leaf 3), (1, leaf 7), (2, leaf 1), (3, leaf 2)]
  let m0 := memWrite 0x10000 (leBytes 8 (0x12000 + 1)) []
  let m1 := rows.foldl (fun m r => memWrite (0x12000 + 8 * r.1) (leBytes 8 r.2) m) m0
  { user with mem := memWrite (0x12000 + 8 * 4) (leBytes 8 (2 ^ 58)) m1
              tlb := ([TlbAt.l1 0, .l2 0].map fun a => rows.map fun r =>
                { place := a, bad := false, pid := 1, vpn := r.1, lvl := 2, entry := w64 r.2, hb := false }).flatten }

/-- A generic address in the core's own local memory. -/
def lmAt (off : Nat) : Word := BitVec.ofNat 64 (0x400 * 2 ^ 53 + off)

/-- What an access of a class comes to, where it reaches memory and `f` holds of the place. -/
def reachesAs (c : Cls → Nat → Cls) (k : Kind) (n : Nat) (ga : Word) (s : State) (f : State → Nat → Cls → Nat → Nat → Bool) : Bool :=
  match reachAs c k n ga .forbid (some 0) s with
  | .mem t key cls e pa => f t key cls e pa
  | .const _ | .event _ _ | .fw _ _ | .fault _ _ _ | .wait _ | .merr _ _ => false

/-- The code and DETAIL of the fault that an access of a class takes. -/
def faultsAs (c : Cls → Nat → Cls) (k : Kind) (n : Nat) (ga : Word) (ver : VerUse) (s : State) : Option (Nat × Nat) :=
  match reachAs c k n ga ver (some 0) s with
  | .fault _ code detail => some (code, detail)
  | .mem _ _ _ _ _ | .const _ | .event _ _ | .fw _ _ | .wait _ | .merr _ _ => none

/-- What an access comes to, where it reaches memory and `f` holds of the place. -/
def reaches (k : Kind) (n : Nat) (ga : Word) (ver : VerUse) (pal : Option Nat) (s : State)
    (f : State → Nat → Cls → Nat → Nat → Bool) : Bool :=
  match reach k n ga ver pal s with
  | .mem t key cls e pa => f t key cls e pa
  | .const _ | .event _ _ | .fw _ _ | .fault _ _ _ | .wait _ | .merr _ _ => false

/-- The code and DETAIL of the fault that an access takes. -/
def faultsWith (k : Kind) (n : Nat) (ga : Word) (ver : VerUse) (pal : Option Nat) (s : State) : Option (Nat × Nat) :=
  match reach k n ga ver pal s with
  | .fault _ code detail => some (code, detail)
  | .mem _ _ _ _ _ | .const _ | .event _ _ | .fw _ _ | .wait _ | .merr _ _ => none

/-- An access waits. -/
def mustWaitAt (k : Kind) (n : Nat) (ga : Word) (ver : VerUse) (pal : Option Nat) (s : State) : Bool :=
  match reach k n ga ver pal s with
  | .wait _ => true
  | .mem _ _ _ _ _ | .const _ | .event _ _ | .fw _ _ | .fault _ _ _ | .merr _ _ => false

/-- `Readable` as a Bool. -/
def readableAt (key n : Nat) (s : State) : Bool := (mineAt key n s).isEmpty && (readError key n s).isNone

/-- `mapped` with base registers, and a predicate q1 under which elements 0 and 7 of eight are active. -/
def masked : State := withTs (fun t => { t with q := vecSet t.q 1 (1 + 2 ^ 56) }) (withRegs [(1, lmAt 0x100), (2, 0x40)] mapped)

/-- A retired store of thread set 0 to the HBM word at 0x40, still to be performed. -/
def posted : State := { mapped with pend := [storeEntry 0x40 0x40 .l1 0x40 [1, 2, 3, 4] 0 mapped], seq := 1 }

/-- `user` whose core's copy of palette entry 4 is INVALID. -/
def stale : State := { user with core := { user.core with pal := vecSet user.core.pal 0 { palRelease 0 0 0 with inv := true } } }

/-- A command of class 0 with nothing to do but its fields. -/
def command (w : BitVec 256) (s : State) : Cmd := cmdOf w false [] 0 s

/-- A launch of one stage on one core. -/
def staging : State := { user with launches := [{ launch with stages := [0] }], core := { user.core with stage := some 0 } }

/-- A context of two 16-bit formats with an accumulator of FP32, and one with SPN 1. -/
def ctx16 (spn : Nat) : Word := w64 (2 ^ 63 + 2 + 2 * 16 + 2 ^ 8 * spn)

/-- A forwarded fault of a thread set, and one that a completion record waits for. -/
def forwarded (p : Party) : State :=
  { mapped with
    launches := [{ launch with st := .completed }]
    tickets := [{ num := 3, pid := 1, lid := 7, va := 0x300000, kind := 1, lvl := 0, party := p, denied := none }] }
/-! ## WellFormed refuses an ill-formed term of each check -/

theorem test_wf_bit_field : Instr.wf (.extz 1 2 32 32) = false := by decide
theorem test_wf_bit_field_last : Instr.wf (.extz 1 2 31 32) = true := by decide
theorem test_wf_version_orders :
    Instr.wf (.ldv .rel 1 2 3 4) = false ∧ Instr.wf (.stv .acq 1 2 3 4) = false ∧ Instr.wf (.recl .acqrel 1 2 3) = false ∧
    Instr.wf (.waita .rel 1 2 3 4) = false ∧ Instr.wf (.wake .acq 1 2 3 4) = false ∧ Instr.wf (.palget .rel 1 2 3) = false := by
  decide
theorem test_wf_orders :
    Instr.wf (.fence .rlx 1) = false ∧ Instr.wf (.palset .rlx 1 2 3) = false ∧ Instr.wf (.palinv .acq 1) = false ∧
    Instr.wf (.barl .acq 1 2) = false := by decide
theorem test_wf_posted_amo :
    Instr.wf (.amoaddAuto .rlx false 0 5 2 3) = false ∧ Instr.wf (.amocasAuto .rlx false 0 5 2 3) = true := by decide
theorem test_wf_vector_types :
    Instr.wf (.vshl .f32 0 1 2 3) = false ∧ Instr.wf (.vcmpUn .i32 0 1 2 3) = false ∧ Instr.wf (.vdot .i32 0 1 2 3) = false ∧
    Instr.wf (.vdotU .f16 0 1 2 3) = false ∧ Instr.wf (.vldx .i16 0 1 2 3) = false ∧ Instr.wf (.vamoAdd .i8 0 1 2 3) = false ∧
    Instr.wf (.vamoAnd .f32 0 1 2 3) = false ∧ Instr.wf (.vpopc .f32 0 1 2) = false := by decide
theorem test_wf_vcvt : Instr.wf (.vcvt false .i8 .i8 0 1 2) = false ∧ Instr.wf (.vcvt true .i8 .f32 0 1 2) = false := by decide
theorem test_wf_places :
    Instr.wf (.doorbell 16 0 0) = false ∧ Instr.wf (.doorbell 1 64 0) = false ∧ Instr.wf (.launchDispatch 0) = true ∧
    Instr.wf (.linkFailure ⟨2176, 0⟩) = false ∧ Instr.wf (.laneRetire 0 72) = false ∧ Instr.wf (.laneRetire 8 0) = false ∧
    Instr.wf (.oportcfgWrite 0 4 0) = false ∧ Instr.wf (.restart 0 7) = false ∧ Instr.wf (.matrixSelfTest 4224) = false := by
  decide

/-! ## Decoding (02 R37 to R62): words written out field by field -/

theorem test_decode_addi : decodeTableWord 32 0xFFF61182 = some (.addi 3 1 0x7FFB) := by decide
theorem test_decode_literal : decodeTableWord 64 0x3FC00000B8806290 = some (.fmul .s .dyn 5 6 (.lit 0x3FC00000)) := by decide
theorem test_decode_branch : decodeTableWord 32 0xFFD01098 = some (.bne 4 0 0xFFD) := by decide
theorem test_decode_load : decodeTableWord 32 0x010423A0 = some (.ld .w 7 2 16) := by decide
theorem test_decode_amo : decodeTableWord 32 0xA10620B0 = some (.amoaddAuto .rel true 4 1 2 3) := by decide
theorem test_decode_jalr : decodeTableWord 32 0x0000901A = some (.jalr 0 9 0) := by decide
/-- 05 R119: `fli.s s4, 2.5` is 0x4020_0213 and `fli.d s4, 2.5` 0x4004_0214. -/
theorem test_decode_fli :
    decodeTableWord 32 0x40200213 = some (.fliS 4 0x40200) ∧ decodeTableWord 32 0x40040214 = some (.fliD 4 0x40040) := by decide
/-- A: fn10 1 (SUB) × 2^22, b 3 × 2^17, a 2 × 2^12, d 1 × 2^7, major 0x01. -/
theorem test_decode_a : decodeTableWord 32 0x004_6_2081 = some (.sub 1 2 (.reg 3)) := by decide
/-- K: fn5 2 (MUL) × 2^27, k10 5 × 2^17, a 2, d 1, major 0x0B. -/
theorem test_decode_k : decodeTableWord 32 (2 * 2 ^ 27 + 5 * 2 ^ 17 + 2 * 2 ^ 12 + 2 ^ 7 + 0x0B) = some (.mulK 1 2 5) := by decide
/-- J: off20 −1, d 1, major 0x19. -/
theorem test_decode_j : decodeTableWord 32 (0xFFFFF * 2 ^ 12 + 2 ^ 7 + 0x19) = some (.jal 1 0xFFFFF) := by decide
/-- V: fn4 1 (VSUB), type 6 (FP32), predicate 2, vb 5, va 4, vd 3, major 0x40. -/
theorem test_decode_v :
    decodeTableWord 32 (1 * 2 ^ 28 + 6 * 2 ^ 25 + 2 * 2 ^ 22 + 5 * 2 ^ 17 + 4 * 2 ^ 12 + 3 * 2 ^ 7 + 0x40) =
      some (.vsub .f32 2 3 4 5) := by decide
/-- Engines: ENQ s4 is fn10 0, a 4, major 0x3B; CPOST to stage 3 has selector 0 in imm15[14:12] and the stage in its low bits. -/
theorem test_decode_engine :
    decodeTableWord 32 (4 * 2 ^ 12 + 0x3B) = some (.enq 4) ∧
    decodeTableWord 32 (3 * 2 ^ 17 + 5 * 2 ^ 12 + 6 * 2 ^ 7 + 0x39) = some (.cpost 6 5 3) := by decide
/-- Streams: SBIND of a vector read slot 2 has W 0, V 1 and the slot in imm15. -/
theorem test_decode_stream :
    decodeTableWord 32 ((8 + 2) * 2 ^ 17 + 5 * 2 ^ 12 + 6 * 2 ^ 7 + 0x60) = some (.sbind false true 2 6 5) := by decide
/-- The matrix unit: MMA m2, s3, s4; MSTC is selector 3 of major 0x69. -/
theorem test_decode_matrix :
    decodeTableWord 32 (4 * 2 ^ 17 + 3 * 2 ^ 12 + 2 * 2 ^ 7 + 0x68) = some (.mma 2 3 4) ∧
    decodeTableWord 32 (3 * 2 ^ 22 + 3 * 2 ^ 12 + 2 * 2 ^ 7 + 0x69) = some (.mstc 2 3) := by decide
/-- System: CTLRD of index 0x107 into s5, and HALT. -/
theorem test_decode_system :
    decodeTableWord 32 (0x107 * 2 ^ 17 + 5 * 2 ^ 7 + 0x72) = some (.ctlrd 0x107 5) ∧
    decodeTableWord 32 (3 * 2 ^ 22 + 0x71) = some .halt := by decide
/-- 02 R40, R41, R46: majors 0x00 and 0x7F, a must-be-zero field, and rounding code 6. -/
theorem test_decode_refuses :
    decodeTableWord 32 0 = none ∧ decodeTableWord 32 0xFFFFFFFF = none ∧
    decodeTableWord 32 (0x16 * 2 ^ 22 + 1 * 2 ^ 17 + 0x01) = none ∧ decodeTableWord 32 (6 * 32 * 2 ^ 22 + 0x10) = none := by
  decide

/-! ## Single steps, with results that the specification prints -/

/-- 05 R111: `ldhi s4, 0x12345` then `addi s4, s4, 0x678` leaves 0x12345678. -/
theorem test_ldhi_addi :
    result (.ldhi 4 0x12345) 4 user = some 0x12345000 ∧
    result (.addi 4 4 0x678) 4 (withRegs [(4, 0x12345000)] user) = some 0x12345678 := by decide
/-- 05 R108: `shl s1, s2, =70` shifts by 6. -/
theorem test_shift_literal : result (.shl 1 2 (.lit 70)) 1 (withRegs [(2, 3)] user) = some 192 := by decide
/-- 05 R109: the boundary cases of division. -/
theorem test_division_corners :
    result (.div 1 2 (.reg 3)) 1 (withRegs [(2, 5)] user) = some 0xFFFFFFFFFFFFFFFF ∧
    result (.rem 1 2 (.reg 3)) 1 (withRegs [(2, 5)] user) = some 5 ∧
    result (.div 1 2 (.lit 0xFFFFFFFF)) 1 (withRegs [(2, 0x8000000000000000)] user) = some 0x8000000000000000 ∧
    result (.rem 1 2 (.lit 0xFFFFFFFF)) 1 (withRegs [(2, 0x8000000000000000)] user) = some 0 := by decide
/-- 05 R116: FCLASS of −0, 2.5, −4.0 and −∞. -/
theorem test_fclass :
    result (.fclass .s 1 2) 1 (withRegs [(2, 0x80000000)] user) = some 0x003 ∧
    result (.fclass .s 1 2) 1 (withRegs [(2, 0x40200000)] user) = some 0x008 ∧
    result (.fclass .s 1 2) 1 (withRegs [(2, 0xC0800000)] user) = some 0x109 ∧
    result (.fclass .s 1 2) 1 (withRegs [(2, 0xFF800000)] user) = some 0x011 := by decide
/-- 05 R114: 1.0 ÷ 0 is +∞ with DZ; 1.0 ÷ 3.0 sets NX. -/
theorem test_fdiv_flags :
    ((after (exec (.fdiv .s .rne 1 2 (.reg 3)) (withRegs [(2, 0x3F800000)] user))).map fun t =>
      (getS 1 t, t.ts.status)) = some (0x7F800000, 0x4000) ∧
    ((after (exec (.fdiv .s .rne 1 2 (.reg 3)) (withRegs [(2, 0x3F800000), (3, 0x40400000)] user))).map fun t =>
      (getS 1 t, t.ts.status)) = some (0x3EAAAAAB, 0x0800) := by decide
/-- 01 R32, 05 R124: TRAP 9 saves the pc and enters the handler. -/
theorem test_trap :
    ((after (exec (.trap 9) user)).map fun t => (t.ts.epc, t.ts.ecause, t.ts.eval, t.ts.status, t.ts.pc)) =
      some (0x1000, 5, 9, 2, 0x2000) := by decide
/-- 05 R125: ERET outside a handler is ILLEGAL, inside one it goes back. -/
theorem test_eret :
    ((after (exec .eret (withTs (fun t => { t with status := 0x12, epc := 0x1236 }) user))).map fun t =>
      (t.ts.pc, t.ts.status)) = some (0x1234, 0x14) := by decide
/-- A store into the core's own local memory (aperture 0x400) lands at once, and a load reads it back (13 R281, R283). -/
theorem test_store_load :
    ((after (exec (.st .w 2 1 8) (withRegs [(1, 0x8000000000000000), (2, 0x89ABCDEF)] user))).bind fun t =>
      result (.ld .w 3 1 8) 3 { t with ts := { t.ts with pc := 0x1000 } }) = some 0xFFFFFFFF89ABCDEF := by decide
/-- step fetches at the pc: `addi s3, s1, -5` from the state that holds it. -/
theorem test_step_fetches :
    ((after (step ((withRegs [(1, 12)] user).withFetchWord 32 0xFFF61182))).map fun t => (getS 3 t, t.ts.pc)) =
      some (7, 0x1004) := by decide
/-- The word at reset's pc runs as the first instruction after reset. -/
theorem test_reset_runs :
    ((after (step (State.reset.withFetchWord 32 0xFFF61182))).map fun t => (getS 3 t, t.ts.pc)) = some (-5, 4) := by decide

/-! ## The hypotheses of the statements are met -/

/-- Plain operands and a literal, at the last pc from which the instruction still has a successor at U. -/
theorem test_hyps_integer :
    Free (useABD 3 1 (.reg 2)) user ∧ Free (useABD 0 1 (.lit 5)) user ∧ Free (useAD 3 1) user ∧ Free (useD 3) user ∧
    Free (withMore (useABD 3 1 (.lit 5)) [.s 4]) user ∧ Free (withMore (useAD 3 1) [.s 3]) user ∧ Free (useA 3) user ∧
    Free (useAD 3 1) (withTs (fun t => { t with pc := 0xFBFF8 }) user) ∧ Free (useAD 3 1) bank ∧ Free (useAD 3 1) super := by
  unfold Free; decide

theorem test_hyps_bit_fields :
    (63#6).toNat + 1 + (0#6).toNat ≤ 64 ∧ (0#6).toNat + 1 + (63#6).toNat ≤ 64 := by decide

/-- FloatValueRules: a value of each format that is exact, and operands with NaNs. -/
theorem test_hyps_float_values :
    fdecode .f32 0x3F800000 = .fin false (2 ^ 23) (-23) ∧ fdecode .f64 0 = .fin false 0 (-1074) ∧
    ((FVal.nan true).isNaN || (FVal.fin false 1 0).isNaN) = true ∧ ((FVal.fin false 1 0).isNaN || (FVal.nan false).isNaN) = true := by
  decide

/-- A constant that can be read, and one that stands in an uncorrectable word of a penumbra context's bank. -/
theorem test_hyps_constants :
    readError (constEntryKey 3 user) 4 user = none ∧ Free (withMore (useAD 3 1) [.s 3]) bank ∧
    (let s : State := { bank with bad := [lmKey 0 0x8F008 / 8] }
     readError (constEntryKey 3 s) 4 s = some (0x80, 0x8F00C)) := by unfold Free; decide

/-- Branches and jumps: taken and not taken, to a legal target and to one that is not, at U and at F. -/
theorem test_hyps_transfers :
    plain (useAB 1 2) user = true ∧ plain (useD 1) user = true ∧ plain (useAD 1 2) user = true ∧ Legal 0xFBFFC user ∧ ¬ Legal 0xFC000 user ∧
    ¬ Legal 0x1002 user ∧ Legal 0xFC000 super ∧ ¬ Legal 0x100000 super ∧
    (Instr.beq 1 2 0, true) ∈ branchForms 1 2 0 5 5 ∧ (Instr.bne 1 2 0, false) ∈ branchForms 1 2 0 5 5 := by
  unfold Legal; decide

/-- FarJump: a RESIDENT, a LANDING and an EMPTY page. -/
theorem test_hyps_far_jump :
    let s : State := { user with core := { user.core with tags := [(3, (.landing, 255)), (4, (.empty, 0))] } }
    (lookupD (PageSt.resident, 0) s.core.tags 2).1 = .resident ∧ lookupD (PageSt.resident, 0) s.core.tags 3 = (.landing, 255) ∧
    (lookupD (PageSt.resident, 0) s.core.tags 4).1 = .empty ∧ s.tid ≠ 4 ∧ s.tid ≠ 5 := by decide

/-- Returns: inside a trap handler, inside a user-level interrupt handler, in both and in neither, with legal and illegal targets. -/
theorem test_hyps_returns :
    let t : State := withTs (fun t => { t with status := 2, epc := 0x1237 }) user
    let x : State := withTs (fun t => { t with status := 8, uxepc := 0x100000 }) user
    t.ts.status.getLsbD 1 = true ∧ Legal (t.ts.epc.toNat / 4 * 4) t ∧ user.ts.status.getLsbD 1 = false ∧
    x.ts.status.getLsbD 3 = true ∧ x.ts.status.getLsbD 1 = false ∧ ¬ Legal (x.ts.uxepc.toNat / 4 * 4) x ∧
    Legal (0x1000 / 4 * 4) x ∧ user.ts.status.getLsbD 3 = false := by unfold Legal; decide

/-- A trap that can be taken, one in a handler and one with no handler; the launch of the thread set is there. -/
theorem test_hyps_exceptions :
    CanTrap user ∧ ¬ CanTrap (withTs (fun t => { t with status := 2 }) user) ∧ ¬ CanTrap (withTs (fun t => { t with tvec := 0 }) user) ∧
    launchOf (myPid user) (myLid user) user = some launch := by unfold CanTrap; decide

/-- A fault queue that is empty, one with room for one record more whose counters have wrapped, and one that is full. -/
theorem test_hyps_fault_record :
    partOf 1 user = some part ∧ Memory.wf user.mem = true ∧
    (∀ w ∈ [(0, 0), (4094, 2 ^ 32 - 1)],
      let m := memWrite part.rcd.faultq (leBytes 4 w.1) (memWrite (part.rcd.faultq + 4) (leBytes 4 w.2) [])
      (memValue m 4 part.rcd.faultq + 2 ^ 32 - memValue m 4 (part.rcd.faultq + 4)) % 2 ^ 32 < 4096) ∧
    (let m := memWrite part.rcd.faultq (leBytes 4 4095) (memWrite (part.rcd.faultq + 4) (leBytes 4 (2 ^ 32 - 1)) [])
     (memValue m 4 part.rcd.faultq + 2 ^ 32 - memValue m 4 (part.rcd.faultq + 4)) % 2 ^ 32 = 4096) := by
  decide

/-- 19 R375: the record of a full fault queue is counted in LOST. -/
theorem test_fault_record_lost :
    let m := memWrite part.rcd.faultq (leBytes 4 4096) []
    let r : FaultRec := { kind := 0, code := 1, detail := 0, lid := 7, coord := 0, tsid := 0, pc := 0, addr := 0 }
    let t := writeFault 1 r { user with mem := m }
    (memValue t.mem 4 part.rcd.faultq, memValue t.mem 4 (part.rcd.faultq + 8)) = (4096, 1) := by decide

/-- The last word that lies inside the fetch range at U, and the first that does not. -/
theorem test_hyps_illegal_word :
    (0xFBFFC : PcWord).toNat + 4 ≤ fetchLimit user ∧ fetchLimit user < (0xFC000 : PcWord).toNat + 4 ∧
    locked (useAD 1 2) user = false ∧ fetchLimit user ≤ (0xFBFFC : PcWord).toNat + (useAD 1 2).len := by decide

/-- Control registers: values that are taken and values that are not, at U and F, with the matrix unit idle and busy. -/
theorem test_hyps_control_registers :
    (0x000, (0 : Word)) ∈ controlValues user ∧
    ∀ i ∈ [0x00D, 0x01F, 0x024, 0x0FF, 0x10B, 0x1FF, 0x300, 0xFFF], unassigned i := by unfold unassigned; decide

theorem test_hyps_status :
    StatusOk 0xFD04 ∧ ¬ StatusOk 0x600 ∧ ¬ StatusOk 0x10000 := by unfold StatusOk; decide

theorem test_hyps_handlers :
    VectorOk 0xFBFFD user ∧ ¬ VectorOk 0xFC001 user ∧ VectorOk 0xFC001 super ∧ ¬ VectorOk 0x100001 super ∧
    user.core.matq = [] ∧ super.ts.status.getLsbD 0 = true ∧ user.ts.status.getLsbD 0 = false ∧
    (0x1FFFF#64).extractLsb' 17 47 = 0 ∧ (0x1F#64).extractLsb' 5 59 = 0 := by
  unfold VectorOk; decide

/-- The lending mark: an owner's write that is taken, one that is not, and a reserve bank's. -/
theorem test_hyps_high_water_mark :
    bank.tid = 4 ∧ user.tid ≠ 4 ∧ user.tid ≠ 5 ∧ (0xFC000 : Nat) % 4096 = 0 ∧ (0xFB800 : Nat) % 4096 ≠ 0 ∧ 0xFC000 < 0xFD000 := by decide

theorem test_hyps_system :
    user.ts.pc.toNat + 4 < fetchLimit user ∧ user.core.entropyBad = false ∧
    ({ user.core with entropyBad := true } : Core).entropyBad = true := by decide


/-! ## Memory -/

theorem test_hyps_aperture :
    0 < 8 ∧ 0xFBFF8 < 2 ^ 20 ∧ user.tid < 4 ∧ user.core.lent = [] ∧ user.ts.palHold = [] ∧ user.pend = [] ∧ 2 ^ 53 % 8 = 0 ∧
    0xFBFF8 % 8 = 0 ∧ 0xFBFF8 + 8 ≤ 0xFC000 ∧ 4 % 8 ≠ 0 ∧ 0xFC000 < 0xFC000 + 8 ∧ user.ts.status.getLsbD 0 = false := by decide

/-- A load from the core's own memory and from HBM, from the constant bank, one that faults, and one that waits for the host. -/
theorem test_hyps_loads :
    reaches .load 4 (lmAt 0x100) .either none user (fun _ key _ _ _ => readableAt key 4 user) = true ∧
    reaches .load 4 0x40 .either none mapped (fun _ key c _ _ => readableAt key 4 mapped && c == .l1) = true ∧
    (∃ key, reach .load 4 (BitVec.ofNat 64 (0x403 * 2 ^ 53 + 4092)) .either none user = .const key) ∧
    faultsWith .load 4 (lmAt 0x102) .either none user = some (0x20, 0) ∧
    mustWaitAt .load 4 (BitVec.ofNat 64 (4 * 2 ^ 33)) .either none mapped = true :=
  ⟨by decide, by decide, ⟨_, rfl⟩, by decide, by decide⟩

/-- Loads that meet an uncorrectable word, a line word of the event unit and of another launch's core, a firmware register, and one in a
partition whose root table entry is uncorrectable. -/
theorem test_hyps_loads' :
    user.gwerid = .up ∧
    (let s : State := { user with bad := [lmKey 0 0x100 / 8] }
     reaches .load 8 (lmAt 0x100) .either none s (fun t key _ _ _ => (mineAt key 8 t).isEmpty && readError key 8 t == some (0x80, 0x100))) = true ∧
    (∃ l, reach .load 8 (BitVec.ofNat 64 (0x404 * 2 ^ 53)) .either none user = .event l false ∧ lineMine l user = true) ∧
    (∃ l, reach .load 8 (BitVec.ofNat 64 (0x404 * 2 ^ 53 + 0x140)) .either none user = .event l true ∧ lineMine l user = false) ∧
    reach .load 8 (BitVec.ofNat 64 (0x405 * 2 ^ 53)) .either none super = .fw 0 0 ∧
    (∃ code loc, reach .load 8 0x40 .either none { user with poison := [0x400], mem := mapped.mem } = .merr code loc) :=
  ⟨rfl, by decide, ⟨_, rfl, by decide⟩, ⟨_, rfl, by decide⟩, rfl, ⟨0x83, 0x10000, rfl⟩⟩

theorem test_hyps_load_forwarded :
    reaches .load 4 0x40 .either none posted (fun t key _ _ _ => match mineAt key 4 posted with
      | [p] => (readError key 4 posted).isNone && p.op == .store [1, 2, 3, 4] && p.key == key && p.slot.isNone &&
          !p.windowHeld t
      | _ => false) = true := by decide

theorem test_forwarded_load_reads_the_store : result (.ld .w 3 1 0x40) 3 posted = some 0x04030201 := by decide

/-- A store that lands at once, one that retires first, one that faults, and one that waits. -/
theorem test_hyps_stores :
    Memory.wf mapped.mem = true ∧
    reaches .store 8 (lmAt 0x8000) .forbid none user (fun t key _ _ _ => landsNow key 8 t) = true ∧
    reaches .store 8 0x40 .forbid none mapped (fun t key _ _ _ => !landsNow key 8 t) = true ∧
    faultsWith .store 8 (BitVec.ofNat 64 (3 * 2 ^ 33)) .forbid none mapped = some (0x23, 1) ∧
    mustWaitAt .store 8 (BitVec.ofNat 64 (4 * 2 ^ 33)) .forbid none mapped = true := by decide

/-- Stores to a configuration word of the event unit that are taken and that are not, and to a firmware register. -/
theorem test_hyps_stores' :
    (∃ l, reach .store 8 (BitVec.ofNat 64 (0x404 * 2 ^ 53 + 0x100)) .forbid none user = .event l true ∧ lineMine l user = true) ∧
    evCfgOk 0x1000F user = true ∧ evCfgOk 0x1C000000000000 user = false ∧
    reach .store 8 (BitVec.ofNat 64 (0x405 * 2 ^ 53 + 8)) .forbid none super = .fw 0 8 ∧
    Free (withMore (useA 1) [.s 2]) user ∧ Free (withMore (useA 1) [.s 2]) super ∧ Free (useAD 3 1) super :=
  ⟨⟨_, rfl, by decide⟩, by decide, by decide, rfl, by unfold Free; decide, by unfold Free; decide, by unfold Free; decide⟩

/-- The store of `posted` may be performed, and one of a line that a window covers may not. -/
theorem test_hyps_performs :
    (∃ p, nth? posted.pend 0 = some p ∧ p.op = .store [1, 2, 3, 4] ∧ performable (posted.pend.take 0) p posted = true ∧
      storeLost p.key 4 posted = false) ∧
    (∃ p, p.op = .store [1, 2, 3, 4] ∧ performable [{ storeEntry 0x40 0x40 .l1 0x40 [1] 0 mapped with id := 9 }] p posted = false) :=
  ⟨⟨_, rfl, rfl, by decide, by decide⟩, ⟨storeEntry 0x40 0x40 .l1 0x40 [1, 2, 3, 4] 0 mapped, rfl, by decide⟩⟩

theorem test_store_performed :
    ((after (exec (.storePerform 0) posted)).map fun t => (memRead t.mem 4 0x40, t.pend.length)) = some ([1, 2, 3, 4], 0) := by decide

/-- An atomic at the core's own memory and at HBM, one that faults, one on the constant bank and one on an event line. -/
theorem test_hyps_atomics :
    reaches .atomic 8 (lmAt 0x100) .forbid (some 4) user (fun t key _ _ _ =>
      readableAt key 8 user && !windowHeld user.here key 8 t && releaseReady .rel 4 t) = true ∧
    reaches .atomic 8 0x40 .forbid (some 0) mapped (fun _ _ _ _ _ => true) = true ∧
    faultsWith .atomic 8 (lmAt 4) .forbid (some 0) user = some (0x20, 2) ∧
    faultsWith .atomic 8 (BitVec.ofNat 64 (0x403 * 2 ^ 53)) .forbid (some 0) user = some (0x21, 14) ∧
    amoWait (lmKey 0 0x100) .lm 0 user = false ∧ amoWait 0x40 .hs 0x40 mapped = false ∧
    plain (useAmo false true 1 2 3) user = true ∧ plain (useAmo true false 1 2 3) user = true := by decide

/-- A versioned word that STVs of partition 1 have reached at virtual address `va`. -/
def verWord (pa va n : Nat) (live : List (Nat × Word)) : VerWord := { pa := pa, pid := 1, vas := [va], n := n, live := live }

/-- A retired atomic and a retired RECL that may be performed. -/
theorem test_hyps_atomic_performed :
    (let q : Pend := { storeEntry 0x40 0x40 .hs 0x40 [] 0 mapped with op := .amo .add 8 5 0 true }
     performable [] q { mapped with pend := [q] } = true ∧ readError q.key 8 mapped = none) ∧
    (let q : Pend := { storeEntry 0x40 0x40 .hs 0x40 [] 0 mapped with op := .recl 1 }
     performable [] q { mapped with pend := [q] } = true ∧
     ({ mapped with versions := [verWord 0x40 0x40 2 [(1, 5), (2, 6)]] } : State).versions.find? (fun w => w.pa == q.pa)
       = some (verWord 0x40 0x40 2 [(1, 5), (2, 6)])) := by decide

theorem test_atomic_performed :
    (let q : Pend := { storeEntry 0x40 0x40 .hs 0x40 [] 0 mapped with op := .amo .add 8 5 0 true }
     (after (exec (.amoPerform 0) { mapped with pend := [q], mem := memWrite 0x40 (leBytes 8 7) mapped.mem })).map fun t =>
       (memValue t.mem 8 0x40, t.pend.length)) = some (12, 0) := by decide

/-- Vector loads and stores: every active element is reached in the state itself, and its store lands; one that faults. -/
theorem test_hyps_vector_memory :
    activeList .f64 1 masked = [0, 7] ∧
    reach .load 8 (strideAt 1 2 masked 0) .either none masked = .mem masked (lmKey 0 0x100) .lm 0 0 ∧
    reach .load 8 (strideAt 1 2 masked 7) .either none masked = .mem masked (lmKey 0 (0x100 + 7 * 0x40)) .lm 0 0 ∧
    reach .store 8 (strideAt 1 2 masked 7) .forbid none masked = .mem masked (lmKey 0 (0x100 + 7 * 0x40)) .lm 0 0 ∧
    readableAt (lmKey 0 0x100) 8 masked = true ∧ landsNow (lmKey 0 (0x100 + 7 * 0x40)) 8 masked = true ∧
    landsNow 0x40 8 masked = false ∧ reaches .store 8 (strideAt 2 0 masked 7) .forbid none masked (fun t k _ _ _ => t.tlb == masked.tlb && k == 0x40) = true ∧
    faultsWith .load 8 (lmAt 1) .either none masked = some (0x20, 0) :=
  ⟨by decide, rfl, rfl, rfl, by decide, by decide, by decide, by decide, by decide⟩

theorem test_hyps_vamo :
    (Free (useVamo 1 2 3) masked ∧ Free (useVld 1 2 3) masked ∧ Free (useVst 1 2 3) masked) ∧
    reaches .atomic 8 (indexAt 1 2 masked 0) .forbid none masked (fun t k _ _ _ => t.tlb == masked.tlb && k == lmKey 0 0x100) = true ∧
    vWidth .i32 = 4 ∧ vWidth .f64 = 8 ∧ faultsWith .atomic 8 (lmAt 4) .forbid none masked = some (0x20, 2) :=
  ⟨by unfold Free; decide, by decide +kernel, rfl, rfl, by decide⟩

theorem test_vector_load :
    ((after (exec (.vld .i32 0 3 1 0) { withRegs [(1, 0x40)] mapped with mem := memWrite 0x44 (leBytes 4 77) mapped.mem })).map
      fun t => (elem 4 0 (getV 3 t), elem 4 1 (getV 3 t))) = some (0, 77) := by decide +kernel

/-- Versioned words: a live version, one that is to come and one that is lost; fewer than four live versions, and four. -/
theorem test_hyps_versions :
    let s : State := { mapped with versions := [verWord 0 (2 ^ 33) 2 [(1, 5), (2, 6)]] }
    reaches .load 8 (BitVec.ofNat 64 (2 ^ 33)) .need (some 0) s (fun t key cls _ pa => cls == .l1 && !mustWait key 8 t &&
      (readError key 8 t).isNone && (verOf key pa s).live == [(1, 5), (2, 6)] && (verOf key pa s).n == 2) = true ∧
    reaches .atomic 8 (BitVec.ofNat 64 (2 ^ 33)) .need (some 0) s (fun t key cls _ pa => cls == .l1 && !mustWait key 8 t &&
      releaseReady .rel 0 t && !homeWait .hs pa t && sliceCan pa (correct key 8 t) && decide ((verOf key pa s).live.length < 4)) = true ∧
    faultsWith .load 8 0x40 .need (some 0) s = some (0x23, 8) ∧
    4 ≤ (verWord 0 (2 ^ 33) 4 [(1, 5), (2, 6), (3, 7), (4, 8)]).live.length := by decide

theorem test_hyps_later : later 2 3 ∧ ¬ later 2 0 ∧ ¬ later 2 2 ∧ later 0xFFFFFF 0 := by unfold later; decide

theorem test_stv_ldv :
    ((after (exec (.stv .rlx 0 3 1 2) (withRegs [(1, BitVec.ofNat 64 (2 ^ 33)), (2, 99)] mapped))).map fun t =>
      (getS 3 t, result (.ldv .rlx 0 4 1 3) 4 { t with ts := { t.ts with pc := 0x1000 } })) = some (1, some 99) := by decide

/-- Cache hints: a cacheable page, a local memory, and an address that faults. -/
theorem test_hyps_cache_hints :
    reaches .load 1 0x40 .either none mapped (fun _ _ c _ _ => c == .l1 && (partOf (myPid mapped) mapped).isSome) = true ∧
    reaches .load 1 0x40 .forbid none mapped (fun _ _ c _ _ => c == .l1) = true ∧ (lmAt 0).toNat / 2 ^ 53 = 0x400 ∧
    (0x40#64).toNat / 2 ^ 53 ≠ 0x400 ∧ (0x40#64).toNat / 2 ^ 53 ≠ 0x401 ∧
    faultsWith .load 1 (BitVec.ofNat 64 (5 * 2 ^ 33)) .forbid none mapped = some (0x22, 8) := by decide

/-- An overlay directory with one segment of 4 KiB at virtual address 0x400000, for local-memory offset 0x5000. -/
def overlaid : State :=
  { mapped with mem := memWrite (overlayDir launch) (leBytes 8 0x400000 ++ leBytes 4 0x5000 ++ leBytes 4 4096) mapped.mem }

theorem test_hyps_overlays :
    bank.tid = 4 ∧ myLaunch overlaid = some launch ∧
    (match loadAt 8 (w64 (overlayDir launch)) overlaid with
     | .val va t => va == 0x400000 && (match loadAt 8 (w64 (overlayDir launch + 8)) t with
        | .val y u => dirEntryOk va (y % 2 ^ 32) (y / 2 ^ 32 % 2 ^ 32) && !dirEntryOk va 0x5001 4096 &&
            overlayPages 0x5000 4096 == [5] && residency 5 u == (.resident, 0) &&
            (match codePages (pageStarts va 4096) u with | .ok _ _ _ _ => true | _ => false)
        | _ => false)
     | _ => false) = true := by decide

theorem test_cfetch :
    ((after (exec (.cfetch 0 1) overlaid)).map fun t => (residency 5 t, t.core.landing.length)) = some ((.landing, 1), 1) := by decide

/-- A segment whose copy ends, in a core that its launch still owns. -/
theorem test_hyps_landing :
    let l : Landing := { seg := 1, va := 0x400000, lmoff := 0x5000, size := 16, pid := 1, lid := 7 }
    let s : State := { mapped with core := { mapped.core with landing := [l] } }
    (getCore 0 s).landing.find? (fun l => l.seg == 1) = some l ∧ (getCore 0 s).owner = some (l.pid, l.lid) ∧
    clocked s 0 = true ∧
    (match readCode l.pid (l.size / 64 + 2) l.va l.size [] s with | .bytes x t => x.length == 16 && Memory.wf t.mem | _ => false) = true := by
  decide


/-! ## Vectors -/

/-- The hypotheses of the vector statements, at U in a launch's thread set and in a reserve bank. -/
theorem test_hyps_vectors :
    ∀ s ∈ [user, bank],
      Free (useVVV 3 1 2) s ∧ Free (useVV 3 1) s ∧ Free (withMore (useVVV 3 1 2) [.v 3]) s ∧ Free { useVVV 0 1 2 with w := none } s ∧
      Free useNone s ∧ Free (useVVS 3 1 5) s ∧ Free { len := 4, a := some (.s 5), b := none, more := [], w := some (.v 3) } s ∧
      Free { len := 4, a := some (.v 1), b := some (.s 5), more := [], w := some (.s 6) } s := by
  unfold Free; decide

theorem test_hyps_vectors' :
    ∀ s ∈ [user, bank],
      Free { len := 4, a := some (.s 6), b := some (.s 5), more := [.v 3], w := some (.v 3) } s ∧ Free (useSV 6 1) s ∧
      ∀ p ∈ constantLanes .i32 1 3 1 5 7 s, Free p.2.2.1 s := by
  unfold Free; decide

/-- The types: those that are formats and those that are not. -/
theorem test_hyps_vector_types :
    (∀ t ∈ [VTy.i8, .i16, .i32, .i64], vFmt t = none) ∧ vFmt .f16 = some .f16 ∧ vFmt .bf16 = some .bf16 ∧ vFmt .f32 = some .f32 ∧
    vFmt .f64 = some .f64 := by decide

/-- `masked` with two vectors: bytes 0 to 63, and the same from 64 down. -/
def lanes : State :=
  setV 1 (pack 1 ((List.range 64).map fun i => i)) (setV 2 (pack 1 ((List.range 64).map fun i => 64 - i)) masked)

/-- 01 R14: with doublewords only elements 0 and 7 are active, and the others keep their value. -/
theorem test_vector_add :
    ((after (exec (.vadd .i64 1 2 1 2) lanes)).map fun t => (elem 8 0 (getV 2 t), elem 8 1 (getV 2 t) == elem 8 1 (getV 2 lanes))) =
      some (0x4040404040404040, true) := by decide +kernel

/-- 06 R141: bytes 0 to 31 of the first are below those of the second. -/
theorem test_vector_compare :
    ((after (exec (.vcmpLt .i8 0 4 1 2) lanes)).map fun t => getQ 4 t) = some 0xFFFFFFFF := by decide +kernel

/-- 06 R146: the sum of the bytes 0 to 63 is 2016, which is −32 in a byte; 06 R147: an exclusive scan. -/
theorem test_vector_reduction :
    result (.vredAdd .i8 0 9 1) 9 lanes = some (0 - 32) ∧
    ((after (exec (.vscanAddx .i8 0 4 1) lanes)).map fun t => (elem 1 0 (getV 4 t), elem 1 4 (getV 4 t))) = some (0, 6) := by
  decide +kernel

/-- 06 R148: the products of bytes 0 to 3 with 64 to 61: 0 × 64 + 1 × 63 + 2 × 62 + 3 × 61 = 370. -/
theorem test_vector_dot :
    ((after (exec (.vdot .i8 0 5 1 2) lanes)).map fun t => elem 4 0 (getV 5 t)) = some 370 := by decide +kernel

/-- 06 R145: slides, and an insert whose index wraps. -/
theorem test_vector_slide :
    (let s := withRegs [(5, 3), (6, 7)] lanes
     ((after (exec (.vslideUp .i8 0 4 1 5) s)).map fun t => (elem 1 2 (getV 4 t), elem 1 3 (getV 4 t), elem 1 63 (getV 4 t))) =
       some (0, 0, 60) ∧
     ((after (exec (.vslideDn .i8 0 4 1 5) s)).map fun t => (elem 1 0 (getV 4 t), elem 1 60 (getV 4 t), elem 1 61 (getV 4 t))) =
       some (3, 63, 0)) := by decide +kernel

/-- 06 R144: four FP32 elements of a conversion from FP64 are not beyond both types; the destination's elements 8 to 15 become 0. -/
theorem test_vector_convert :
    ((after (exec (.vcvt false .f64 .f32 0 2 3) (setV 3 (pack 8 (List.replicate 8 0x3FF0000000000000)) lanes))).map fun t =>
      (elem 4 0 (getV 2 t), elem 4 7 (getV 2 t), elem 4 8 (getV 2 t))) = some (0x3F800000, 0x3F800000, 0) := by decide +kernel

/-- 06 R149: the carry-less product of 3 and 3 is 5. -/
theorem test_vector_clmul :
    (let s := setV 1 (pack 8 (List.replicate 8 3)) lanes
     (after (exec (.vclmul 0 0 4 1 1) s)).map fun t => (elem 8 0 (getV 4 t), elem 8 1 (getV 4 t))) = some (5, 0) := by decide +kernel

/-! ## Ordering, waiting and events -/

/-- A retired atomic of thread set 0 on the HBM word at 0x40, still to be performed. -/
def postedAmo : State :=
  { mapped with pend := [{ storeEntry 0x40 0x40 .hs 0x40 [] 0 mapped with op := .amo .add 8 5 0 true }], seq := 1 }

/-- FENCE: nothing earlier, an earlier store and an earlier atomic still to be performed, and an INVALID entry. -/
theorem test_hyps_fences :
    Free useNone user ∧ palOk 0 user = true ∧ (∀ q ∈ user.pend, q.core = user.here → q.tid = user.tid → False) ∧ palOk 3 posted = true ∧
    (∃ q ∈ posted.pend, q.core = posted.here ∧ q.tid = posted.tid ∧ q.releases (covers 3 posted) = true) ∧
    (∃ q ∈ postedAmo.pend, q.core = postedAmo.here ∧ q.tid = postedAmo.tid ∧ clsCovered (covers 3 postedAmo) q.cls = true ∧
      q.op = .amo .add 8 5 0 true) ∧ Free useNone posted ∧ Free useNone postedAmo ∧
    palOk 4 stale = false ∧ Free useNone stale :=
  ⟨by unfold Free; decide, rfl, by decide, rfl,
    ⟨storeEntry 0x40 0x40 .l1 0x40 [1, 2, 3, 4] 0 mapped, by decide, by decide⟩,
    ⟨{ storeEntry 0x40 0x40 .hs 0x40 [] 0 mapped with op := .amo .add 8 5 0 true }, by decide, by decide⟩,
    by unfold Free; decide, by unfold Free; decide, rfl, by unfold Free; decide⟩

/-- An accepted matrix operation of the thread set that has its operands still to read. -/
theorem test_hyps_fence_matrix :
    let m : MatOp := opOf .mma 1 0 0 0 0 [] user
    m ∈ ({ user with core := { user.core with matq := [m] } } : State).core.matq ∧ m.kind ≠ .zero ∧ m.tid = user.tid ∧
      m.pid = myPid user ∧ m.lid = myLid user := by decide

/-- WAITA and WAKE: the word of `mapped` at 0x40 is 0; a waiter that is linked and one that was released; a full home slice. -/
theorem test_hyps_waita :
    let s : State := withRegs [(1, 0x40), (2, 0), (3, 5)] mapped
    let w : Waiter := { pid := 1, pa := 0x40, core := 0, tid := 0, got := none }
    Free (useABD 3 1 (.reg 2)) s ∧
    reachesAs homeCls .load 8 (getS 1 s) s (fun _ key _ _ pa => (mineAt key 8 s).isEmpty && (readError key 8 s).isNone &&
      memValue s.mem 8 key == 0 && (myWaiter pa s).isNone && decide (waitersAt pa s < 512) &&
      (myWaiter pa { s with waiters := [w] }) == some w &&
      (myWaiter pa { s with waiters := [{ w with got := some 9 }] }) == some { w with got := some 9 }) = true ∧
    reachesAs homeCls .atomic 8 (getS 1 s) s (fun _ key _ _ pa => (mineAt key 8 s).isEmpty &&
      releaseReady .rel 0 s && linkedBefore pa 3 { s with waiters := [w, { w with pid := 2 }, { w with core := 64 }] } == 2) = true ∧
    faultsAs homeCls .load 8 (BitVec.ofNat 64 (2 ^ 33)) .forbid mapped = some (0x23, 8) ∧
    faultsAs homeCls .atomic 8 (BitVec.ofNat 64 (3 * 2 ^ 33)) .forbid mapped = some (0x23, 2) :=
  ⟨by unfold Free; decide, by decide, by decide, by decide, by decide⟩

/-- Addresses without a place to wait: the constant bank, beyond it, the event unit and the firmware registers. -/
theorem test_hyps_waita_apertures :
    mapped.gwerid = .up ∧
    (∀ g ∈ [(0x400, 0), (0x403, 0), (0x403, 4096), (0x404, 0), (0x405, 0)],
      (BitVec.ofNat 64 (g.1 * 2 ^ 53 + g.2)).toNat / 2 ^ 53 = g.1 ∧ (BitVec.ofNat 64 (g.1 * 2 ^ 53 + g.2)).toNat % 8 = 0) ∧
    (BitVec.ofNat 64 (0x403 * 2 ^ 53)).toNat / 2 ^ 12 % 2 ^ 41 = 0 ∧ (BitVec.ofNat 64 (0x403 * 2 ^ 53 + 4096)).toNat / 2 ^ 12 % 2 ^ 41 ≠ 0 ∧
    reachAs homeCls .load 8 (BitVec.ofNat 64 (0x405 * 2 ^ 53)) .forbid (some 0) super = .fw 0 0 ∧
    reachAs homeCls .atomic 8 (BitVec.ofNat 64 (0x405 * 2 ^ 53)) .forbid (some 0) super = .fw 0 0 ∧
    homeWait .hs 0x40 mapped = false ∧ releaseReady .rel 0 posted = false :=
  ⟨rfl, by decide, by decide, by decide, rfl, rfl, by decide, by decide⟩

theorem test_hyps_waita_full :
    512 ≤ waitersAt 0x40 { mapped with waiters := List.replicate 512 { pid := 1, pa := 0x40, core := 64, tid := 0, got := none } } := by decide +kernel

theorem test_wake :
    (let s : State := { withRegs [(1, 0x40), (2, 1)] mapped with waiters := [{ pid := 1, pa := 0x40, core := 64, tid := 0, got := none }] }
     (after (exec (.wake .rlx 0 3 1 2) s)).map fun t => (getS 3 t, t.waiters.map fun w => w.got)) = some (1, [some 0]) := by decide

/-- A launch of two cores whose other core is absent, and one whose other core is present. -/
def pair (present : Bool) : State :=
  let run : Run := if present then .ready else .idle
  let k : Core := { Core.reset with owner := some (1, 7), tsets := vecSet Core.reset.tsets 0 { ThreadSet.reset 0 with run := run } }
  { withTs (fun t => { t with rect := rectOf 0 1 0 0 }) user with cores := [(1, k)], launches := [{ launch with lgw := 1 }] }

/-- BARL: outside thread sets 0 to 3, in a launch of one core, with a shape within the launch's and one beyond it; every core of the
block arrived, and one not; a wait that goes on. -/
theorem test_hyps_launch_barrier :
    let s := pair false
    let u := pair true
    let x := 2 ^ 18
    bank.tid = 4 ∧ (rectLgw user.ts.rect = 0 ∧ rectLgh user.ts.rect = 0) ∧ ¬ (rectLgw s.ts.rect = 0 ∧ rectLgh s.ts.rect = 0) ∧
    Free (useA 1) s ∧ x = x / 2 ^ 18 % 8 * 2 ^ 18 + x / 2 ^ 21 % 8 * 2 ^ 21 ∧ x / 2 ^ 18 % 8 ≤ rectLgw s.ts.rect ∧
    (barlOf 1 0 s.ts).pending = false ∧ palOk 3 s = true ∧ releaseReady .rel 3 s = true ∧
    (∀ c ∈ subCores s.here 1 0, coreArrived (myPid s) (myLid s) 1 0 0 c (barArrive 1 0 s) = true) ∧
    (∃ c ∈ subCores u.here 1 0, coreArrived (myPid u) (myLid u) 1 0 0 c (barArrive 1 0 u) = false) ∧
    (barlOf 1 0 (barArrive 1 0 s).ts).pending = true ∧ Free (useA 1) (barArrive 1 0 s) ∧
    (∀ c ∈ subCores s.here 1 0, coreArrived (myPid s) (myLid s) 1 0 (barArrive 1 0 s).ts.waitphase c (barArrive 1 0 s) = true) ∧
    (∃ c ∈ subCores u.here 1 0, coreArrived (myPid u) (myLid u) 1 0 (barArrive 1 0 u).ts.waitphase c (barArrive 1 0 u) = false) ∧
    palOk 4 stale = false ∧ releaseReady .rel 3 posted = false := by unfold Free; decide

theorem test_launch_barrier :
    ((after (exec (.barl .rel 3 1) (withRegs [(1, 2 ^ 18)] (pair false)))).map fun t => (t.ts.pc, lookupD 0 t.core.phase 8)) =
      some (0x1004, 1) ∧
    ((after (exec (.barl .rel 3 1) (withRegs [(1, 2 ^ 18)] (pair true)))).map fun t => (t.ts.pc, t.ts.run)) =
      some (0x1000, .waiting) := by decide +kernel

/-- PALGET, PALSET and PALINV: an entry in range and one outside, a place in local memory, and a good record and a bad one. -/
theorem test_hyps_palette :
    let good : PalMem := { flags := 3, kind := 0, shape := 0, cores := 1 }
    Free (useABD 3 1 (.reg 2)) user ∧ Free { len := 4, a := none, b := some (.s 2), more := [], w := none } user ∧
    (match ownAt .store 264 0x8000 user with | .mem _ key _ _ _ => landsNow key 264 user | _ => false) = true ∧
    recordOk good.value user = true ∧ recordOk 0 user = false ∧
    (match ownLoad 8 264 0x8000 user with | .val x _ => x == 0 | _ => false) = true ∧ myLaunch user = some launch ∧
    bank.tid = 4 ∧ user.tid ≠ 4 ∧ user.tid ≠ 5 := ⟨by unfold Free; decide, by unfold Free; decide, by decide +kernel⟩

/-- PALSET and PALINV where no core is pre-empted: a launch of one core, whose update runs at once, and one of two cores. -/
theorem test_hyps_palette_updates :
    NoneResting user ∧ AtOnce launch 4 user ∧ NoneResting (pair true) ∧ myLaunch (pair true) = some { launch with lgw := 1 } := by
  refine ⟨⟨by decide, fun c => ?_⟩, by unfold AtOnce; decide, ⟨by decide, fun c => ?_⟩, by decide⟩
  · unfold getCore; split <;> rfl
  · unfold getCore
    split
    · rfl
    · unfold pair lookupD
      split <;> rfl

theorem test_palinv_at_once :
    ((after (exec (.palinv .rlx 2) (withRegs [(2, 4)] user))).map fun t =>
      ((vecGet t.core.pal 0).gen, (vecGet t.core.pal 0).inv, t.ts.pc)) = some (1, true, 0x1004) := by decide

/-- Palette messages: to a core whose copy has no old slot, to one whose old generation is still carried, and the last
acknowledgement. -/
theorem test_hyps_palette_messages :
    let x : PalMem := { flags := 3, kind := 0, shape := 0, cores := 1 }
    let m : PalMsg := { pid := 1, lid := 7, core := 0, num := 0, entry := 4, gen := 1, step := .invalidate, mem := some x }
    let s : State := { user with palMsgs := [m] }
    let r : PalReq := { entry := 4, core := 0, tid := 0, mem := m.mem, after := [], started := true, installing := false, waiting := [0], done := none }
    let a : State := { user with palMsgs := [{ m with step := .ack }], launches := [{ launch with palReqs := [r] }] }
    nth? (palServiceAll s).palMsgs 0 = some m ∧ (getCore 0 (palServiceAll s)).owner = some (1, 7) ∧ oldFree 1 7 0 4 (palServiceAll s) = true ∧
    m.stuck (palServiceAll s) = false ∧
    oldFree 1 7 0 4 { posted with
      core := { posted.core with pal := vecSet posted.core.pal 0 { palRelease 0 0 0 with old := some (0, x) } }
      pend := posted.pend.map fun p => { p with pal := some (4, 0) } } = false ∧
    nth? (palServiceAll a).palMsgs 0 = some { m with step := .ack } ∧
    (match launchOf 1 7 (palServiceAll a) with
     | some l => (l.palReqs.filter fun q => q.entry == 4 && q.started && q.done.isNone) == [r]
     | none => false) = true ∧ (∀ c ∈ r.waiting, c = 0) := by decide

/-- A failed link between the cores of a launch of two holds a palette message. -/
theorem test_hyps_palette_stuck :
    let s := pair true
    let m : PalMsg := { pid := 1, lid := 7, core := 1, num := 0, entry := 4, gen := 1, step := .invalidate, mem := none }
    m.stuck { s with failed := [{ src := routerOf 0 s, dst := routerOf 1 s }], palMsgs := [m] } = true := by decide

/-- Line 0 of the core's quad configured with `cfg`. -/
def atLine (e : EvLine) : State :=
  { withRegs [(1, evAddr 0 false)] user with core := { user.core with lines := vecSet user.core.lines 0 e } }

/-- A line of type BARRIER, EVENT or MUTEX with members `m`. -/
def typed (ty m : Nat) : EvLine := { EvLine.off with cfg := w64 (ty * 2 ^ 16 + m) }

/-- EVWAIT: no line, a line of each type, a wait that goes on and one that has its result. -/
theorem test_hyps_evwait :
    let w : EvWaiter := { core := 0, tid := 0, arrived := true, result := none }
    let bar : EvLine := typed 1 3
    Free (useAD 3 1) (atLine bar) ∧ evLine? (evAddr 0 false) (atLine bar) = some 0 ∧ evLine? 0x40 user = none ∧
    lineOf 0 0 (atLine bar) = bar ∧ NotWaiting bar (atLine bar) ∧ drained (true, true) (atLine bar) = true ∧
    { bar with arrivals := 1 }.fires = false ∧ myWait { bar with waiters := [w] } user = some w ∧
    myWait { bar with waiters := [{ w with result := some 5 }] } user = some { w with result := some 5 } ∧
    (0x10003 : Nat) / 2 ^ 16 % 4 = 1 ∧ (0x20000 : Nat) / 2 ^ 16 % 4 = 2 ∧ (0x30000 : Nat) / 2 ^ 16 % 4 = 3 :=
  ⟨by unfold Free; decide, by decide, by decide, by decide, by unfold NotWaiting; decide, by decide⟩

/-- EVSIG: an arrival that fires the line and one that does not, one of no member, a signal with nobody waiting, and a mutex held by
the thread set and by another. -/
theorem test_hyps_evsig :
    Free (useA 1) (atLine (typed 1 1)) ∧ (typed 1 1).cfg.getLsbD (memberNo (atLine (typed 1 1))) = true ∧
    { typed 1 1 with arrivals := 1 }.fires = true ∧ { typed 1 3 with arrivals := 1 }.fires = false ∧
    (typed 1 2).cfg.getLsbD (memberNo user) = false ∧ NoWaiters (typed 2 0) ∧ memberNo user = 0 :=
  ⟨by unfold Free; decide, by decide, by decide, by decide, by decide, by unfold NoWaiters; decide, by decide⟩

/-- The configuration store: accepted; a line whose core the launch does not own; a reserved type; a member outside the launch. -/
theorem test_hyps_event_config :
    lineMine 0 user = true ∧ evCfgOk 0x1000F user = true ∧ lineMine 8 user = false ∧ evCfgOk 0x1C000000000000 user = false ∧
    evCfgOk 0x10010 user = false ∧ Free (withMore useNone [.s 1]) user := by unfold Free; decide

/-- A chain message to line 0 of the quad of core (0, 0): an event line, and a barrier that waits for two. -/
theorem test_hyps_chain :
    let m : ChainMsg := { pid := 1, lid := 7, core := 64, num := 0, cfg := 0x800000010001, left := [0] }
    chainCores m.cfg = [0] ∧ m.waits user 0 = false ∧ m.waits { user with chains := [m] } 0 = false ∧
    { m with left := [0, 1] }.waits (pair true) 1 = false ∧ ownedBy 1 7 1 user = false ∧
    { m with core := 0 }.waits { pair true with failed := [{ src := routerOf 0 (pair true), dst := routerOf 1 (pair true) }] } 1 = true ∧
    ownedBy 1 7 0 (atLine (typed 2 0)) = true ∧
    evType (vecGet (ownedCore 1 7 0 (atLine (typed 2 0))).lines 0).cfg = 2 ∧
    NoWaiters (typed 2 0) ∧ evType (typed 1 3).cfg = 1 ∧ EvLine.fires { typed 1 3 with count := 1 } = false := by
  unfold NoWaiters; decide

/-- Lines with a waiter that wants a result: an event line, a mutex that the thread set holds, and a barrier that one arrival more
fires. -/
theorem test_hyps_waiters :
    let w : EvWaiter := { core := 0, tid := 1, arrived := true, result := none }
    let e : EvLine := { typed 2 0 with waiters := [w] }
    e.waiters.find? (fun y => y.result.isNone) = some w ∧
    ({ typed 3 0 with held := true, waiters := [w] } : EvLine).holder = memberNo user ∧
    { typed 1 3 with arrivals := 3, waiters := [w] }.fires = true ∧ { typed 1 3 with arrivals := 1 }.fires = false ∧
    (evChen (0x800000010001 : Word) = true) := by decide

/-- 08 R192: the last of two members arrives: the waiter has its result, and the barrier begins a new generation. -/
theorem test_barrier_fires :
    let w : EvWaiter := { core := 0, tid := 1, arrived := true, result := none }
    let s := atLine { typed 1 3 with arrivals := 2, waiters := [w] }
    (after (exec (.evwait 3 1 0) s)).map (fun t => ((lineOf 0 0 t).gen, (lineOf 0 0 t).waiters.map (fun y => y.result.isSome), t.ts.pc)) =
      some (1, [true], 0x1004) := by decide

/-- 08 R192: a mutex passes to its oldest waiter. -/
theorem test_mutex_passes :
    let w : EvWaiter := { core := 0, tid := 1, arrived := false, result := none }
    let s := atLine { typed 3 0 with held := true, waiters := [w] }
    (after (exec (.evsig 1 0) s)).map (fun t => ((lineOf 0 0 t).held, (lineOf 0 0 t).holder, (lineOf 0 0 t).waiters.map fun y => y.result.isSome)) =
      some (true, 1, [true]) := by decide

theorem test_event_line :
    ((after (exec (.evsig 1 0) (atLine (typed 2 0)))).bind fun t => result (.evwait 3 1 0) 3 t) =
      some (w64 1) := by decide

/-! ## Tasks, messages, commands and streams -/

/-- CPOST: no launch, no stages, and a record of zeros that finds room, that finds none, and that is bad. -/
theorem test_hyps_cpost :
    let l : Launch := { launch with stages := [0] }
    let ring (v : State) := vecGet (ownedCore l.pid l.lid 0 v).rings 0
    myLaunch { user with launches := [] } = none ∧ myLaunch user = some launch ∧ myLaunch staging = some l ∧
    Free (useAD 3 1) staging ∧ recordValid 0 = true ∧ recordValid 5 = true ∧ recordValid 0x50000000000000000 = false ∧
    (match ownLoad 64 64 0x8000 staging with
     | .val x t => x == 0 && recTarget l 0 (recHome 0 t) t == some 0 && ownedBy 1 7 0 t && decide ((ring t).length < 32) &&
         drained (true, true) t && (recTarget l 5 0 t).isNone
     | _ => false) = true := ⟨by decide, by decide, by decide, by unfold Free; decide, by decide +kernel⟩

theorem test_cpost :
    (let s := withRegs [(1, 0x8000)] staging
     (after (exec (.cpost 3 1 0) s)).map fun t => (getS 3 t, (vecGet t.core.rings 0).length, getS 3 s)) = some (0, 1, 0) ∧
    result (.cpost 3 1 1) 3 (withRegs [(1, 0x8000)] staging) = some 3 ∧
    result (.cpost 3 1 0) 3 (withRegs [(1, 0x8020)] staging) = some 2 := by decide +kernel

/-- TASKEND and YIELD: in slice context 6, with a write still to be performed, with none, and in a bank with a command left. -/
theorem test_hyps_task_control :
    ({ user with tid := 6 } : State).tid = 6 ∧ (∃ p ∈ posted.pend, p.core = posted.here ∧ p.tid = posted.tid) ∧
    (∀ p ∈ user.pend, ¬ (p.core = user.here ∧ p.tid = user.tid)) ∧ staged staging = true ∧ staged user = false ∧
    Free useNone user ∧ user.tid ≠ 6 :=
  ⟨rfl, ⟨storeEntry 0x40 0x40 .l1 0x40 [1, 2, 3, 4] 0 mapped, by decide, rfl, rfl⟩, by decide, by decide, by decide,
    by unfold Free; decide, by decide⟩

theorem test_hyps_bank_taskend :
    bankIdle 0 4 { bank with core := { bank.core with queues := vecSet bank.core.queues (bankQueue 4 0) [command 0 bank] } } = false := by
  decide

theorem test_taskend :
    ((after (exec .taskend user)).map fun t => (t.ts.pc, t.ts.run)) = some (0x1004, .ended) ∧
    ((after (exec .taskend staging)).map fun t => (t.ts.pc, t.ts.run)) = some (0x1004, .idle) := by decide

/-- SEND to thread set 1 of core (0, 0), to a place whose inbox is full, and a bad destination. -/
theorem test_hyps_send :
    let e : InboxEntry := { kind := 1, data := List.replicate 32 1, ux := none }
    let full : State := { user with core := { user.core with inbox := vecSet user.core.inbox 1 (List.replicate 12 e) } }
    Free (useAB 1 2) user ∧ 0x10000 / 2 ^ 18 = 0 ∧ 0x10000 / 2 ^ 13 % 8 = 0 ∧ 0x10000 / 2 ^ 6 % 4 = 0 ∧ 0x40 / 2 ^ 6 % 4 ≠ 0 ∧
    (match ownLoad 32 64 0x8000 user with | .val _ t => sendRoom 0 1 t | _ => false) = true ∧
    (match ownLoad 32 64 0x8000 full with | .val _ t => !sendRoom 0 1 t && !flowStopped (msgFlow 0 0 t) t.seq t | _ => false) = true :=
  ⟨by unfold Free; decide, by decide⟩

/-- A SEND that stalled holds its message: it goes where there is room, and stays held while its flow drains (22 R417). -/
theorem test_hyps_held_send :
    let h : HeldSend := { pc := 0x1000, dst := 0x10000, data := leBytes 64 5 }
    let s : State := withTs (fun t => { t with sends := [h] }) user
    let f : FlowSt := { flow := msgFlow 0 0 s, route := [], escape := false, draining := true, back := false, upto := 0 }
    heldSend s = some h ∧ heldSend user = none ∧ Free (useAB 1 2) s ∧ sendRoom 0 1 s = true ∧ flowStopped (msgFlow 0 0 s) s.seq s = false ∧
    flowStopped (msgFlow 0 0 s) s.seq { s with flows := [f] } = true := by unfold Free; decide

theorem test_send_holds :
    (let e : InboxEntry := { kind := 1, data := List.replicate 32 1, ux := none }
     let s : State := withRegs [(1, 0x10000), (2, 0x8000)] user
     let full : State := { s with core := { s.core with inbox := vecSet s.core.inbox 1 (List.replicate 12 e) } }
     ((after (exec (.send 1 2) full)).map fun t => (t.ts.run, t.ts.sends.map fun h => h.dst)) = some (.stalled, [0x10000]) ∧
     ((after (exec (.send 1 2) full)).bind fun t => after (exec (.send 1 2) { withRegs [(1, 0)] t with core := user.core })).map
       (fun t => (t.ts.sends.length, t.msgs.map fun m => (m.dst, m.dts))) = some (0, [(0, 1)])) := by decide

/-- A message on its way to thread set 1 of core (0, 0). -/
def sent : State :=
  { user with msgs := [{ pid := 1, lid := 7, core := 0, tid := 0, dst := 0, dts := 1, data := genList 64 fun i => BitVec.ofNat 8 i, after := [], num := 0 }] }

theorem test_hyps_delivery :
    ∃ m, nth? sent.msgs 0 = some m ∧ (∀ x ∈ sent.msgs.take 0, ¬ (x.core = m.core ∧ x.tid = m.tid ∧ x.dst = m.dst ∧ x.dts = m.dts)) ∧
      (∀ p ∈ sent.pend, p.id ∉ m.after) ∧ (getCore m.dst sent).owner = some (m.pid, m.lid) ∧
      (getCore m.dst sent).spilled m.dts = false ∧ flowWaits (msgFlow m.core m.dst sent) m.num sent = false ∧
      (getCore m.dst sent).pre = .none ∧ (∀ x ∈ sent.msgs.take 0, x.before m = false) ∧ (∀ o ∈ (getCore m.core sent).matq, o.seq ∉ m.after) :=
  ⟨_, rfl, by decide, by decide, by decide, by decide, by decide, by decide, by decide, by decide⟩

/-- A message that an earlier one of its sender goes before, one whose sender's store is still to be performed, and one whose inbox is
full. -/
theorem test_hyps_delivery_waits :
    let m : Msg := { pid := 1, lid := 7, core := 0, tid := 0, dst := 0, dts := 1, data := [], after := [], num := 0 }
    m.before { m with num := 1 } = true ∧ ({ m with after := [0] } : Msg).injected { sent with pend := posted.pend } = false ∧
    ¬ ((List.replicate 11 ({ kind := 1, data := [], ux := none } : InboxEntry)).filter fun e => e.kind != 3).length + 2 ≤ 12 := by decide

theorem test_delivery :
    ((after (exec (.messageDelivery 0) sent)).map fun t => ((vecGet t.core.inbox 1).map fun e => (e.kind, leValue (e.data.take 2)))) =
      some [(1, 0x100), (2, 0x2120)] := by decide

/-- `user` with an entry in its inbox. -/
def inboxed : State :=
  { user with core := { user.core with inbox := vecSet user.core.inbox 0 [{ kind := 3, data := genList 32 fun i => BitVec.ofNat 8 i, ux := none }] } }

theorem test_hyps_inbox :
    Free (useAD 3 1) inboxed ∧ Free (useD 3) inboxed ∧ user.core.inboxOf user.tid = [] ∧
    (match ownAt .store 32 0x8000 inboxed with
     | .mem _ key _ _ _ => (mineAt key 32 inboxed).isEmpty && landsNow key 32 inboxed
     | _ => false) = true ∧
    (∃ e rest, inboxed.core.inboxOf inboxed.tid = e :: rest ∧ e.data.length = 32 ∧ e.kind < 4 ∧ rest.length < 31) ∧
    inboxed.core.spill = [] ∧ Memory.wf inboxed.mem = true :=
  ⟨by unfold Free; decide, by unfold Free; decide, by decide, by decide, ⟨_, _, rfl, by decide⟩, by decide⟩

theorem test_inbox :
    ((after (exec (.ibxpop 3 1) (withRegs [(1, 0x8000)] inboxed))).map fun t =>
      (getS 3 t, t.core.inboxOf 0, memValue t.mem 2 (lmKey 0 0x8000))) = some (0x0706050403020100, [], 0x100) ∧
    result (.ibxwait 3) 3 inboxed = some 0x301 := by decide

/-- ENQ and ENQV: a word of zeros at 0x8000, a full queue, and an INVALID entry. -/
theorem test_hyps_enqueue :
    let full : State := { user with core := { user.core with queues := vecSet user.core.queues 0 (List.replicate 16 (command 0 user)) } }
    Free (useA 1) user ∧ user.ts.palHold = [] ∧ (match ownLoad 32 32 0x8000 user with
      | .val x t => x == 0 && palOk 0 t && decide ((vecGet t.core.queues (queueFor t.tid 0)).length < queueCap 0) &&
          decide (windowCount t + (prepared (cmdOf 0 false [] 0 t) t).reads.length +
            (prepared (cmdOf 0 false [] 0 t) t).writes.length ≤ 96) && !blockWaits (cmdOf 0 false [] 0 t) t
      | _ => false) = true ∧
    queueCap (queueFor full.tid 0) ≤ (vecGet full.core.queues (queueFor full.tid 0)).length ∧
    palOk (bitsOf (4 * 2 ^ 240) 240 4) stale = false ∧
    Free { len := 4, a := some (.v 1), b := none, more := [], w := none } user ∧ full.ts.enqWord = none ∧ user.ts.enqWord = none ∧
    (withTs (fun t => { t with enqWord := some 0 }) full).ts.enqWord = some 0 ∧ palOk 0 full = true ∧
    Free (useA 1) (withTs (fun t => { t with enqWord := some 0 }) full) :=
  ⟨by unfold Free; decide, by decide, by decide, by decide, by decide, by unfold Free; decide, by unfold Free; decide⟩

theorem test_enqueue :
    ((after (exec (.enq 1) (withRegs [(1, 0x8000)] user))).map fun t => ((vecGet t.core.queues 0).map fun m => (m.tid, m.fired))) =
      some [(0, true)] ∧
    ((after (exec (.enqv 1) user)).map fun t => ((vecGet t.core.queues 0).map fun m => (m.byEnqv, m.fired))) =
      some [(true, true)] := by decide +kernel

/-- An ENQ that stalled keeps the word that it has read (15 R318). -/
theorem test_enqueue_keeps_word :
    (let full : State := { user with core := { user.core with queues := vecSet user.core.queues 0 (List.replicate 16 (command 0 user)) } }
     (after (exec (.enq 1) (withRegs [(1, 0x8000)] full))).map fun t => (t.ts.run, t.ts.enqWord)) = some (.stalled, some 0) := by
  decide +kernel

/-- A command armed on counter 5 with threshold 2. -/
def armed : State :=
  { user with core := { user.core with queues := vecSet user.core.queues 1 [command (BitVec.ofNat 256 (5 * 2 ^ 216 + 2 * 2 ^ 184)) user] } }

theorem test_hyps_counters :
    (bank.tid = 4 ∧ 8 ≤ 9) ∧ Free (useA 1) user ∧ Free (useAD 3 1) user ∧ Free (useD 3) user ∧ drained (true, true) user = true ∧
    drained (true, true) posted = false ∧ reached (myCounter 5 user) 0 = true ∧ reached (myCounter 5 user) 1 = false ∧
    user.ts.trgWait ≠ some (5, 1, true) ∧ (∃ q ∈ trgQueues armed.tid, ∃ m ∈ vecGet armed.core.queues q, m.trg = 5 ∧ m.fired = false) ∧
    ¬ (∃ q ∈ trgQueues user.tid, ∃ m ∈ vecGet user.core.queues q, m.trg = 5 ∧ m.fired = false) :=
  ⟨by decide, by unfold Free; decide, by unfold Free; decide, by unfold Free; decide, by decide⟩

theorem test_trigger :
    ((after (exec (.trgadd 5 1) (withRegs [(1, 2)] armed))).map fun t =>
      (myCounter 5 t, (vecGet t.core.queues 1).map fun m => m.fired)) = some (2, [true]) ∧
    result (.trgset false 5 3 1) 3 (withRegs [(1, 2)] armed) = some 1 ∧
    result (.trgset true 5 3 1) 3 (withRegs [(1, 2)] armed) = some 0 := by decide

/-- A slot of 8-byte elements in the core's own memory from 0x8000 on, bound to s5. -/
def slotK (st : SlotSt) (write : Bool) (buf : List (Nat × VWord)) : Slot :=
  { st := st, write := write, vec := false, reg := 5, base := lmAt 0x8000, counts := [2, 1, 1, 1], strides := [8, 0, 0, 0],
    esize := 3, sext := false, pos := 0, buf := buf, held := none }

/-- `user` with slot 0. -/
def streaming (k : Slot) : State := withTs (fun t => { t with slots := vecSet t.slots 0 k }) user

theorem test_hyps_stream_control :
    let d : Nat := 2 ^ 64 * (2 + 2 ^ 32 + 2 ^ 64 + 2 ^ 96) + 3 * 2 ^ 448
    let s : State := { user with mem := memWrite (lmKey 0 0x8000) (leBytes 64 d) [] }
    Free (useA 1) s ∧ Free useNone s ∧ Free (useD 3) s ∧ (slotAt 0 s).st = .free ∧ (slotAt 0 (streaming (slotK .active false []))).st ≠ .free ∧
    boundSlot (bindReg false 5) s = none ∧ boundSlot (bindReg false 5) (streaming (slotK .active false [])) = some 0 ∧
    (match loadAt 64 (BitVec.ofNat 64 (0x400 * 2 ^ 53 + 0x8000)) s with
     | .val p _ => descriptorValid p false true && descriptorValid p false false && !descriptorValid 0 false false
     | _ => false) = true ∧
    (∃ p ∈ [{ storeEntry 0x40 0x40 .l1 0x40 [1] 0 user with slot := some 0 }], p.core = user.here ∧ p.tid = user.tid ∧ p.slot = some 0) :=
  ⟨by unfold Free; decide, by unfold Free; decide, by unfold Free; decide, by decide, by decide, by decide, by decide, by decide +kernel,
    by decide⟩

theorem test_sbind :
    (let d : Nat := 2 ^ 64 * (2 + 2 ^ 32 + 2 ^ 64 + 2 ^ 96) + 3 * 2 ^ 448
     let s : State := withRegs [(1, 0x8000)] { user with mem := memWrite (lmKey 0 0x8000) (leBytes 64 d) [] }
     (after (exec (.sbind false false 0 5 1) s)).map fun t => ((slotAt 0 t).reg, (slotAt 0 t).st, result (.sstat 0 3) 3 t)) =
       some (5, .active, some 0x20501) := by decide +kernel

/-- A bound register is read and written: an element in the buffer, one that is not, a DONE slot, and both directions. -/
theorem test_hyps_stream_registers :
    let s := streaming (slotK .active false [])
    let w := streaming (slotK .active true [])
    boundSlot (.s 5) s = some 0 ∧ boundSlot (.s 6) s = none ∧ boundSlot (.s 7) s = none ∧ s.ts.pc.toNat + 4 < fetchLimit s ∧
    (slotK .active false [(0, 9)]).buf.find? (fun y => y.1 == 0) = some (0, 9) ∧
    (match loadAt 8 ((slotAt 0 s).addr 0) s with | .val x _ => x == 0 | _ => false) = true ∧
    reaches .store 8 ((slotAt 0 w).addr 0) .forbid none w (fun _ _ _ _ _ => true) = true ∧
    bufferFull 0 (slotK .active true []) w = false ∧
    bufferFull 0 (slotK .active true []) { w with pend := List.replicate 64 { storeEntry 0x40 0x40 .l1 0x40 [1] 0 w with slot := some 0 } } = true ∧
    (getTs s.here s.tid s).run = .ready ∧ 0 < elements (slotK .active false []) ∧ (0 + 1) * (slotK .active false []).bytes ≤ 512 ∧
    (match loadAt 8 ({ slotK .active false [] with base := lmAt 0x8001 }.addr 0) s with | .fault _ => true | _ => false) = true := by
  decide +kernel

theorem test_stream_registers :
    (let s := withRegs [(6, 30)] (streaming (slotK .active false [(0, 9)]))
     (after (exec (.add 7 5 (.reg 6)) s)).map fun t => (getS 7 t, (slotAt 0 t).pos, t.ts.live == liveAfter (useABD 7 5 (.reg 6)) s)) =
       some (39, 1, true) ∧
    (let s := withRegs [(6, 30)] (streaming (slotK .active true []))
     (after (exec (.add 5 6 (.reg 6)) s)).map fun t => (getS 5 t, (slotAt 0 t).pos, t.pend.map fun p => p.op)) =
       some (0, 1, [.store (leBytes 8 60)]) ∧
    ((after (exec (.streamFetchAhead 0 0 0) (streaming (slotK .active false [])))).map fun t => (slotAt 0 t).buf) = some [(0, 0)] := by
  decide +kernel

/-- `user` with s5 and s6, or v5 and v6, bound to read slots 0 and 1 that hold their elements, and s7 or v7 to write slot 2. -/
def bothBound (vec : Bool) : State :=
  let size : Nat := if vec then 6 else 3
  let k (r : Nat) : Slot := { slotK .active false [(0, BitVec.ofNat 512 (2 ^ r))] with vec := vec, reg := r, esize := size }
  withTs (fun t => { t with slots := vecSet (vecSet (vecSet t.slots 0 (k 5)) 1 (k 6)) 2 { slotK .active true [] with vec := vec, reg := 7, esize := size } }) user

/-- Several bound operands: of ADD, SEL and ST, and of a vector operation; an unbound destination, and a bound one. -/
theorem test_hyps_stream_operands :
    Ready (.s 5) 0 32 (bothBound false) ∧ Ready (.s 6) 1 64 (bothBound false) ∧ boundSlot (.s 3) (bothBound false) = none ∧
    Ready (.v 5) 0 32 (bothBound true) ∧ Ready (.v 6) 1 64 (bothBound true) ∧ boundSlot (.v 3) (bothBound true) = none ∧
    locked (useVVV 3 5 6) (bothBound true) = false ∧ boundSlot (.v 7) (bothBound true) = some 2 ∧ (slotAt 2 (bothBound true)).bytes = 64 ∧
    bufferFull 2 (slotAt 2 (bothBound true)) (bothBound true) = false ∧
    reaches .store 64 ((slotAt 2 (bothBound true)).addr 0) .forbid none (bothBound true) (fun _ _ _ _ _ => true) = true ∧
    (bothBound true).ts.pc.toNat + 4 < fetchLimit (bothBound true) := by
  refine ⟨?_, ?_, by decide, ?_, ?_, by decide +kernel⟩ <;> unfold Ready <;>
    exact ⟨by decide, by decide, by decide, by decide, by decide, by decide, _, rfl, by decide +kernel⟩

/-- 06 R158: an instruction with two bound sources pops both slots, and one that names a bound source twice pops it once. -/
theorem test_stream_operands :
    ((after (exec (.add 3 5 (.reg 6)) (bothBound false))).map fun t => (getS 3 t, (slotAt 0 t).pos, (slotAt 1 t).pos)) = some (96, 1, 1) ∧
    ((after (exec (.add 3 5 (.reg 5)) (bothBound false))).map fun t => (getS 3 t, (slotAt 0 t).pos)) = some (64, 1) := by
  decide +kernel

/-- The LIVE mask: a marked source of U code, slice context 6, a write of s0 and a shadow copy. -/
theorem test_hyps_live :
    let s : State := { user with core := { user.core with marks := [(0x400, 1)] } }
    Marked 0 s ∧ ¬ Marked 1 s ∧ keepsLive 3 user ∧ ¬ keepsLive 0 user ∧ ¬ keepsLive 24 (withTs (fun t => { t with status := 8 }) user) ∧
    Free (useABD 3 1 (.reg 2)) s ∧ Free (useABD 3 1 (.reg 2)) { user with tid := 6 } ∧ CanTrap user := by
  unfold Marked keepsLive Free CanTrap; decide

/-- 19 R378: ADD s3, s1, s2 with a mark on its first source clears bit 1 and sets bit 3. -/
theorem test_live :
    (let s : State := withTs (fun t => { t with live := 6 }) { user with core := { user.core with marks := [(0x400, 1)] } }
     ((after (exec (.add 3 1 (.reg 2)) s)).map fun t => t.ts.live) = some 12 ∧
     ((after (exec (.add 1 1 (.reg 2)) s)).map fun t => t.ts.live) = some 6) := by decide

theorem test_hyps_locked :
    plain (useVVV 3 1 2) (withTs (fun t => { t with locks := 8 }) user) = true ∧
    (withTs (fun t => { t with locks := 8 }) user).ts.locks.getLsbD 3 = true := by decide

/-! ## The matrix unit and the engines -/

/-- `user` with a context, with operands at 0x8000 and 0xA000, and metadata whose masks have 32 ones each. -/
def matrix (spn : Nat) : State :=
  { withRegs [(1, lmAt 0x8000), (2, lmAt 0xA000)] user with
    core := { user.core with mctx := ctx16 spn }
    mem := genList 128 fun i => (lmKey 0 (0x8800 + i / 4 * 16 + i % 4), 0xFF) }

/-- An accepted MZERO of accumulator 1. -/
def zeroOp : MatOp := opOf .zero 1 0 0 0 0 [] (matrix 0)

theorem test_hyps_matrix :
    let s := matrix 0
    let full : State := { s with core := { s.core with matq := List.replicate 4 zeroOp } }
    Free (useAB 1 2) s ∧ Free useNone s ∧ Free (useA 1) s ∧ NamesAcc 1 s ∧ HasRoom 2 s ∧ 4 ≤ full.core.matq.length ∧
    OperandAt (getS 1 s) (aBytes false s.core.mctx) 0 0x8000 s ∧ OperandAt (getS 2 s) (bBytes false s.core.mctx) 0 0xA000 s ∧
    matAddr 0x40 64 s = .bad 1 ∧ matAddr (lmAt 0x20) 64 s = .bad 2 ∧ matAddr (lmAt 0xFBFC0) 128 s = .bad 3 ∧ ctxSpn s.core.mctx = 0 ∧
    user.core.mctx.getLsbD 63 = false :=
  ⟨by unfold Free; decide, by unfold Free; decide, by unfold Free; decide, by unfold NamesAcc; decide, by unfold HasRoom; decide,
    by decide, by unfold OperandAt; decide +kernel, by unfold OperandAt; decide +kernel, by decide +kernel⟩

/-- The metadata of `matrix` as a number: 32 masks with 32 ones each. -/
def masks : Nat := (2 ^ 4096 - 1) / (2 ^ 128 - 1) * 0xFFFFFFFF

theorem masks_read : memValue (matrix 1).mem 512 (lmKey 0 0x8800) = masks := by decide +kernel

theorem masks_good : badMask 128 32 masks = none := by decide +kernel

theorem test_hyps_metadata : MetadataOk 0 0x8000 (matrix 1).core.mctx (matrix 1) := by
  refine ⟨by decide +kernel, ?_⟩
  have h : badMask 128 32 (memValue (matrix 1).mem 512 (lmKey 0 0x8800)) = none := by rw [masks_read]; exact masks_good
  exact h

theorem test_hyps_mmas_mrec :
    let s := matrix 1
    let p : MicroProg := { MicroProg.none with nops := 1, ops := [0] }
    ctxSpn s.core.mctx ≠ 0 ∧ OperandAt (getS 1 s) (aBytes true s.core.mctx) 0 0x8000 s ∧
    OperandAt (getS 2 s) (bBytes true s.core.mctx) 0 0xA000 s ∧ bitsOfCode (ctxA s.core.mctx) = 16 ∧
    p.nops ≠ 0 :=
  ⟨by decide +kernel, by unfold OperandAt; decide +kernel, by unfold OperandAt; decide +kernel, by decide +kernel, by decide +kernel⟩

theorem test_hyps_mfmt_muprog :
    mfmtOk (ctx16 0) = true ∧ mfmtOk 1 = false ∧ (matrix 0).core.matq = [] ∧ OperandAt (lmAt 0x8000) 32 0 0x8000 user ∧
    (∀ o ∈ [zeroOp], o.kind ≠ .recur) ∧ readError (lmKey 0 0x8000) 32 user = none ∧ (microProgOf (2 ^ 192)).isSome = true ∧
    microProgOf 0 = none :=
  ⟨by decide +kernel, by decide +kernel, by decide, by unfold OperandAt; decide +kernel, by decide, by decide, by decide +kernel,
    by decide +kernel⟩

theorem test_mma :
    ((after (exec (.mma 1 1 2) (matrix 0))).map fun t => t.core.matq.map fun o => (o.kind, o.d, o.aOff, o.bOff)) =
      some [(.mma, 1, 0x8000, 0xA000)] ∧
    ((after (exec (.mmas 1 1 2) (matrix 0))).map fun t => (t.ts.ecause, t.ts.epc)) = some (0x368, 0x1000) := by decide +kernel

/-- An operand in a page that is lent to a context, and in one that is being taken back. -/
theorem test_hyps_lent_operand :
    let s (r : Bool) : State := { matrix 0 with core := { (matrix 0).core with lent := [{ bank := 4, base := 0x8000, size := 0x4000, reclaim := r }] } }
    (matAddr (lmAt 0x8000) 32 (s false) = .ok 0 0x8000 ∧ lentAt 0x8000 32 (getCore 0 (s false)) = some false ∧ Free (useA 1) (s false)) ∧
    (matAddr (lmAt 0x8000) 32 (s true) = .ok 0 0x8000 ∧ lentAt 0x8000 32 (getCore 0 (s true)) = some true ∧ Free (useA 1) (s true)) ∧
    NamesAcc 1 (s false) ∧ (s false).tid < 4 :=
  ⟨⟨by decide, by decide, by unfold Free; decide⟩, ⟨by decide, by decide, by unfold Free; decide⟩, by unfold NamesAcc; decide, by decide⟩

theorem test_lent_operand :
    (let s : State := { matrix 0 with core := { (matrix 0).core with lent := [{ bank := 4, base := 0x8000, size := 0x4000, reclaim := false }] } }
     (after (exec (.muprog 1) s)).map fun t => (t.ts.ecause, t.ts.eval == lmAt 0x8000)) = some (0x1421, true) := by decide +kernel

/-- MLDC and MSTC: room, no window, no operation on the accumulator. -/
theorem test_hyps_mldc_mstc :
    let s := matrix 0
    let m := ormMode (ctxOrm s.core.mctx) s
    let r := storeImage (ctxTy s.core.mctx) (ctxOfmt s.core.mctx) m (drawOf s) (readAcc s.core.mctx 1 s.core)
    accBusy 1 s = false ∧ OperandAt (getS 1 s) (imageBytes s.core.mctx) 0 0x8000 s ∧
    readError (lmKey 0 0x8000) (imageBytes s.core.mctx) s = none ∧ ctxTy s.core.mctx ≠ .f64 ∧ ctxTy (w64 (2 ^ 63)) = .f64 ∧
    OperandAt (getS 1 s) (1024 * ofmtBytes (ctxTy s.core.mctx) (ctxOfmt s.core.mctx)) s.here 0x8000 s ∧
    s.pend = [] ∧ s.bad = [] ∧ quadWindows s.seq (myPid s, myLid s) s.here s = [] ∧
    r.1.length = 1024 * ofmtBytes (ctxTy s.core.mctx) (ctxOfmt s.core.mctx) ∧ Memory.wf { s with mem := [] }.mem = true :=
  ⟨by decide, by unfold OperandAt; decide +kernel, by decide +kernel, by decide +kernel, by decide +kernel,
    by unfold OperandAt; decide +kernel, by decide, by decide, by decide +kernel, by decide +kernel, by decide⟩

/-- `matrix` with an accepted MZERO and accumulators of fives. -/
def zeroing : State :=
  { matrix 0 with core := { (matrix 0).core with matq := [zeroOp], accs := vecGen 4 fun _ => vecGen 1024 fun _ => 5 } }

theorem test_matrix_operation :
    zeroOp.gang = false ∧ opError zeroOp zeroing = none ∧ chunkTurn 0 zeroing = false ∧ (getCore 0 zeroing).matq = [zeroOp] ∧
    ((after (exec (.matrixOperation 0) zeroing)).map fun t =>
      (t.core.matq.length, (vecGet t.core.accs 1)[3]?.getD 1, (vecGet t.core.accs 0)[3]?.getD 1)) = some (0, 0, 5) :=
  ⟨by decide, by decide, by decide, by decide, by decide +kernel⟩

/-- A gang of four members: the last to arrive, one that has arrived, one whose joint operation has started and one that is decided. -/
def gangG (c : Word) : GangArrival :=
  { tid := 0, sparse := false, d := 1, aCore := 0, aOff := 0, bCore := 0, bOff := 0, wins := [], ctx := c, decided := none, started := false }

/-- `matrix` in a launch of four rows, three of whose members have arrived. -/
def ganging : State :=
  let k : Core := { Core.reset with owner := some (1, 7), gang := some (gangG (ctx16 0)) }
  { withTs (fun t => { t with rect := rectOf 2 0 0 0 }) (matrix 0) with cores := [(64, k), (128, k), (192, k)] }

theorem test_hyps_gang :
    let s := ganging
    let g : GangArrival := { gangG (ctx16 0) with aOff := 0x8000, bOff := 0xA000, wins := [winAt 0 0x8000 4096, winAt 0 0xA000 4096] }
    let t : State := { s with core := { s.core with gang := some g } }
    Free (useAB 1 2) s ∧ 2 ≤ rectLgh s.ts.rect ∧ rectLgh user.ts.rect < 2 ∧ s.core.gang = none ∧ s.core.matq = [] ∧ NamesAcc 1 s ∧
    OperandAt (getS 1 s) (aBytes false s.core.mctx) 0 0x8000 s ∧ OperandAt (getS 2 s) (bBytes false s.core.mctx) 0 0xA000 s ∧
    windowCount s + 2 ≤ 96 ∧ ((gangFull t).map fun l => (l.length, gangMask l, l.contains (0, g))) = some (4, 0, true) ∧
    gangFull { t with cores := [] } = none :=
  ⟨by unfold Free; decide, by decide, by decide, by decide, by decide, by unfold NamesAcc; decide, by unfold OperandAt; decide +kernel,
    by unfold OperandAt; decide +kernel, by decide +kernel⟩

/-- The fourth arrival starts a joint operation on every member. -/
theorem test_gang :
    ((after (exec (.mgangMma 1 1 2) ganging)).map fun t =>
      ([0, 64, 128, 192].map fun c => (getCore c t).matq.map fun o => (o.gang, o.d), t.core.gang.isNone)) =
      some ([[(true, 1)], [(true, 1)], [(true, 1)], [(true, 1)]], true) := by decide +kernel

/-- 16 R345: members whose formats differ, so that the last arrival decides MATRIX_GANG for all. -/
theorem test_hyps_gang_mismatch :
    let k : Core := { Core.reset with owner := some (1, 7), gang := some (gangG (ctx16 1)) }
    let s : State := { ganging with cores := [(64, k), (128, k), (192, k)] }
    let g : GangArrival := { gangG (ctx16 0) with aOff := 0x8000, bOff := 0xA000, wins := [winAt 0 0x8000 4096, winAt 0 0xA000 4096] }
    (gangFull { s with core := { s.core with gang := some g } }).map (fun l => decide (gangMask l ≠ 0)) = some true ∧
    NoArrival s ∧ (∀ h, ganging.core.gang = some h → h.tid = ganging.tid → h.decided = none) ∧
    (∃ h, (getCore 64 s).gang = some h ∧ h.tid = 0 ∧ h.decided = none ∧ h.started = false) ∧
    ({ s with core := { s.core with matq := [zeroOp] } } : State).core.matq ≠ [] :=
  ⟨by decide +kernel, by unfold NoArrival; decide, by decide, ⟨_, rfl, by decide⟩, by decide⟩

theorem test_gang_decided :
    (let x : Cause := { code := 0x6A, detail := 2, val := 0 }
     let s : State := { ganging with core := { ganging.core with gang := some { gangG (ctx16 0) with decided := some x } } }
     (after (exec (.mgangMma 1 1 2) s)).map fun t => (t.ts.ecause, t.core.gang.isNone, t.ts.pc)) = some (0x26A, true, 0x2000) := by
  decide +kernel

/-- A COPY of 64 bytes, 8 at a time, from 0x8000 to 0x9000, at its start with its block at 0xA000, and one started. -/
def copyTcw : BitVec 256 := BitVec.ofNat 256 (0x10 * 2 ^ 248 + 2 ^ 244 + 3 * 2 ^ 240 + 3 * 2 ^ 132 + 0xA000)

/-- The parameter block of `copyTcw`. -/
def copyBlk : Nat :=
  (lmAt 0x8000).toNat + (lmAt 0x9000).toNat * 2 ^ 64 + (8 + 2 ^ 32 + 2 ^ 64 + 2 ^ 96) * 2 ^ 128 + 8 * 2 ^ 256 + 8 * 2 ^ 512

/-- Queue 1 of core (0, 0) with a command. -/
def copying (w : BitVec 256) (f : Cmd → Cmd) : State :=
  { user with core := { user.core with queues := vecSet user.core.queues 1 [f { command w user with fired := true }] }
              mem := memWrite (lmKey 0 0x8000) (genList 64 fun i => BitVec.ofNat 8 i) (memWrite (lmKey 0 0xA000) (leBytes 128 copyBlk) [])
              seq := 1 }

/-- The COPY, started. -/
def started (m : Cmd) : Cmd := { m with started := true, blk := leBytes 128 copyBlk, aux := [0, 0, 0, 0] }

theorem test_hyps_commands :
    ((cmdAt 0 1 0 (copying copyTcw id)).map fun p => (p.2.fin, p.2.opc, p.2.started, startable 0 1 p.1 p.2 (copying copyTcw id),
      p.2.startFails)) = some (none, 0x10, false, true, none) ∧
    ((cmdAt 0 1 0 (copying 0 id)).map fun p => (p.2.started, startable 0 1 p.1 p.2 (copying 0 id), p.2.startFails.isSome)) =
      some (false, true, true) ∧
    ((cmdAt 0 1 0 (copying copyTcw fun m => { m with fired := false })).map fun p =>
      (p.2.started, startable 0 1 p.1 p.2 (copying copyTcw fun m => { m with fired := false }))) = some (false, false) ∧
    (let m : Cmd := started (command copyTcw user)
     queueClass 1 ≠ 0 ∧ away 0 m user = false) := by decide +kernel

/-- An engine that is a command's own and one that is not; a slice that owes its next turn to its owner's chunk (16 R331). -/
theorem test_hyps_engine_holds :
    (let s := copying copyTcw started
     ((cmdAt 0 1 0 s).map fun p => engineHolds 0 1 p.2 s) = some false) ∧
    (let m : Cmd := started (command 0 user)
     let s : State := { user with core := { user.core with queues := vecSet user.core.queues 0 [m], matq := [zeroOp], sliceTurn := true } }
     chunkTurn 0 s = true ∧ engineHolds 0 0 m s = false ∧
       engineHolds 0 0 m { s with core := { s.core with sliceTurn := false } } = true) := by decide +kernel

theorem test_hyps_engine_forms (n : Nat) :
    (Instr.copy 0 1 n, 0x10, xferStart, copyStep) ∈ engineForms 0 1 n ∧ (Instr.tmma 0 0 n, 0x01, tileStart, tileStep) ∈ engineForms 0 0 n ∧
    (Instr.osum 0 2 n, 0x20, sumStart, sumStep) ∈ engineForms 0 2 n ∧ (Instr.olink 0 3 n, 0x30, olinkStart, olinkStep) ∈ engineForms 0 3 n := by
  simp [engineForms]

/-- A chunk of the COPY: every element can be read and written. -/
theorem test_hyps_chunk :
    let s := copying copyTcw started
    let m := started { command copyTcw user with fired := true }
    s.soft = [] ∧ s.l1soft = [] ∧ engineHolds 0 1 m s = false ∧ Memory.wf s.mem = true ∧ m.eb = 8 ∧ blkTotal (leValue m.blk) = 8 ∧ cmdAt 0 1 0 s = some ([], m) ∧
    (∀ i ∈ List.range 8, (match cmdReach 0 1 m .load 8 (lmAt (0x8000 + 8 * i)) s with
      | .ok t k _ _ => k == lmKey 0 (0x8000 + 8 * i) && (readError k 8 s).isNone && t.mem == s.mem
      | _ => false) = true ∧
     (match cmdReach 0 1 m .store 8 (lmAt (0x9000 + 8 * i)) s with
      | .ok t k _ _ => k == lmKey 0 (0x9000 + 8 * i) && !storeLost k 8 s && t.mem == s.mem
      | _ => false) = true) :=
  ⟨by decide, by decide, by decide +kernel, by decide +kernel, by decide +kernel, by decide +kernel, by decide +kernel, by decide +kernel⟩

/-- 17 R359: the COPY ends with OK after its one chunk. -/
theorem test_copy :
    ((after (exec (.copy 0 1 0) (copying copyTcw started))).map fun t =>
      (memRead t.mem 64 (lmKey 0 0x9000) == genList 64 fun i => BitVec.ofNat 8 i,
       (cmdAt 0 1 0 t).map fun p => p.2.fin.map fun x => (x.status, x.units))) = some (true, some (some (0, 1))) := by decide +kernel

/-- What the statements of a command's chunks ask of the machine, and of a die that has tripped. -/
theorem test_hyps_unmarked :
    Unmarked user ∧ clocked user 0 = true ∧ clocked { user with fw := { user.fw with tripped := [0] } } 0 = false :=
  ⟨⟨by decide, by decide, by decide, by decide⟩, by decide, by decide⟩

/-- A started command of queue 1 with a parameter block, and records of 8 bytes at 0x8000 and 0x8100. -/
def merging (opc dth blk : Nat) : State :=
  let w := BitVec.ofNat 256 (opc * 2 ^ 248 + 2 ^ 244 + 3 * 2 ^ 240 + 640 * 2 ^ 136 + dth * 2 ^ 113)
  let m : Cmd := { command w user with fired := true, started := true, blk := leBytes 128 blk, aux := [0, 0, 0, 0] }
  { user with core := { user.core with queues := vecSet user.core.queues 1 [m] }
              mem := memWrite (lmKey 0 0x8000) (leBytes 16 (1 + 10 * 2 ^ 32 + 3 * 2 ^ 64 + 20 * 2 ^ 96))
                (memWrite (lmKey 0 0x8100) (leBytes 8 (3 + 5 * 2 ^ 32)) [])
              seq := 1 }

/-- Two records and one, of indices below 16, merged to 0x8200 with room for 16, and the values at 0x8000 compacted there. -/
def mergeBlk : Nat :=
  (lmAt 0x8000).toNat + (lmAt 0x8100).toNat * 2 ^ 64 + (2 + 2 ^ 32) * 2 ^ 128 + (lmAt 0x8200).toNat * 2 ^ 192 + (16 + 16 * 2 ^ 32) * 2 ^ 256
/-- See `mergeBlk`. -/
def compactBlk : Nat :=
  (lmAt 0x8000).toNat + (lmAt 0x8200).toNat * 2 ^ 64 + (8 + 100 * 2 ^ 32) * 2 ^ 128 + 16 * 2 ^ 192

/-- What keeps a started command of `merging` back, and where its results and its operands lie. -/
def mergeReady (s : State) (a : Nat) : Option (Bool × Nat × Nat) :=
  (cmdAt 0 1 0 s).map fun q =>
    (q.2.fin.isNone && q.2.started && !engineHolds 0 1 q.2 s && decide (q.2.pos = 0 ∧ q.2.vt = 0),
     (match tileReach 0 0 (q.2.pblk + 120) 8 q.2 .store s with | .ok _ k _ _ => k | _ => 0),
     match cmdReach 0 1 q.2 .store 8 (lmAt a) s with | .ok t k _ _ => if storeLost k 8 t || (readError k 8 t).isSome then 0 else k | _ => 0)

/-- The inputs and the outputs of both can be reached, the inputs rise, and the merge of 17 R361 is (1, 10), (3, 25). -/
theorem test_hyps_merge :
    (∀ a ∈ [0x8000, 0x8100, 0x8200], mergeReady (merging 0x14 255 mergeBlk) a = some (true, lmKey 0 0xA078, lmKey 0 a) ∧
      mergeReady (merging 0x15 0 compactBlk) a = some (true, lmKey 0 0xA078, lmKey 0 a)) ∧
    Memory.wf (merging 0x14 255 mergeBlk).mem = true ∧ (2 + 1) * 256 ≤ 255 * 16 ∧ 0 * 16 < (2 + 1) * 256 := by decide +kernel

theorem test_hyps_merge_order :
    Rising 16 [(1, 10), (3, 20)] ∧ Rising 16 [(3, 5)] ∧ valueSum 0 20 5 = 25 ∧ ([(1, 10), (3, 25)] : List (Nat × Nat)).Pairwise (fun x y => x.1 < y.1) ∧
    zeroValue 1 0x80000000 ∧ ¬ zeroValue 1 0x7FC00000 ∧ zeroValue 2 (2 ^ 63) ∧ ¬ zeroValue 0 (2 ^ 31) := by
  unfold Rising zeroValue; decide

/-- 17 R361, R362: the records, OUTN and FORM; sparse, dense and compacted (1, 10, 3 and 20 stand at 0x8000, and zeros above). -/
theorem test_merge :
    let out (t : State) (n : Nat) := (genList n fun i => memValue t.mem 4 (lmKey 0 (0x8200 + 4 * i)), memValue t.mem 8 (lmKey 0 0xA078))
    ((after (exec (.merge 0 1 0) (merging 0x14 255 mergeBlk))).map fun t => out t 4) = some ([1, 10, 3, 25], 2) ∧
    ((after (exec (.merge 0 1 0) (merging 0x14 0 mergeBlk))).map fun t => out t 4) = some ([0, 10, 0, 25], 16 + 2 ^ 32) ∧
    ((after (exec (.compact 0 1 0) (merging 0x15 0 compactBlk))).map fun t => out t 8) = some ([100, 1, 101, 10, 102, 3, 103, 20], 4) := by
  decide +kernel

/-- A TMMA of one block and one chunk, of FP16 by FP16 tiles at 0x8000 and 0xA000 into FP32 at 0xC000, at part `pos` of it. -/
def tiling (pos : Nat) : State :=
  let w := BitVec.ofNat 256 (2 ^ 248 + 3 * 2 ^ 240 + 3 * 2 ^ 146 + 3 * 2 ^ 142 + 2 ^ 126 + 2 ^ 120 + 2 ^ 112 + 0x200 * 2 ^ 96 + 0x280 * 2 ^ 80 + 0x300 * 2 ^ 64)
  let m : Cmd := { command w user with fired := true, started := true, pos := pos, acc := List.replicate 1024 0 }
  { user with core := { user.core with queues := vecSet user.core.queues 0 [m] }
              mem := memWrite (lmKey 0 0x8000) (leBytes 2 0x3C00) (memWrite (lmKey 0 0xA000) (leBytes 2 0x4000) [])
              seq := 1 }

/-- What keeps the command of `tiling` back, and its shape. -/
def tileReady (pos : Nat) : Option (Nat × Nat × Bool × Nat) :=
  (cmdAt 0 0 0 (tiling pos)).map fun p =>
    (p.2.opc, p.2.pos, p.2.fin.isNone && !engineHolds 0 0 p.2 (tiling pos) && !p.2.accIn && (tileBadMask 0 p.2).isNone, p.2.nb * p.2.kb)

/-- The key of a tile of the command of `tiling`, where it can be reached and read. -/
def tileKey (adr size : Cmd → Nat) (k : Kind) : Option Nat :=
  (cmdAt 0 0 0 (tiling 1)).map fun p =>
    match tileReach 0 (fieldCore 0 (adr p.2)) (fieldOff (adr p.2)) (size p.2) p.2 k (tiling 1) with
    | .ok t q _ _ => if (readError q (size p.2) t).isNone then q else 0
    | _ => 0

/-- The load, the chunk and the store of the TMMA: its tiles can be reached, and nothing keeps it back. -/
theorem test_hyps_tiles :
    tileReady 0 = some (1, 0, true, 1) ∧ tileReady 1 = some (1, 1, true, 1) ∧ tileReady 2 = some (1, 2, true, 1) ∧
    tileKey Cmd.aadr Cmd.ta .load = some (lmKey 0 0x8000) ∧ tileKey Cmd.badr Cmd.tb .load = some (lmKey 0 0xA000) ∧
    tileKey Cmd.cadr Cmd.tc .store = some (lmKey 0 0xC000) := by decide +kernel

/-- 16 R351: the one product 1.0 × 2.0 stands in element (0, 0) of the accumulator. -/
theorem test_tile_chunk :
    ((after (exec (.tmma 0 0 0) (tiling 1))).bind fun t => (cmdAt 0 0 0 t).map fun p => (nth 0 p.2.acc 0, nth 0 p.2.acc 1, p.2.pos)) =
      some (0x40000000, 0, 2) := by decide +kernel

/-- A completion whose inbox has room, one that has no room, and one that another waits before. -/
theorem test_hyps_completion :
    let x : Completion := { palCompletion { entry := 0, core := 0, tid := 0, mem := none, after := [], started := true, installing := false,
                                            waiting := [], done := none } 0 user with status := 0 }
    let s := copying copyTcw fun m => { m with started := true, fin := some x }
    let m : Cmd := { command copyTcw user with fired := true, started := true, fin := some x }
    cmdAt 0 1 0 s = some ([], m) ∧ m.tid < 4 ∧ (getCore 0 s).pre = .none ∧ (getCore 0 s).owner = some (m.pid, m.lid) ∧ (getCore 0 s).spilled m.tid = false ∧
    ((getCore 0 s).inboxOf m.tid).length + 2 * inFlight m.pid m.lid 0 m.tid s < 16 ∧
    earlierWaits 0 m s.seq (completeStep2 0 1 m x s) = false ∧ earlierWaits 0 m 0 s = false ∧
    earlierWaits 0 m 5 (copying copyTcw fun m => { m with ord := some 3 }) = true ∧
    ((after (exec (.commandCompletion 0 1 0) s)).map fun t => ((vecGet t.core.queues 1).length, (t.core.inboxOf 0).map fun e => e.kind)) =
      some (0, [3]) :=
  ⟨by decide +kernel, by decide, by decide, by decide, by decide, by decide, by decide +kernel, by decide +kernel, by decide +kernel, by decide +kernel⟩

/-! ## Queues, packets and launches -/

/-- Queue 0 of the partition with a ring of 16 entries at virtual address 0x50000, one entry published; what stands in memory; the
copies that its fetch unit holds. -/
def queueing (st : QueueSt) (copies : List PktCopy) (m : List (Nat × List Byte)) : State :=
  { mapped with
    launches := []
    queues := [{ pid := 1, q := 0, st := st, door := some 1, point := { ring := 0, l1 := none, l2 := none }, skip := 0, copies := copies,
                 edges := [], gateRead := false, ticket := none }]
    mem := m.foldl (fun x e => memWrite e.1 e.2 x) (memWrite 0x20000 (leBytes 8 0x50000 ++ [4, 1, 0, 5]) mapped.mem) }

/-- The queue of `queueing`, running, with the packet `v` at its processing point. -/
def packet (v : Nat) : State := queueing .running [{ pos := { ring := 0, l1 := none, l2 := none }, data := leBytes 64 v }] []

/-- That queue. -/
def queue0 (v : Nat) : Queue :=
  { pid := 1, q := 0, st := .running, door := some 1, point := { ring := 0, l1 := none, l2 := none }, skip := 0,
    copies := [{ pos := { ring := 0, l1 := none, l2 := none }, data := leBytes 64 v }], edges := [], gateRead := false, ticket := none }

/-- A doorbell within the ring and one beyond it; a descriptor that meets its limits. -/
theorem test_hyps_queue_control :
    RunningQueue 1 0 part (queue0 0) (packet 0) ∧ ringSize part.rcd 0 (packet 0) = 16 ∧ (16 + 2 ^ 32 - 0) % 2 ^ 32 ≤ 16 ∧
    16 < (17 + 2 ^ 32 - 0) % 2 ^ 32 ∧ descOk part.rcd 0 (packet 0) = true ∧
    descOk part.rcd 0 { mapped with mem := [(0x20008, 3)] } = false ∧ descField part.rcd 0 16 4 (packet 0) = 0 ∧
    (packet 0).gwerid = .up ∧ { packet 0 with gwerid := GweridSt.down }.gwerid = .down :=
  ⟨⟨by decide +kernel, by decide +kernel, rfl, rfl, by decide, by decide, by decide +kernel⟩, by decide +kernel⟩

theorem test_doorbell :
    ((after (exec (.doorbell 1 0 17) (packet 0))).map fun t =>
      (descField part.rcd 0 9 1 t, descField part.rcd 0 10 1 t, descField part.rcd 0 24 8 t, t.irqs)) = some (2, 5, 0x50000, [0x45]) := by
  decide +kernel

theorem test_queue_start :
    ((after (exec (.queueStateWrite 1 0 1) (queueing .disabled [] []))).map fun t =>
      ((t.queues.map fun x => x.st), descField part.rcd 0 9 1 t)) = some ([.running], 1) ∧
    ((after (exec (.queueStateWrite 1 0 0) (packet 0))).map fun t => ((t.queues.map fun x => (x.st, x.copies.length)), descField part.rcd 0 9 1 t)) =
      some ([(.disabled, 0)], 0) := by decide +kernel

/-- PACKET_FETCH: the packet at the point, a fault there, and nothing published. -/
theorem test_hyps_packet_fetch :
    let s := queueing .running [] []
    let x := { queue0 0 with copies := [] }
    x.fetchPos = x.point ∧ published part.rcd x.fetchPos x s = true ∧ packetVa part.rcd 0 x.fetchPos s = 0x50000 ∧
    (match feRead part.rcd 0 64 0x50000 s with | .ok _ v _ => v == 0 | _ => false) = true ∧
    (match feRead part.rcd 0 64 (5 * 2 ^ 33) s with | .fault _ _ _ => true | _ => false) = true ∧
    published part.rcd { ring := 1, l1 := none, l2 := none } x s = false ∧
    published part.rcd { ring := 6, l1 := none, l2 := none } { x with door := some 3 } s = false ∧ (queue0 7).fetchPos ≠ (queue0 7).point := by decide +kernel

/-- Packets of every type at the processing point. -/
theorem test_hyps_packets :
    (∀ ty ∈ [0, 1, 2, 3, 4, 5, 6, 7, 8, 255], RunningQueue 1 0 part (queue0 ty) (packet ty) ∧ (queue0 ty).pointCopy = some ty ∧
      pType ty = ty ∧ pBarrier ty = false ∧ pFlagsBad ty = false) ∧
    pf 7 2 62 = 0 ∧ (queue0 0).point.level = 0 ∧
    ({ ring := 0, l1 := some (pBuf 0), l2 := some (pBuf 0) } : Cursor).level = 2 ∧ pBufBad 2 = true ∧ pBufBad (2 + 2 ^ 16) = false ∧
    pBufBad (4 + 2 ^ 16 + 2 ^ 32) = false ∧ pf (4 + 2 ^ 16 + 2 ^ 32) 4 2 ≠ 0 :=
  ⟨by unfold RunningQueue QueueIn; decide +kernel, by decide +kernel⟩

theorem test_hyps_packets_reading :
    predicateBad (3 + 2 ^ 24) = false ∧ predicateBad (3 + 4 * 2 ^ 16) = true ∧ fenceBad 5 = false ∧ fenceBad (5 + 2 ^ 16) = true ∧ pf 5 8 8 = 0 ∧
    pf (5 + 2 ^ 67) 8 8 ≠ 0 ∧ (match feRead part.rcd 0 8 8 (packet 5) with | .ok _ v _ => v == 0 | _ => false) = true ∧
    (match placeVa 1 0x60000 .store .forbid (packet 6) with
     | .ok t key _ _ => !storeLost key 8 t && key == 0x60000 && decide (physKey part.rcd (descAddr part.rcd 0) + 64 ≤ key)
     | _ => false) = true := by decide +kernel

theorem test_packets :
    ((after (exec (.nopPacket 1 0) (packet (7 + 2 ^ 9)))).map fun t => ((t.queues.map fun x => x.point.ring), t.irqs)) =
      some ([1], [0x45]) ∧
    ((after (exec (.indirect 1 0) (packet (2 + 2 ^ 17 + 0x60000 * 2 ^ 64)))).map fun t => t.queues.map fun x => packetVa part.rcd 0 x.point t) =
      some [0x60000] ∧
    ((after (exec (.badTypePacket 1 0) (packet 9))).map fun t => (descField part.rcd 0 9 1 t, descField part.rcd 0 10 1 t)) = some (2, 1) ∧
    ((after (exec (.timestamp 1 0) { packet (6 + 0x60000 * 2 ^ 64) with time := 77 })).map fun t => memValue t.mem 8 0x60000) = some 77 := by
  decide +kernel

/-- A launch packet of one core without a deadline, with a staging header of zeros at 0x70000, and a record at 0x80000. -/
def launchPkt : Nat := 1 + (2 ^ 64 - 1) * 2 ^ 64 + 0x1000 * 2 ^ (8 * 44) + 0x70000 * 2 ^ (8 * 48) + 0x80000 * 2 ^ (8 * 56)

/-- LAUNCH: admitted, and each check that refuses it. -/
theorem test_hyps_launch :
    let s := packet launchPkt
    let v := launchPkt
    part.capFell = false ∧ lpMalformed v false = false ∧ lpMalformed (v + 3 * 2 ^ 30) false = true ∧ shapeBad 1 v false s = false ∧
    shapeBad 1 (v + 7 * 2 ^ 16) false s = true ∧ (match feRead part.rcd 0 64 (pf v 48 8) s with | .ok _ h _ => h == 0 | _ => false) = true ∧
    (match feRead part.rcd 0 64 (5 * 2 ^ 33) s with | .fault _ _ _ => true | _ => false) = true ∧
    headerOk 0 none = true ∧ headerOk 1 none = false ∧ lpN v < pf (2 * 2 ^ 48) 6 1 ∧ lpDeadline v = noDeadline :=
  by decide +kernel

/-- A launch packet at the point of a HALTED queue, and a partition whose capacity has fallen. -/
theorem test_hyps_launch_halted :
    PacketIn .halted 1 1 0 part { queue0 launchPkt with st := .halted }
      launchPkt (queueing .halted [{ pos := { ring := 0, l1 := none, l2 := none }, data := leBytes 64 launchPkt }] []) ∧
    (demotedAfterFall { part with capFell := true } { packet launchPkt with parts := [{ part with capFell := true }] }).parts.map (fun p => p.capFell) =
      [false] ∧ pBarrier launchPkt = false :=
  ⟨⟨⟨by decide +kernel, by decide +kernel, rfl, rfl, by decide, by decide, by decide +kernel⟩, by decide +kernel, by decide +kernel, by decide +kernel⟩,
    by decide +kernel⟩

/-- 09 R213: a launch packet in a HALTED queue is refused with code 7. -/
theorem test_launch_halted :
    (after (exec (.launch 1 0) (queueing .halted [{ pos := { ring := 0, l1 := none, l2 := none }, data := leBytes 64 launchPkt }] []))).map
      (fun t => (t.launches.length, memValue t.mem 2 0x80000)) = some (0, 0x107) := by decide +kernel

theorem test_hyps_launch_refused :
    let s := packet launchPkt
    let dated := launchPkt - (2 ^ 64 - 1) * 2 ^ 64 + 2 ^ 64
    lpDeadline dated ≠ noDeadline ∧ lpDeadline dated ≤ ({ s with time := 1 } : State).time ∧ s.time < lpDeadline dated ∧
    quotaBad part.rcd launchPkt s = false ∧ quotaBad { part.rcd with shareM := 0 } (launchPkt + 2 ^ (8 * 24)) s = true ∧
    infeasible part.rcd (launchFrom part.rcd (queue0 0) (dated + 2 ^ (8 * 16 + 40)) 0 0 s) s = true ∧
    infeasible part.rcd (launchFrom part.rcd (queue0 0) (dated + (2 ^ 60 - 1) * 2 ^ 64) 0 0 s) s = false := by
  decide +kernel

theorem test_launch :
    ((after (exec (.launch 1 0) (packet launchPkt))).map fun t => ((t.launches.map fun l => (l.lid, l.st, l.entry)), (t.queues.map fun x => x.point.ring))) =
      some ([(8, .admitted, 0x1000)], [1]) ∧
    ((after (exec (.launch 1 0) (packet (launchPkt + 7 * 2 ^ 16)))).map fun t => (t.launches.length, memValue t.mem 2 0x80000)) =
      some (0, 0x104) := by decide +kernel

/-! ## Launches and stages -/

/-- `launch` as it waits for a position, and when it has one, with an image of 16 bytes and 2 constants. -/
def waiting (st : LaunchSt) : Launch := { launch with st := st, imgBytes := 16, kwords := 2, lmbase := 0x1000 }

/-- `mapped` with one launch; no core is held. -/
def launching (l : Launch) : State := { mapped with launches := [l], core := { mapped.core with owner := none } }

/-- Dispatch and start: a launch that goes first with a free position, one placed on a core that it can claim, and one whose image lands. -/
theorem test_hyps_launch_start :
    waitingLaunches 1 (launching (waiting .admitted)) = [waiting .admitted] ∧
    launchOf 1 7 (launching (waiting .admitted)) = some (waiting .admitted) ∧
    freePosition (waiting .admitted) [] (launching (waiting .admitted)) = some (0, 0) ∧
    (∀ c ∈ (waiting .placed).cores, claimable c (launching (waiting .placed)) = true ∧ c < 2048) ∧
    (waiting .placed).cores.Nodup ∧
    (match readImage (waiting .placed) (launching (waiting .placed)) with
     | .bytes x t => x.length == 24 && Memory.wf t.mem && (stagingHost (waiting .placed) t).isNone
     | _ => false) = true ∧ (waiting .placed).lmbase + 16 ≤ 0xFC000 := by decide +kernel

theorem test_launch_start :
    ((after (exec (.launchStart 1 7) { launching (waiting .placed) with mem := memWrite 0x200040 (leBytes 24 0x0807060504030201) mapped.mem })).map
      fun t => (t.core.owner, memValue t.mem 8 (lmKey 0 0x1000), (getTs 0 2 t).pc, (getTs 0 2 t).tsid, t.launches.map fun l => l.st)) =
      some (some (1, 7), 0x0807060504030201, 0x1000, 2, [.multicast]) := by decide +kernel

theorem test_launch_released :
    ((after (exec (.imageMulticastDone 1 7) { launching (waiting .multicast) with core := { mapped.core with owner := some (1, 7) } })).map
      fun t => ((List.range 4).map fun i => (getTs 0 i t).run)) = some [.ready, .ready, .ready, .ready] := by decide +kernel

/-- `user` with every thread set ENDED. -/
def ended : State :=
  { withTs (fun t => { t with run := .ended }) mapped with
    core := { mapped.core with tsets := vecGen 7 fun i => { ThreadSet.reset i with run := .ended } } }

theorem test_hyps_launch_end :
    launchOf 1 7 ended = some launch ∧ launchDone launch ended = true ∧ (∀ c ∈ launch.cores, coreRetiring c ended = false) ∧
    ({ launch with kill := some 2 } : Launch).kill = some 2 ∧ launch.kill = none := by decide +kernel

theorem test_launch_end :
    ((after (exec (.launchComplete 1 7) ended)).map fun t => (t.launches.length, t.core.owner)) = some (0, none) ∧
    ((after (exec (.eviction 1 7 4) ended)).map fun t => (memValue t.mem 2 launch.compl, t.core.owner)) = some (0x400, none) := by
  decide +kernel

/-- A launch that has used class 1 up, one in its grace, and one whose grace has run out. -/
def spent (n policy : Nat) : Launch :=
  { launch with charged := vecGen 4 fun k => if k = 1 then n else 0, grace := vecGen 4 fun k => if k = 1 then some 62500 else none,
                policy := policy }

theorem test_hyps_overrun :
    ∀ p ∈ [0, 1, 2], RunningLaunch 1 7 (spent 1000000 p) { user with launches := [spent 1000000 p] } ∧
      (spent 1000000 p).demoted = false ∧ vecGet (spent 1000000 p).unlimited 1 = false ∧ vecGet (spent 1000000 p).trapped 1 = false ∧
      vecGet (spent 1000000 p).charged 1 ≠ 0 ∧ vecGet (spent 1000000 p).declared 1 ≤ vecGet (spent 1000000 p).charged 1 ∧
      (spent 1000000 p).ctxs = [] ∧ (spent 1000000 p).cores.Nodup := by
  unfold RunningLaunch; decide +kernel

theorem test_hyps_grace :
    vecGet (spent 0 0).grace 1 = some 62500 ∧ vecGet (spent 0 0).declared 1 + 62500 ≤ vecGet (spent 1062500 0).charged 1 ∧
    vecGet (spent 1062499 0).charged 1 < vecGet (spent 0 0).declared 1 + 62500 := by decide +kernel

/-- A launch whose grace of class `k` is 0, with the count from which the first charge after the event is known. -/
def graceless (k n : Nat) (from? : Option Nat) : Launch :=
  { launch with charged := vecGen 4 fun i => if i = 1 then n else 0, grace := vecGen 4 fun i => if i = k then some 0 else none,
                graceFrom := vecGen 4 fun i => if i = 1 then from? else none }

/-- A grace of 0: a charge since, none since, class C, and a thread set that has still to take the event. -/
theorem test_hyps_grace_zero :
    (let l := graceless 1 16 (some 15)
     RunningLaunch 1 7 l { user with launches := [l] } ∧ l.demoted = false ∧ vecGet l.grace 1 = some 0 ∧
     overTaken l 1 { user with launches := [l] } = true ∧ vecGet l.graceFrom 1 = some 15 ∧ 15 < vecGet l.charged 1) ∧
    (let l := graceless 1 15 (some 15)
     vecGet l.graceFrom 1 = some 15 ∧ vecGet l.charged 1 ≤ 15) ∧
    vecGet (graceless 0 0 none).grace 0 = some 0 ∧
    overTaken (graceless 1 16 (some 15)) 1 (withTs (fun t => { t with sched := [{ code := 0x40, detail := 1, val := 0 }] }) user) = false := by
  unfold RunningLaunch; decide +kernel

theorem test_overrun :
    ((after (exec (.budgetOverrun 1 7 1) { user with launches := [spent 1000000 0] })).map fun t =>
      (t.ts.sched.map fun e => (e.code, e.detail, e.val), t.launches.map fun l => (l.ovTrap, l.overC))) =
      some ([(0x40, 1, 62500)], [(true, some 1)]) ∧
    ((after (exec (.graceExpiry 1 7 1) { user with launches := [spent 1062500 0] })).map fun t => t.launches.map fun l => l.kill) =
      some [some 2] ∧
    ((after (exec (.deadlineMissed 1 7) { user with time := 1000 })).map fun t => t.launches.map fun l => l.missed) = some [true] := by
  decide +kernel

/-- `staging` with a record in the ring of its stage and thread set 1 IDLE. -/
def record (x : Nat) : State :=
  { staging with
    launches := [{ launch with stages := [0x3000] }]
    tlb := mapped.tlb, mem := mapped.mem
    core := { staging.core with
      rings := vecSet staging.core.rings 0 [{ data := leBytes 64 x, home := 0 }]
      tsets := vecSet staging.core.tsets 1 { ThreadSet.reset 1 with run := .idle, tvec := 0x2001 } } }

/-- RECORD_DISPATCH: a record of no ranges, and one whose range faults. -/
theorem test_hyps_record :
    let l : Launch := { launch with stages := [0x3000] }
    let bad : Nat := 2 ^ 64 + 5 * 2 ^ 33 * 2 ^ 128 + 2 ^ 208
    ∀ x ∈ [0, bad], (getCore 0 (record x)).owner = some (1, 7) ∧ RunningLaunch 1 7 l (record x) ∧
      (getCore 0 (record x)).stage = some 0 ∧ leValue (leBytes 64 x) = x ∧
      (List.range 4).find? (fun j => (vecGet (getCore 0 (record x)).tsets j).run == .idle) = some 1 ∧
      pinsMeet 1 x (getCore 0 (record x)) = false ∧ (getCore 0 (record x)).lent = [] ∧ (getCore 0 (record x)).pre = .none ∧
      (let f := fetchRanges l 0 1 x (takeBack 0 x (record x))
       f.merr = none ∧ f.wait = false ∧ f.fault.isSome = (x == bad)) := by
  unfold RunningLaunch; decide +kernel

theorem test_record :
    ((after (exec (.recordDispatch 0) (record (7 + 9 * 2 ^ 448)))).map fun t =>
      ((getTs 0 1 t).pc, (getTs 0 1 t).run, vecGet (getTs 0 1 t).s 1, vecGet (getTs 0 1 t).s 8, (vecGet t.core.rings 0).length)) =
      some (0x3000, .ready, 7, 9, 0) := by decide +kernel

/-- A launch of four cores and two stages, all four cores at stage `d`, with `n` records in each ring, and full rings met at stage 1. -/
def staged4 (n : Nat) : State :=
  let k (c : Nat) : Core := { Core.reset with
    owner := some (1, 7), stage := some (if c = 1 then 1 else 0), tsets := vecGen 7 fun i => { ThreadSet.reset i with run := .idle }
    rings := vecGen 8 fun i => if i = 1 ∧ c = 1 then List.replicate n { data := leBytes 64 0, home := 0 } else []
    ringFull := vecGen 8 fun _ => 0 }
  { withTs (fun t => { t with run := .idle }) user with
    core := k 0, cores := [(1, k 1), (64, k 64), (65, k 65)], launches := [{ launch with lgw := 1, lgh := 1, stages := [0x3000, 0x4000] }] }

theorem test_hyps_rebalance :
    let s := staged4 4
    let l : Launch := { launch with lgw := 1, lgh := 1, stages := [0x3000, 0x4000] }
    HoldsCores 1 7 l s ∧ stageLoad l s 0 = (0, 3, 0) ∧ stageLoad l s 1 = (4, 1, 0) ∧
    pressureLt (stageLoad l s 0) (stageLoad l s 1) = true ∧ 2 * 0 * 1 + 1 * 3 ≤ 4 * 3 + 0 * 1 * 3 := by
  unfold HoldsCores RunningLaunch; decide +kernel

theorem test_rebalance :
    ((after (exec (.stageRebalance 1 7) (staged4 4))).map fun t => ([0, 1, 64, 65].map fun c => ((getCore c t).stage, (getCore c t).joining))) =
      some [(none, some 1), (some 1, none), (some 0, none), (some 0, none)] := by decide +kernel

theorem test_hyps_stage_end :
    let l : Launch := { launch with lgw := 1, lgh := 1, stages := [0x3000, 0x4000] }
    HoldsCores 1 7 l (staged4 0) ∧ (∀ c ∈ l.cores, coreIdle (getCore c (staged4 0)) = true) ∧
    (∃ c ∈ l.cores, coreIdle (getCore c (staged4 1)) = false) ∧
    (∀ t, t < 4 → (vecGet (getCore 0 (staged4 0)).tsets t).run = .idle) ∧ (∃ t, t < 4 ∧ (vecGet (getCore 0 user).tsets t).run ≠ .idle) := by
  unfold HoldsCores RunningLaunch; decide +kernel

/-! ## Instruction boundaries, scheduling and firmware's registers -/

/-- A completion that raises a user-level interrupt with handler index `h`, and a thread set that takes it. -/
def uxOf (h : Nat) : Completion :=
  { tag := 5, status := 0, cls := 1, units := 0, faddr := 0, fcode := 0, fdetail := 0, pcount := 0, pmask := 0, tdone := 0, uxh := h }

/-- `user` with the completion and UXEN set, and with a scheduling event. -/
def interrupted (h : Nat) (uxvec : Word) : State :=
  withTs (fun t => { t with ux := [uxOf h], status := 4, uxvec := uxvec, sched := [{ code := 0x40, detail := 1, val := 9 }] }) user

theorem test_hyps_boundary :
    (interrupted 0 0x3001).ts.ux = [uxOf 0] ∧ (interrupted 0 0x3001).ts.status.getLsbD 2 = true ∧
    (interrupted 0 0x3001).ts.status.getLsbD 1 = false ∧ (interrupted 0 0x3001).ts.uxvec.getLsbD 0 = true ∧
    bitsOf (interrupted 0 0x3001).ts.uxvec.toNat 2 18 < 0x3F000 ∧ (uxOf 0x3EFFF).uxh < 0x3F000 ∧ 0x3F000 ≤ (uxOf 0x3F000).uxh ∧
    CanTrap (interrupted 0 0) ∧ (interrupted 0 0).ts.uxvec.getLsbD 0 = false ∧ (interrupted 0 0).ts.run.live = true ∧
    ¬ CanTrap (withTs (fun t => { t with tvec := 0 }) user) ∧ user.ts.ux = [] ∧ user.ts.sched = [] := by unfold CanTrap; decide

/-- Nothing of the gang barrier is due, and its decision is. -/
theorem test_hyps_boundary_gang :
    let g : GangArrival := { tid := 0, sparse := false, d := 1, aCore := 0, aOff := 0, bCore := 0, bOff := 0, wins := [], ctx := 0, decided := none, started := true }
    gangDecided (interrupted 0 0x3001) = false ∧ gangDecided { user with core := { user.core with gang := some g } } = true := by decide

theorem test_ux_entry :
    ((after (exec .uxEntry (interrupted 0 0x3001))).map fun t => (t.ts.pc, t.ts.uxepc, t.ts.status, t.ts.uxid)) =
      some (0x3000, 0x1000, 8, 0x10005) ∧
    ((after (exec .uxEntry (interrupted 0x3F000 0))).map fun t => (t.ts.pc, t.ts.ecause, t.ts.eval)) = some (0x2000, 0x60, 0xFC000) ∧
    ((after (exec .schedulingEvent (interrupted 0 0))).map fun t => (t.ts.pc, t.ts.ecause, t.ts.eval, t.ts.sched.length)) =
      some (0x2000, 0x140, 9, 0) := by decide

/-- `user` with thread set 1 READY as well, after `n` issues in a row. -/
def shared (n : Nat) : State :=
  { user with core := { user.core with count := n, tsets := vecSet user.core.tsets 1 { ThreadSet.reset 1 with run := .ready } } }

/-- `user` HALTED at an address, in the service phase. -/
def haltedAt (p : PcWord) : State :=
  { withTs (fun t => { t with run := .halted, pc := p }) user with fw := { Firmware.reset with booted := true } }

theorem test_hyps_scheduling :
    (∀ n ∈ [255, 256], (cyclic (shared n).core.cur).find? (fun i => i != (shared n).core.cur && isReady i (shared n)) = some 1) ∧
    launchOf (bitsOf user.ts.partid.toNat 0 4) (bitsOf user.ts.launchid.toNat 0 32) user = some launch ∧
    (let s : State := { withTs (fun t => { t with run := .halted }) user with fw := { Firmware.reset with booted := true } }
     s.fw.booted = true ∧ (getTs 0 0 s).run = .halted ∧ 0 ∉ s.fw.erred ∧ 0 ∈ { s.fw with erred := [0] }.erred ∧
     (getTs 0 0 s).pc.toNat + 4 < fetchLimit (focusOn 0 0 s)) ∧
    (let s := haltedAt 0xFBFFC
     fetchLimit (focusOn 0 0 s) ≤ (getTs 0 0 s).pc.toNat + 4 ∧ CanTrap (focusOn 0 0 s)) := by unfold CanTrap; decide

theorem test_restart :
    ((after (exec (.restart 0 0) (haltedAt 0x1000))).map fun t => (t.ts.pc, t.ts.run)) = some (0x1004, .ready) ∧
    ((after (exec (.restart 0 0) (haltedAt 0xFBFFC))).map fun t => (t.ts.pc, t.ts.ecause, t.ts.eval)) = some (0x2000, 4, 0xFC000) := by
  decide

theorem test_scheduling :
    ((after (exec .threadSwitch (shared 256))).map fun t => (t.tid, t.core.cur, t.core.count)) = some (1, 1, 0) ∧
    ((after (exec .budgetRefresh user)).map fun t => vecGet t.ts.budget 0) = some 1000000 := by decide

/-- OPORTCFG: values within its limits and beyond them, with lanes enough and without. -/
theorem test_hyps_oportcfg :
    let o := vecGet State.reset.optics 0
    PortValueOk 0x410 ∧ ¬ PortValueOk 0x11 ∧ ¬ PortValueOk 0xC00 ∧ ¬ PortValueOk 0x1000 ∧
    (o.modPort 0 fun p => { p with cfg := 16 }).minSum ≤ (o.modPort 0 fun p => { p with cfg := 16 }).available ∧
    (o.modPort 0 fun p => { p with cfg := 16 }).available <
      ((((o.modPort 0 fun p => { p with cfg := 16 }).modPort 1 fun p => { p with cfg := 16 }).modPort 2 fun p => { p with cfg := 16 }).modPort 3
        fun p => { p with cfg := 40 }).minSum := by unfold PortValueOk; decide

theorem test_hyps_registers :
    Free (useD 3) super ∧ Free (useD 3) user ∧ super.ts.status.getLsbD 0 = true ∧ isHostPa 0x40 = false ∧
    (2 ^ 31 : Word).getLsbD 31 = true := ⟨by unfold Free; decide, by unfold Free; decide, by decide, by decide, by decide⟩

theorem test_scrubbing :
    ((after (exec (.scrubbing 0x40) { user with soft := [8, 9] })).map fun t => t.soft) = some [9] ∧
    ((after (exec (.fwctlWrite 64 0xFFFF) user)).map fun t => (getCore 64 t).fwctl) = some 0x7FFF := by decide

/-! ## Pre-emption, the host, partitions and penumbra contexts -/

/-- Every save frame of `part` lies in one piece. -/
theorem frame_whole (f : Nat) (h : f < 8) : FrameWhole part.rcd f := by
  have k : ∀ off, off < 1146880 → frameKey part.rcd f off = 0x100000 + f * 1146880 + off := by
    intro off ho
    have : isSharedPa (0x100000 + f * 1146880 + off) = false := by
      have : ¬ paShared ≤ 0x100000 + f * 1146880 + off := by unfold paShared; omega
      simp [isSharedPa, this]
    simp [frameKey, physKey, part, frameSize, this]
  refine ⟨by rw [k 0 (by omega)]; omega, fun off ho => ?_⟩
  rw [k off ho, k 0 (by omega)]; omega

/-- `mapped` whose core is to go to a placed launch, with the message still to be sent or already there. -/
def preempted (st : PreSt) : State :=
  { mapped with launches := [launch, { launch with lid := 8, st := .placed }], core := { mapped.core with pre := st, mctx := ctx16 0 } }

theorem test_hyps_preempt :
    (getCore 0 (preempted .none)).owner = some (1, 7) ∧ RunningLaunch 1 7 launch (preempted .none) ∧ launch.pen = false ∧
    partOf 1 (preempted .none) = some part ∧ part.freeFrames = [0, 1] ∧ (getCore 0 (preempted .none)).pre = .none ∧
    Wanted 0 launch (preempted .none) ∧ ¬ Wanted 0 launch mapped := by
  unfold Wanted RunningLaunch; decide

theorem test_hyps_preemptible_point :
    let s := preempted (.asked 0)
    (getCore 0 s).pre = .asked 0 ∧ (getCore 0 s).matq = [] ∧ slotsDrained 0 s = true ∧ (getCore 0 s).lent = [] ∧ (getCore 0 s).spill.length ≤ 1024 ∧
    (∀ e ∈ (getCore 0 s).spill, e.2.data.length ≤ 64) ∧ launch.kill = none ∧ FrameWhole part.rcd 0 ∧
    Memory.wf s.mem = true ∧ (getCore 0 s).mctx.getLsbD 63 = true :=
  ⟨by decide, by decide, by decide, by decide, by decide, by decide, rfl, frame_whole 0 (by decide), by decide, by decide +kernel⟩

/-- A core that has been given up, and its launch, which waits for the resume. -/
def held : Launch := { launch with held := [{ core := 0, frame := 0, saved := Core.reset, spill := [] }] }

theorem test_hyps_resume :
    let s : State := { mapped with launches := [held], core := { mapped.core with owner := none } }
    RunningLaunch 1 7 held s ∧ (held.held.find? (fun h => resumable held h s)).map (fun h => (h.core, h.frame, h.spill.length)) = some (0, 0, 0) ∧
    (∀ h ∈ held.held, frameError part.rcd h s = none) ∧ FrameWhole part.rcd 0 ∧ Memory.wf s.mem = true :=
  ⟨⟨rfl, rfl, rfl⟩, by decide +kernel, fun h m => by
    simp only [held, List.mem_singleton] at m; subst m; decide +kernel, frame_whole 0 (by decide), by decide⟩

theorem test_hyps_host_answers :
    (∃ t, (forwarded (.thread 0 0)).tickets.find? (fun x => x.num == 3 && x.denied.isNone) = some t ∧ t.party = .thread 0 0) ∧
    (forwarded (.thread 0 0)).gwerid = .up ∧ launchOf 1 7 (forwarded (.launch 1 7)) = some { launch with st := .completed } ∧
    (∀ x ∈ (forwarded (.launch 1 7)).tickets, x.party = .launch 1 7 → x.num = 3) ∧ launch.compl < 2 ^ 53 ∧ launch.compl % 32 = 0 ∧ launch.notify = false ∧
    (match placeVa 1 launch.compl .store .forbid { forwarded (.launch 1 7) with tickets := [] } with
     | .ok v key _ _ => !storeLost key 32 v
     | _ => false) = true ∧ Memory.wf mapped.mem = true :=
  ⟨⟨_, rfl, rfl⟩, by decide⟩

theorem test_host_answer :
    ((after (exec (.hostFaultAnswer 3 true) (forwarded (.launch 1 7)))).map fun t => (t.launches.length, t.tickets.length,
      memValue t.mem 4 (0x300000 + 4))) = some (0, 0, 7) := by decide

theorem test_hyps_invalidation :
    let r : InvReq := { pid := 1, va := 0, pages := 1, seq := 5 }
    ({ mapped with invs := [r] } : State).invs.find? (fun x => x.pid == 1) = some r ∧
    (∃ x ∈ posted.pend, x.pid = 1 ∧ isLmKey x.key = false) ∧ (∀ x ∈ mapped.pend, x.pid = 1 → isLmKey x.key = true) :=
  ⟨rfl, ⟨storeEntry 0x40 0x40 .l1 0x40 [1, 2, 3, 4] 0 mapped, by decide, rfl, by decide⟩, by decide⟩

theorem test_invalidation :
    ((after (exec (.invalidationComplete 1) { mapped with invs := [{ pid := 1, va := 0, pages := 1, seq := 5 }] })).map fun t =>
      (t.tlb.map fun e => e.vpn, memValue t.mem 8 0x60008)) = some ([1, 2, 3, 1, 2, 3], 5) := by decide

/-- A partition record that firmware accepts, and a core that comes to it from partition 1. -/
def rec2 : PartRec := { part.rcd with pid := 2, cores := [2, 66, 130, 194], hbm := [(2 ^ 33, 2 ^ 33)], root := 2 ^ 33, shareM := 0, shareX := 0, shareO := 0 }

/-- A booted device. -/
def bootedDevice : State :=
  { State.reset with
    fw := { Firmware.reset with booted := true }
    cores := [(2, { Core.reset with tenant := some 1 })], mem := [(lmKey 2 5, 9)] }

theorem test_hyps_partitions :
    bootedDevice.fw.booted = true ∧ bootedDevice.gwerid = .up ∧ partitionOk rec2 bootedDevice = true ∧
    partitionOk { rec2 with cores := [2] } bootedDevice = false ∧ partOf 2 bootedDevice = none ∧ quiesced bootedDevice = true ∧
    quiesced user = false ∧ (getCore 2 bootedDevice).tenant = some 1 ∧ (∀ x ∈ bootedDevice.queues, x.pid ≠ 2) ∧
    Memory.wf bootedDevice.mem = true := by decide +kernel

/-- 09 R198: a new partition's queues are DISABLED without an error, whatever stood in their descriptors. -/
theorem test_partition_descriptors :
    (after (exec (.partitionCreate rec2) { bootedDevice with mem := memWrite (physKey rec2 (descAddr rec2 3) + 9) [2, 5] bootedDevice.mem })).map
      (fun t => (descField rec2 3 9 1 t, descField rec2 3 10 1 t)) = some (0, 0) := by decide +kernel

theorem test_partition :
    ((after (exec (.partitionCreate rec2) bootedDevice)).map fun t => (t.queues.length, memGet t.mem (lmKey 2 5), (getCore 2 t).tenant)) =
      some (64, 0, some 2) := by decide +kernel

theorem test_hyps_host_access :
    hostPlace 1 0x40 3 mapped = some 0x40 ∧ readError 0x40 8 mapped = none ∧ storeLost 0x40 8 mapped = false ∧
    NoBadLines mapped ∧ hostPlace 1 0x41 3 mapped = none ∧ hostPlace 1 (2 ^ 35) 3 mapped = none := by unfold NoBadLines; decide

theorem test_host_access :
    ((after (exec (.hostAccess (.write 1 0x40 3 0x55)) mapped)).map fun t => memValue t.mem 8 0x40) = some 0x55 ∧
    ((after (exec (.hostAccess (.amo 1 0x40 .add 3 2 0)) { mapped with mem := memWrite 0x40 (leBytes 8 40) mapped.mem })).map fun t =>
      (memValue t.mem 8 0x40, leValue t.hostData)) = some (42, 40) := by decide

/-- A partition that hosts its own penumbra launches from queue 0, with windows of 16 KiB. -/
def penPart : Partition := { part with rcd := { part.rcd with penhost := 2, penq := 1, pwin := [(0, 14)] } }

/-- A penumbra launch of one context. -/
def penLaunch (st : LaunchSt) (x : PenSt) : Launch :=
  { launch with lid := 9, pen := true, st := st, imgBytes := 16,
                ctxs := [{ rank := 0, st := x, core := 0, bank := 4, frame := 0, why := 0, cancelled := 0, saved := none, cmds := [] }] }

/-- A core that lends, with a penumbra launch. -/
def lending (st : LaunchSt) (x : PenSt) : State :=
  { mapped with
    parts := [penPart], launches := [launch, penLaunch st x]
    core := { mapped.core with lmhwm := 0xF0000 } }

theorem test_hyps_penumbra_placement :
    let s := lending .admitted .queued
    launchOf 1 9 s = some (penLaunch .admitted .queued) ∧ startableLaunch (penLaunch .admitted .queued) s = true ∧
    (∀ k ∈ penBefore s.launches (penLaunch .admitted .queued), startableLaunch k s = false ∨ penPosition k s = none) ∧
    penPosition (penLaunch .admitted .queued) s = some (0, 0) ∧
    (match readImage (penLaunch .admitted .queued) s with | .bytes x _ => x.length == 16 | _ => false) = true ∧
    (∀ r, r < 2 ^ 0 → ∃ z ∈ (penLaunch .admitted .queued).ctxs, z.rank = r) ∧ (rectCores 0 0 0 0).Nodup := by decide +kernel

theorem test_penumbra_placement :
    ((after (exec (.penumbraPlacement 1 9) (lending .admitted .queued))).map fun t =>
      ((getTs 0 4 t).run, (getTs 0 4 t).wbase, (getTs 0 4 t).wsize, t.launches.all fun l => l.ctxs.all fun x => x.st == .issuing)) =
      some (.ready, 0xF8000, 0x4000, true) := by decide +kernel

/-- A bank whose window is being taken back. -/
def reclaiming : State :=
  let w : Lent := { bank := 4, base := 0xF8000, size := 0x4000, reclaim := true }
  let t : ThreadSet := { ThreadSet.reset 4 with partid := 1, launchid := 9, run := .ready, wbase := 0xF8000, wsize := 0x4000, pc := 0x1000,
                                                s := vecSet (ThreadSet.reset 4).s 3 5 }
  let s := lending .running .issuing
  { s with core := { s.core with lent := [w], tsets := vecSet s.core.tsets 4 t }, mem := memWrite (lmKey 0 0xF8010) [7] s.mem }

theorem test_hyps_reclaim :
    let s := reclaiming
    (getCore 0 s).lent.map (fun w => (w.reclaim, w.bank, w.size)) = [(true, 4, 0x4000)] ∧ ctxRetiring 0 4 s = false ∧
    (ctxAt 0 4 s).map (fun p => (p.1.lid, p.2.frame)) = some (9, 0) ∧ partOf 1 s = some penPart ∧ bankCmds 0 4 s = [] ∧ s.pend = [] ∧
    (getCore 0 s).inboxOf 4 = [] ∧ Memory.wf s.mem = true ∧ 0xF8000 + 0x4000 ≤ 2 ^ 20 := by decide +kernel

theorem frame_whole_pen : FrameWhole penPart.rcd 0 := frame_whole 0 (by decide)

theorem test_hyps_replacement :
    let s := lending .running .parked
    let l := penLaunch .running .parked
    launchOf 1 9 s = some l ∧ l.kill = none ∧ (l.ctxs.find? fun z => z.rank == 0 && z.st == .parked).isSome = true ∧
    bankFor 1 (penWindow penPart.rcd l) 0 s = some (4, 0xF8000) ∧ penWindow penPart.rcd l ≤ 2 ^ 18 ∧
    frameBad (frameKey penPart.rcd 0 0) (0x1000 + penWindow penPart.rcd l) s = none ∧ Memory.wf s.mem = true := by decide +kernel

/-! ## Links, lanes, ports and the counting bus -/

/-- A booted device whose link between routers 68 and 69 has failed, and whose tree of escape routes is its root alone. -/
def broken : State :=
  { mapped with
    failed := [⟨68, 69⟩, ⟨67, 66⟩, ⟨67, 135⟩]
    fw := { Firmware.reset with booted := true, roles := [{ idx := 0, code := 6, core := 2048, mirror := 0 }] } }

/-- The way round of the flow from router 68 to router 69. -/
def wayRound : Detour := { flow := ⟨68, 69, 0⟩, route := [68, 0, 1, 69], escape := [68, 0, 1, 69] }

theorem test_hyps_mesh_links :
    adjacent 68 69 = true ∧ linkDown broken.failed (0, 1) = false ∧ linkDown broken.failed (68, 69) = true ∧ broken.fw.booted = true ∧
    (∃ r ∈ broken.fw.roles, r.code = 6) ∧ (⟨68, 69⟩ : Link) ∈ broken.failed ∧
    (∃ c ∈ part.rcd.cores, wayRound.flow.src = routerOf c broken ∨ wayRound.flow.dst = routerOf c broken) ∧
    launch.lid < 2 ^ 32 := by decide

theorem tree_done (l : List Link) (n d : Nat) (seen : List (Nat × Nat)) : growTree l n d [] seen = seen := by
  induction n generalizing d with
  | zero => rfl
  | succ n ih => simp [growTree, ih]

theorem grow_alone (l : List Link) (n root : Nat) (h : neighbours l root = []) :
    growTree l (n + 1) 0 [root] [(root, 0)] = [(root, 0)] := by
  simp [growTree, h, tree_done]

theorem broken_tree : treeDepths broken = [(67, 0)] := by
  have h : neighbours broken.failed 67 = [] := by decide
  have r : (fwCols broken.fw.table).foldl Nat.min 67 = 67 := by decide
  unfold treeDepths; rw [r]; exact grow_alone _ 2175 67 h

theorem test_hyps_reroute : detoursOk ⟨68, 69⟩ [wayRound] broken = true := by
  unfold detoursOk; rw [broken_tree]; decide

theorem test_reroute :
    ((after (exec (.linkReroute ⟨68, 69⟩ [wayRound]) broken)).map fun t =>
      (t.flows.map fun f => (f.route, f.escape, f.draining), t.launches.map fun l => l.degraded)) =
      some ([([68, 0, 1, 69], false, true)], [true]) := by
  have h : roleRuns 6 broken = true ∧ broken.failed.contains ⟨68, 69⟩ = true ∧ detoursOk ⟨68, 69⟩ [wayRound] broken = true :=
    ⟨by decide, by decide, test_hyps_reroute⟩
  show ((after (execLinkReroute ⟨68, 69⟩ [wayRound] broken)).map _) = _
  unfold execLinkReroute
  rw [if_pos h]
  decide +kernel

/-- A flow on its detour that has not drained. -/
def detoured : State := { broken with flows := [{ flow := wayRound.flow, route := wayRound.route, escape := false, draining := true, back := false, upto := 1 }] }

theorem test_hyps_drain_restore :
    (∃ x ∈ detoured.flows, x.flow = wayRound.flow ∧ x.draining = true) ∧ flowBusy wayRound.flow detoured = false ∧
    flowBusy wayRound.flow { detoured with pend := [{ storeEntry (lmKey 65 0x40) 0 .lm 0 [1] 0 mapped with core := 64 }] } = true ∧
    ((hopsOf (dorRoute 68 69)).all fun h => !linkDown (broken.failed.filter fun x => x != ⟨68, 69⟩) h) = true := by decide

theorem test_hyps_gwerid :
    (forwarded (.thread 0 0)).gwerid = .up ∧ (∃ t ∈ (forwarded (.thread 0 0)).tickets, ∀ p l, t.party ≠ .launch p l) ∧
    ({ user with gwerid := .down } : State).gwerid = .down :=
  ⟨by decide, ⟨_, List.mem_singleton.2 rfl, by intro p l h; cases h⟩, by decide⟩

/-- A dirty line of host memory in an L1, while the link is down and in a partition without a granule in L2 mode. -/
def stranded : State :=
  let line := dirLine 1 (2 ^ 44)
  { user with gwerid := .down, core := { user.core with l1 := [(line, true)] }, hostOld := [(line, List.replicate 64 7)],
              parts := [{ part with rcd := { part.rcd with g := 8 } }] }

theorem test_hyps_lost_write_back :
    let p : PartRec := { part.rcd with g := 8 }
    let line := dirLine 1 (2 ^ 44)
    isHostPa (line % 2 ^ 48 * 64) = true ∧ l1Dirty line 0 stranded = true ∧ l2Can p line stranded = false ∧
    stranded.hostOld.find? (fun x => x.1 == line) = some (line, List.replicate 64 7) ∧ Memory.wf stranded.mem = true ∧
    p.faultq + 64 + 32 * 4096 ≤ line % 2 ^ 48 * 64 ∧ (getCore 0 stranded).owner = some (1, 7) ∧
    launchOf 1 7 stranded = some launch ∧ launch.kill = none := by decide +kernel

theorem test_lost_write_back :
    let t := l1WriteBack { part.rcd with g := 8 } (dirLine 1 (2 ^ 44)) 0 stranded
    (memRead t.mem 2 (2 ^ 44), t.launches.map fun l => l.kill) = ([7, 7], [some 3]) := by decide +kernel

/-- A command of the optical class of core (0, 0), with parameter bytes. -/
def optical (w : BitVec 256) (blk : Nat) (aux acc : List Nat) : Cmd :=
  { command w user with seq := 5, started := true, blk := leBytes 128 blk, aux := aux, acc := acc }

/-- An OLINK of 128 bytes to port 1 of package 3, with a burst of 64 bytes on the way and a flag address. -/
def linkCmd (got flag : Nat) : Cmd := optical 0 (2 ^ 128 * 128 + 2 ^ 160 * 3 + 2 ^ 192 * flag) [got, 128, 1] []

/-- That burst. -/
def linkBurst (refusals : Nat) : Burst :=
  { core := 0, seq := 5, pkg := 3, far := 1, bytes := 64, refusals := refusals, sent := true, payer := some (1, 7) }

/-- Ports of die 0: port 0 in fabric mode with MIN 2, four lanes and a burst; port 1 with a waking lane. -/
def linked (got refusals : Nat) : State :=
  { mapped with
    parts := [{ part with rcd := { part.rcd with pairs := [{ die := 0, port := 0, pkg := 3, far := 1 }] } }]
    core := { mapped.core with queues := vecSet mapped.core.queues 3 [linkCmd got 0] }
    optics := vecSet mapped.optics 0 { vecGet mapped.optics 0 with
      lanes := genList 72 fun n => { Lane.reset n with st := if n < 4 then 1 else if n = 4 then 3 else 2, port := if n = 4 then 1 else 0 }
      ports := vecGen 4 fun p => { cfg := if p = 0 then 0x802 else 0, width := if p = 0 then 4 else 0, parked := [], requests := [(3, 1, 2)],
                                   bursts := [linkBurst refusals], coming := [], grants := [] } } }

theorem test_hyps_lanes :
    (laneAt 0 0 (linked 0 0)).map (fun l => (l.st, l.ret, l.port)) = some (1, false, 0) ∧
    (laneAt 0 4 (linked 0 0)).map (fun l => (l.st, l.ret, l.port)) = some (3, false, 1) ∧
    (laneAt 0 10 (linked 0 0)).map (fun l => l.st) = some 2 ∧ grantLanes [2, 0, 0] [8, 16, 4] 20 = [6, 11, 3] := by decide

/-- `linked` with lane 0 retired by firmware. -/
def retired : State := modOptics 0 (Optics.modLane 0 fun l => { l with ret := true }) (linked 0 0)

theorem test_retired_lane :
    (laneAt 0 0 retired).map (fun l => (l.st, l.ret, l.port)) = some (1, true, 0) ∧
    ((after (exec (.reallocation 0) retired)).bind fun t => (laneAt 0 0 t).map fun l => l.st) = some 0 ∧
    ((after (exec (.laneLockLoss 0 0) retired)).map fun t => (portAt 0 0 t).width) = some 3 := by decide +kernel

theorem test_lane_lock_loss :
    ((after (exec (.laneLockLoss 0 0) (linked 0 0))).map fun t => (portAt 0 0 t).width) = some 3 ∧
    ((after (exec (.widthConfirmation 0 1) (linked 0 0))).map fun t => (portAt 0 1 t).width) = some 1 := by decide +kernel

theorem test_reallocation :
    ((after (exec (.reallocation 0) (linked 0 0))).map fun t =>
      ((portAt 0 0 t).width, ((vecGet t.optics 0).lanes.take 5).map fun l => l.st)) = some (2, [1, 1, 2, 2, 2]) := by decide +kernel

theorem test_hyps_bursts :
    let s := linked 64 0
    let b : Burst := linkBurst 0
    (portAt 0 0 s).cfgMode = 2 ∧ grantsOk (portAt 0 0 s) [{ slot := 7, pkg := 3, port := 1 }] = true ∧
    grantsOk (portAt 0 0 s) [{ slot := 32, pkg := 3, port := 1 }] = false ∧ burstAt 0 0 0 s = some b ∧
    burstAt 0 0 0 (linked 0 7) = some (linkBurst 7) ∧ burstCmd 0 b { s with core := mapped.core } = none ∧
    launchOf 1 7 s = some launch ∧
    [1].length = (destinations 0 0 (linked 0 0)).length ∧ (∀ n ∈ [1], 1 ≤ n ∧ n ≤ 32) ∧ (∃ n ∈ [33], n = 0 ∨ 32 < n) := by decide +kernel

theorem test_hyps_burst_commands :
    (burstCmd 0 (linkBurst 0) (linked 64 0) = some (linkCmd 64 0) ∧ cmdAt 0 3 0 (linked 64 0) = some ([], linkCmd 64 0)) ∧
    nth 0 (linkCmd 64 0).aux 0 + 64 = blkAt (leValue (linkCmd 64 0).blk) 16 4 ∧ blkAt (leValue (linkCmd 64 0).blk) 24 8 = 0 ∧
    blkAt (leValue (linkCmd 64 0x40).blk) 24 8 ≠ 0 ∧ nth 0 (linkCmd 0 0).aux 0 + 64 ≠ blkAt (leValue (linkCmd 0 0).blk) 16 4 := by
  refine ⟨⟨by decide +kernel, by decide +kernel⟩, by decide +kernel⟩

/-- 23 R454: after the last acknowledgement the command waits for the peer's write of FLAG, whose answer ends it. -/
theorem test_burst_flag :
    (let s : State := { linked 64 0 with core := { mapped.core with queues := vecSet mapped.core.queues 3 [linkCmd 64 0x40] } }
     (after (exec (.burstReceive 0 0 (.acked 0)) s)).bind fun t =>
       (after (exec (.burstReceive 0 0 (.acked 0)) t)).map fun u =>
         ((cmdAt 0 3 0 t).map (fun x => (x.2.fin.isSome, x.2.units)), (portAt 0 0 t).bursts.map (fun b => b.bytes),
          (cmdAt 0 3 0 u).map fun x => x.2.fin.map fun y => (y.status, y.units))) =
      some (some (false, 1), [0], some (some (0, 1))) := by decide +kernel

theorem test_burst_acked :
    ((after (exec (.burstReceive 0 0 (.acked 0)) (linked 64 0))).bind fun t =>
      (cmdAt 0 3 0 t).map fun x => (x.2.fin.map fun y => (y.status, y.units), x.2.units)) = some (some (0, 1), 1) ∧
    ((after (exec (.burstReceive 0 0 (.refused 0)) (linked 0 7))).bind fun t =>
      (cmdAt 0 3 0 t).map fun x => x.2.fin.map fun y => y.status) = some (some 0x52) := by decide +kernel

theorem test_hyps_peer_bursts :
    (partOf 1 (linked 0 0)).map (fun q => q.rcd.pairs.map fun r => (r.die, r.port)) = some [(0, 0)] ∧ Memory.wf (linked 0 0).mem = true ∧
    (linked 0 0).tickets = [] ∧
    (match placeVa 1 0x40 .store .forbid (linked 0 0) with
     | .ok t key _ _ => !storeLost key 32 t && !storeLost key 8 t
     | _ => false) = true := by decide

theorem test_burst_arrives :
    ((after (exec (.burstReceive 0 0 (.arrivedFlag 1 0x40 5)) (linked 0 0))).map fun t => memValue t.mem 8 0x40) = some 5 := by
  decide +kernel

/-- The group of the sum port of die 0: two writers, one level. -/
def pairGroup : Group :=
  { pid := 1, rcd := { grp := 0, die := 0, nreg := 2, stw := 3, levels := 1, pkgs := 2, seq0 := 0 }, nextSeq := 0, seen := [] }

/-- An OSUM of two elements of 8 bits, ready: 100 and −3, to 0x9000. -/
def sumCmd : Cmd := optical (BitVec.ofNat 256 (0x20 * 2 ^ 248)) (2 ^ 64 * 0x9000 + 2 ^ 128 * 2) [1, 0, 0] [100, 0xFD]

/-- A sum port in service before a frame. -/
def summing (frame : Nat) (ops : List BusOp) : State :=
  { mapped with
    core := { mapped.core with queues := vecSet mapped.core.queues 2 [sumCmd] }
    optics := vecSet mapped.optics 0 { vecGet mapped.optics 0 with
      lanes := genList 72 fun n => { Lane.reset n with st := if n < 5 then 1 else 2, port := if n < 5 then 3 else 0, ret := n == 2 }
      sum := { (vecGet mapped.optics 0).sum with wmax := 4, lambda := 4, groups := [pairGroup], frame := frame, ops := ops } } }

/-- The other writer of the frame sends 50, −4 and its count. -/
def other : BusObs := { writers := [{ pidx := 3, eb := 0, elems := [50, -4, 1] }], noise := [], nak := 0, final := false }

/-- The operation of the group while it waits for its other writer. -/
def waitingOp : BusOp := { BusOp.fresh 0 0 1 with waits := 3 }

theorem whole_frame : WholeFrame 0 0 0 pairGroup sumCmd other (summing 0 []) := by
  refine ⟨by decide, by decide, by decide, by decide, by decide, by decide, by decide, by decide, by decide, by decide +kernel,
    ⟨[], by decide +kernel⟩, by decide +kernel, by decide +kernel, by decide, by decide, by decide, by decide, by decide, by decide +kernel⟩

theorem test_hyps_sum : WholeSum 0 0 0 pairGroup sumCmd other (summing 0 []) := by
  refine ⟨whole_frame, by decide +kernel, by decide +kernel, ?_⟩
  unfold SendSigned; decide +kernel

/-- A sum port with another command: of FP32 elements for OSUMB, and for OMAX and OBCAST with this port as a root. -/
def summingAs (w : BitVec 256) (acc : List Nat) : State :=
  { summing 0 [] with core := { mapped.core with queues := vecSet mapped.core.queues 2 [{ sumCmd with tcw := w, acc := acc }] } }

/-- The frames of OSUMB in 16 planes, OMAX and OBCAST are whole as well, and what the other writer sends fits. -/
theorem test_hyps_sum_results :
    ([(0x21, 4 * 2 ^ 112 + 16 * 2 ^ 104, [0x3F800000, 0]), (0x22, 0, [100, 0xFD]), (0x23, 2 ^ 100, [100, 0xFD])].map fun p =>
      let w := BitVec.ofNat 256 (p.1 * 2 ^ 248 + p.2.1)
      let m := { sumCmd with tcw := w, acc := p.2.2 }
      (m.opc, readyCmd 0 pairGroup (summingAs w p.2.2) == some (0, m), decide (m.carried ≤ m.blockLen 1 (sumAt 0 (summingAs w p.2.2))))) =
      [(0x21, true, true), (0x22, true, true), (0x23, true, true)] := by decide +kernel

/-- 23 R438, R449: under the exponent of 1.0 and in 16 planes, 1.0 is sent as 2^14; with 8,192 from the other writer that is 1.5, and the
other's −2^14 alone is −1.0. -/
theorem test_osumb :
    (let obs : BusObs := { writers := [{ pidx := 3, eb := 1023, elems := [8192, -16384, 1] }], noise := [], nak := 0, final := false }
     let s := summingAs (BitVec.ofNat 256 (0x21 * 2 ^ 248 + 4 * 2 ^ 112 + 16 * 2 ^ 104)) [0x3F800000, 0]
     (after (exec (.segmentFrame 0 obs) s)).bind fun t => (cmdAt 0 2 0 t).map fun x => (x.2.out.map fun y => leValue y.2, nth 0 x.2.aux 1)) =
      some ([0x3FC00000, 0xBF800000], 2) := by decide +kernel

theorem test_sum :
    ((after (exec (.segmentFrame 0 other) (summing 0 []))).bind fun t => (cmdAt 0 2 0 t).map fun x =>
      (x.2.out.map fun y => (y.1, leValue y.2), nth 0 x.2.aux 1, (x.2.opEnd.map fun y => y.pmask))) =
      some ([(0x9000, 150), (0x9004, 2 ^ 32 - 7)], 2, some 9) := by decide +kernel

theorem test_hyps_straggle_calibration :
    (sumAt 0 (summing 63 [])).frame % 64 = 63 ∧ (sumAt 0 (summing 0 [])).frame % 64 ≠ 63 ∧
    (sumAt 0 (summing 0 [waitingOp])).groups.find? (fun g => g.rcd.grp == 0) = some pairGroup ∧
    (sumAt 0 (summing 0 [waitingOp])).opOf 0 pairGroup.nextSeq = some waitingOp ∧ waitingOp.mask = none ∧
    pairGroup.rcd.stw ≤ waitingOp.waits ∧ (laneAt 0 2 (summing 63 [])).map (fun l => (l.ret, l.st, l.port)) = some (true, 1, 3) := by
  decide

theorem test_calibration :
    ((after (exec (.calibrationFrame 0 { wmax := 3, ddly := 2, held := true, proposals := [] }) (summing 63 []))).map fun t =>
      ((sumAt 0 t).wmax, (sumAt 0 t).ddly, (sumAt 0 t).lowered, (laneAt 0 2 t).map fun l => l.st)) = some (3, 2, 1, some 0) := by
  decide +kernel

/-! ## Firmware -/

/-- The boot ROM waits in recovery. -/
def recovering (forTable fromHost : Bool) : State :=
  { State.reset with fw := { Firmware.reset with recovery := true, waitTable := forTable, fromHost := fromHost } }

theorem test_hyps_boot :
    Memory.wf State.reset.mem = true ∧
    ∀ a b : Bool, (recovering a b).fw.recovery = true ∧ (recovering a b).fw.booted = false ∧ (recovering a b).gwerid = .up ∧
      (recovering a b).fw.waitTable = a ∧ (recovering a b).fw.fromHost = b ∧ State.reset.fw.recovery = false := by decide

/-- With an empty flash the boot ROM waits for a table. -/
theorem test_boot_empty :
    ((after (exec (.boot []) State.reset)).map fun t => (t.fw.booted, t.fw.recovery, t.fw.waitTable)) = some (false, true, true) := by
  decide +kernel

/-- The host's image is kept while the boot ROM waits for a table. -/
theorem test_recovery_image :
    ((after (exec (.recoveryImage [1, 2]) (recovering true false))).map fun t => (t.fw.incoming, t.fw.fromHost)) =
      some ([1, 2], true) := by decide +kernel

/-- FIPS 180-4: the SHA-256 of "abc". -/
theorem test_sha256 :
    leValue (sha256 [0x61, 0x62, 0x63]).reverse = 0xBA7816BF8F01CFEA414140DE5DAE2223B00361A396177A9CB410FF61F20015AD := by decide +kernel

/-- A front end with its mirror and an attestation role, with a standby core. -/
def roleMap : List Role :=
  [{ idx := 0, code := 1, core := 2048, mirror := 1 }, { idx := 1, code := 1, core := 2065, mirror := 0 },
   { idx := 2, code := 7, core := 2049, mirror := 0 }]

/-- A device that runs firmware. -/
def running (f : Firmware → Firmware) : State :=
  { mapped with fw := f { Firmware.reset with booted := true, image := [1], roles := roleMap, standby := [2251] } }

theorem test_hyps_handover :
    let passing (l : List (Nat × Nat)) (f : Firmware) : Firmware := { f with phase := .passing, incoming := [2], passed := l }
    (running id).fw.booted = true ∧ (running id).fw.phase = .none ∧ (running id).gwerid = .up ∧ (running id).tid < 7 ∧
    (running fun f => { f with phase := .loading }).fw.phase = .loading ∧
    (let s := running (passing [])
     s.fw.phase = .passing ∧ s.fw.erred = [] ∧
      s.fw.roles.find? (fun r => r.code != 8 && !(s.fw.passed.any fun x => x.1 == r.idx)) = roleMap.head? ∧
      s.fw.standby = 2251 :: [] ∧ (2251 : Nat) ≠ 2048) ∧
    (let s := running (passing [(0, 5), (1, 6), (2, 7)])
     s.fw.roles.find? (fun r => r.code != 8 && !(s.fw.passed.any fun x => x.1 == r.idx)) = none) ∧
    (running fun f => { f with phase := .passing, erred := [2251] }).fw.erred ≠ [] ∧
    (let s := running (passing [(2, 2400)])
     s.fw.passed = [(2, 2400)] ∧ SoundRole { idx := 2, code := 7, core := 2049, mirror := 0 } s ∧ (2400 : Nat) ≠ 2049) ∧
    (running fun f => { f with phase := .committed }).fw.phase = .committed := by
  unfold SoundRole; decide

theorem test_hyps_roles :
    let r0 : Role := { idx := 0, code := 1, core := 2048, mirror := 1 }
    let r2 : Role := { idx := 2, code := 7, core := 2049, mirror := 0 }
    let s := running fun f => { f with erred := [2048, 2049] }
    let both := running fun f => { f with erred := [2048, 2065] }
    let lost := running fun f => { f with erred := [2049], failed := [1] }
    SoundRole r0 s ∧ SoundRole r2 s ∧ s.fw.phase = .none ∧ r0.core ∈ s.fw.erred ∧ r2.core ∈ s.fw.erred ∧ r0.code ≤ 2 ∧ 2 < r2.code ∧
    s.fw.roles.find? (fun x => x.idx == r0.mirror) = some { idx := 1, code := 1, core := 2065, mirror := 0 } ∧
    (2065 : Nat) ∉ s.fw.erred ∧ (2065 : Nat) ∈ both.fw.erred ∧ r2.core - 2048 ∉ s.fw.failed ∧ r2.core - 2048 ∈ lost.fw.failed ∧
    standbyCores lost = 2251 :: [] ∧ ({ both with launches := [] } : State).launches = [] ∧ r2.core ∉ both.fw.erred := by
  unfold SoundRole; decide

/-- A table of one firmware column, 67. -/
def oneColumn : List Byte := (genList 448 fun i => if i = 12 then 1 else if i = 16 then 67 else if i = 17 ∨ i = 18 ∨ i = 19 then 0xFF else 0)

/-- A front end whose mirror is an entry of code 8, with its standby core. -/
def standbyMirror (erred : List Nat) : State :=
  running fun f => { f with roles := [{ idx := 0, code := 1, core := 2048, mirror := 1 }, { idx := 1, code := 8, core := 2251, mirror := 0 }]
                            erred := erred }

/-- A mirror of code 8, a role whose core fails while it runs, and a failed standby core; a partition with descriptors that HALTED. -/
theorem test_hyps_roles_standby :
    (let s := standbyMirror [2048]
     SoundRole { idx := 0, code := 1, core := 2048, mirror := 1 } s ∧
     s.fw.roles.find? (fun x => x.idx == 1) = some { idx := 1, code := 8, core := 2251, mirror := 0 } ∧ 2251 ∉ s.fw.erred) ∧
    (let s := standbyMirror [2251]
     SoundRole { idx := 1, code := 8, core := 2251, mirror := 0 } s ∧ 2251 ∈ s.fw.erred ∧ s.fw.phase = .none) ∧
    part ∈ (standbyMirror []).parts := by unfold SoundRole; decide

/-- 25 R465: a standby core that fails stands by no more. -/
theorem test_role_standby :
    ((after (exec (.columnRemap 2251) { standbyMirror [] with fw := { (standbyMirror []).fw with table := oneColumn } })).bind fun u =>
      after (exec (.roleRecovery 1) u)).map (fun t =>
      (t.fw.roles.map (fun r => (r.idx, r.core)), t.fw.standby, t.fw.failed)) = some ([(0, 2048)], [], [203]) := by decide +kernel

/-- A front end struck by a machine error moves to its mirror's core. -/
theorem test_role_recovery :
    ((after (exec (.roleRecovery 0) (running fun f => { f with erred := [2048] }))).map fun t =>
      t.fw.roles.map fun r => (r.idx, r.core)) = some [(0, 2065), (1, 2065), (2, 2049)] := by decide +kernel

theorem test_hyps_columns :
    let s := { running (fun f => { f with table := oneColumn }) with launches := [], parts := [] }
    s.fw.booted = true ∧ 3 ∈ s.fw.colMap ∧ quiesced s = true ∧ quiesced (running id) = false ∧ s.fw.colMap.idxOf 3 ∉ s.fw.lostCols ∧
    (columnMap s.fw.table (failedCols s.fw.table (s.fw.failed ++ [3]))).map (fun m => (m.length, nth 0 m 3, nth 0 m 63)) = some (64, 4, 64) ∧
    columnMap s.fw.table (failedCols s.fw.table ([0, 1, 2, 4] ++ [3])) = none := by decide +kernel

theorem test_hyps_attestation_thermal :
    let s := running id
    (∃ r ∈ s.fw.roles, r.code = 7) ∧ s.gwerid = .up ∧ quiesced { s with launches := [] } = true ∧ s.fw.wantProfile = none ∧
    (running fun f => { f with wantProfile := some 2 }).fw.wantProfile = some 2 ∧ (1#2).toNat < 2 ∧ 0 < s.fw.temps.length ∧
    tableField s.fw.table 356 1 < 5 ∧ tableField s.fw.table 357 1 < 5 ∧ holdsDie 0 launch s = true ∧ 0 ∉ s.fw.tripped := by decide +kernel

/-- A table with TWARN 90 and TTRIP 105. -/
def limits : List Byte := genList 448 fun i => if i = 356 then 90 else if i = 357 then 105 else 0

theorem test_temperature :
    ((after (exec (.temperatureReport 0 91) (running fun f => { f with table := limits }))).map fun t => (t.fw.wantProfile, t.fw.tripped)) =
      some (some 1, []) ∧
    ((after (exec (.temperatureReport 0 106) (running fun f => { f with table := limits }))).map fun t =>
      (t.fw.tripped, t.launches.map fun l => l.kill)) = some ([0], [some 3]) ∧
    ((after (exec (.temperatureReport 0 89) (running fun f => { f with table := limits, tripped := [0] }))).map fun t => t.fw.tripped) =
      some [] := by decide +kernel

/-- 25 R473: a launch placed on a die that trips loses its position. -/
theorem test_trip_placed :
    (after (exec (.temperatureReport 0 106) { running (fun f => { f with table := limits }) with
      launches := [{ launch with st := .placed }], core := { mapped.core with owner := none } })).map
      (fun t => t.launches.map fun l => (l.st, l.kill)) = some [(.admitted, none)] := by decide +kernel

/-- 25 R474: telemetry reads the correction counters of the die's cores. -/
theorem test_telemetry :
    (after (exec (.temperatureReport 0 20) { running (fun f => { f with table := limits, roles := [{ idx := 0, code := 4, core := 2048, mirror := 0 }] }) with
      core := { mapped.core with corr := [(0, 3)] } })).map (fun t => t.fw.counts.find? fun x => x.1 == 0) = some (some (0, [(0, 3)])) := by
  decide +kernel

theorem test_hyps_temperature :
    let s := running fun f => { f with table := limits, tripped := [0] }
    89 < tableField s.fw.table 356 1 ∧ 89 ≤ tableField s.fw.table 357 1 ∧ tableField s.fw.table 356 1 ≤ 100 ∧
    100 ≤ tableField s.fw.table 357 1 := by decide +kernel

/-! ## The step -/

/-- `user` with an instruction's words at its pc. -/
def placed (w : Nat) (s : State) : State := { s with mem := memWrite (lmKey 0 0x1000) (leBytes 8 w) s.mem }

/-- The state in which thread set 0 issues. -/
noncomputable def issuing (s : State) : State := switchTo (readySets (passTime s)) 0 (passTime s)

/-- A thread set that waits for an entry of its inbox, with the agenda given. -/
def inboxWait (a : List Move) : State :=
  { placed 0xC002BA (withTs (fun t => { t with run := .waiting }) user) with agenda := a }

/-- An instruction issues in a READY thread set, by itself or on the agenda's call; one that waits is looked at, either way. -/
theorem test_hyps_step_issues :
    IssuesIn (placed 0xFFF61182 user) (issuing (placed 0xFFF61182 user)) ∧
    (∃ u, IssuesIn { user with agenda := [.issue 0 0] } u ∧ MayIssue u) ∧ (∃ u, IssuesIn (inboxWait []) u ∧ MayIssue u) ∧
    ∃ u, IssuesIn (inboxWait [.issue 0 0]) u ∧ MayIssue u :=
  ⟨⟨passTime (placed 0xFFF61182 user), none, .inl ⟨rfl, rfl, rfl⟩, .inl ⟨0, by decide, .inl rfl, rfl⟩⟩,
    ⟨_, ⟨_, some 0, .inr ⟨0, 0, [], rfl, rfl, rfl⟩, .inl ⟨0, by decide, .inr rfl, rfl⟩⟩, by unfold MayIssue; decide⟩,
    ⟨_, ⟨_, none, .inl ⟨rfl, rfl, rfl⟩, .inr (.inl ⟨rfl, by decide, by decide, 0, by decide, rfl⟩)⟩, by unfold MayIssue; decide⟩,
    ⟨_, ⟨_, some 0, .inr ⟨0, 0, [], rfl, rfl, rfl⟩, .inr (.inr ⟨0, rfl, by decide, by decide, by decide, rfl⟩)⟩, by unfold MayIssue; decide⟩⟩

theorem test_hyps_step_may_issue : MayIssue (issuing (placed 0xFFF61182 user)) := by unfold MayIssue; decide

theorem test_hyps_step_decodes :
    let u := issuing (placed 0xFFF61182 user)
    let v := issuing (placed 0x3FC00000B8806290 user)
    u.ts.sched = [] ∧ uxDue u = false ∧ AtPc (.addi 3 1 0x7FFB) u ∧ AtPc (.fmul .s .dyn 5 6 (.lit 0x3FC00000)) v :=
  ⟨by decide, by decide, ⟨by unfold CleanFetch; decide, by decide, by decide, ⟨_, rfl, fun h => absurd h (by decide)⟩⟩,
    ⟨by unfold CleanFetch; decide, by decide, by decide, ⟨_, rfl, fun _ => by decide⟩⟩⟩

theorem test_hyps_step_others :
    CleanFetch (issuing (placed 0 user)) ∧ (∃ e, decode (pcBytes (issuing (placed 0 user))) = .error e) ∧
    (let u := issuing (withTs (fun t => { t with pc := 0xFD000 }) user)
     u.ts.sched = [] ∧ uxDue u = false ∧ fetchLimit u < u.ts.pc.toNat + 4) ∧
    Instr.isEvent (.laneRetire 0 0) = true ∧ Instr.wf (.laneRetire 0 0) = true ∧
    (let s := State.reset
     s.agenda = [] ∧ pick (readySets (passTime s)) (passTime s) = none ∧ pickBlocked (rested (passTime s)) = none) ∧
    (let s := withTs (fun t => { t with run := .ended }) posted
     s.agenda = [] ∧ Memory.wf s.mem = true ∧ pick (readySets (passTime s)) (passTime s) = none ∧
       firstPerformable (rested (passTime s)) ≠ none) :=
  ⟨by unfold CleanFetch; decide, ⟨_, rfl⟩, by decide, by decide, by decide, by decide, by decide⟩

theorem test_hyps_encoding : Instr.wf (.addi 3 1 0x7FFB) = true ∧ encode (.addi 3 1 0x7FFB) = [0xFFF61182] ∧
    Instr.wf (.fmul .s .dyn 5 6 (.lit 0x3FC00000)) = true ∧ decodeWord 0xFFF61182 0 = some (.addi 3 1 0x7FFB) := by decide

theorem test_hyps_step_interrupts :
    (issuing (withTs (fun t => { t with sched := [{ code := 0x45, detail := 0, val := 0 }] }) user)).ts.sched ≠ [] ∧
    uxDue (issuing (withTs (fun t => { t with status := 4, ux := [Cmd.completion (command 0 user) 0 0] }) user)) = true := by decide
end Sys2Proof.Tests
end

section
/-! SUPPORT. Exceptions (01 R32; 19 R373, R375): the bits that a STATUS update writes, what trap entry and a fatal trap change
and leave alone, and the bytes of a partition's fault queue after a record. -/
namespace Sys2Proof.Machine
open Sys2Proof.Claims

/-! ## Fields of a word -/

/-- The bits of a number that is cut into `k` low bits, a field of `n` bits and what lies above. -/
theorem testBit_of_cut {a hi f lo k n : Nat} (hf : f < 2 ^ n) (hlo : lo < 2 ^ k) (ha : a = 2 ^ k * (2 ^ n * hi + f) + lo)
    (j : Nat) :
    a.testBit j = if j < k then lo.testBit j else if j < k + n then f.testBit (j - k) else hi.testBit (j - k - n) := by
  rw [ha, Nat.testBit_two_pow_mul_add _ hlo, Nat.testBit_two_pow_mul_add _ hf]
  split
  · rfl
  · simp only [show j - k < n ↔ j < k + n by omega]

/-- A field write replaces the bits of its field and keeps every other bit. -/
theorem getLsbD_setField (w : Word) (lo n x j : Nat) (hj : j < 64) :
    (setField w lo n x).getLsbD j = if lo ≤ j ∧ j < lo + n then x.testBit (j - lo) else w.getLsbD j := by
  have hold : w.toNat = 2 ^ lo * (2 ^ n * (w.toNat / 2 ^ lo / 2 ^ n) + bitsOf w.toNat lo n) + w.toNat % 2 ^ lo := by
    rw [bitsOf, Nat.div_add_mod, Nat.div_add_mod]
  have hnew : w.toNat - bitsOf w.toNat lo n * 2 ^ lo + x % 2 ^ n * 2 ^ lo =
      2 ^ lo * (2 ^ n * (w.toNat / 2 ^ lo / 2 ^ n) + x % 2 ^ n) + w.toNat % 2 ^ lo := by
    generalize bitsOf w.toNat lo n = f at hold
    generalize w.toNat / 2 ^ lo / 2 ^ n = hi at hold ⊢
    generalize w.toNat % 2 ^ lo = l at hold ⊢
    rw [hold, Nat.mul_add, Nat.mul_add, Nat.mul_comm f, Nat.mul_comm (x % 2 ^ n)]
    omega
  have hx : x % 2 ^ n < 2 ^ n := Nat.mod_lt _ (Nat.two_pow_pos n)
  have hl : w.toNat % 2 ^ lo < 2 ^ lo := Nat.mod_lt _ (Nat.two_pow_pos lo)
  have hf : bitsOf w.toNat lo n < 2 ^ n := Nat.mod_lt _ (Nat.two_pow_pos n)
  rw [setField, w64, BitVec.getLsbD_ofNat, decide_eq_true hj, Bool.true_and,
    testBit_of_cut hx hl hnew, BitVec.getLsbD,
    testBit_of_cut hf hl hold]
  by_cases h1 : j < lo
  · rw [if_pos h1, if_neg (by omega), if_pos h1]
  · by_cases h2 : j < lo + n
    · rw [if_neg h1, if_pos h2, if_pos ⟨by omega, h2⟩, Nat.testBit_mod_two_pow, decide_eq_true (by omega), Bool.true_and]
    · simp only [if_neg h1, if_neg h2, if_neg fun h : lo ≤ j ∧ j < lo + n => h2 h.2]

theorem getLsbD_setBit (w : Word) (k : Nat) (b : Bool) (j : Nat) (hj : j < 64) :
    (setBit w k b).getLsbD j = if j = k then b else w.getLsbD j := by
  rw [setBit, getLsbD_setField _ _ _ _ _ hj]
  by_cases h : j = k
  · subst h; cases b <;> simp
  · rw [if_neg h, if_neg (by omega)]

/-! ## Trap entry (01 R32) -/

theorem getLsbD_trapStatus (w : Word) (k : Nat) (hk : k < 64) : (trapStatus w).getLsbD k = entryBit w k := by
  simp only [trapStatus, getLsbD_setBit _ _ _ _ hk, entryBit]

/-- The handler address is BASE with two zero bits below it (01 R20). -/
theorem vecTarget_eq (v : Word) : vecTarget v = (v.extractLsb' 2 18).setWidth 20 <<< 2 := by
  apply BitVec.eq_of_toNat_eq
  simp only [vecTarget, bitsOf, BitVec.toNat_ofNat, BitVec.toNat_shiftLeft, BitVec.toNat_setWidth, BitVec.extractLsb'_toNat,
    Nat.shiftRight_eq_div_pow, Nat.shiftLeft_eq]
  omega

theorem ecauseOf_of_lt (code detail : Nat) (lit : Bool) (hc : code < 256) (hd : detail < 256) :
    ecauseOf code detail lit = BitVec.ofNat 64 (code + 2 ^ 8 * detail + if lit then 2 ^ 16 else 0) := by
  have hfields : code % 256 + detail % 256 * 256 = code + 2 ^ 8 * detail := by omega
  exact congrArg (fun n => BitVec.ofNat 64 (n + if lit then 2 ^ 16 else 0)) hfields

/-- Ending the wait for a forwarded fault moves the tickets and the thread set's own one only. -/
theorem dropTicket_eq (s : State) :
    dropTicket s = { s with ts := { s.ts with ticket := none }, tickets := (dropTicket s).tickets } := by
  unfold dropTicket
  split
  · rename_i h; rw [← h]
  · rfl

/-- The model's test for a fatal trap is that no trap can be taken. -/
theorem canTrap_iff (s : State) : CanTrap s ↔ ¬ (inTrap s = true ∨ tvecEn s = false) := by
  rw [not_or, Bool.not_eq_true, Bool.not_eq_false]
  exact Iff.rfl

theorem takeTrap_of_canTrap (code detail : Nat) (val : Word) (lit : Bool) (s : State) (h : CanTrap s) :
    takeTrap code detail val lit s =
      { s with tickets := (dropTicket s).tickets
               ts := { s.ts with epc := zext64 s.ts.pc, ecause := ecauseOf code detail lit, eval := val,
                                 status := trapStatus s.ts.status, fbuf := [], pc := vecTarget s.ts.tvec, run := .ready,
                                 ticket := none, palTaken := none, trgWait := none, enqWord := none } } := by
  rw [takeTrap, if_neg ((canTrap_iff s).1 h), dropTicket_eq]
  rfl

/-- Taking an exception does what 01 R32 says. -/
theorem takeTrap_entered (code detail : Nat) (val : Word) (lit : Bool) (s : State) (hc : code < 256) (hd : detail < 256)
    (h : CanTrap s) : Entered code detail val lit s (takeTrap code detail val lit s) := by
  rw [takeTrap_of_canTrap code detail val lit s h]
  exact ⟨rfl, ecauseOf_of_lt code detail lit hc hd, rfl, fun k hk => getLsbD_trapStatus _ k hk, vecTarget_eq _, rfl, rfl,
    fun _ => rfl⟩

/-! ## What a fault record and a mark for eviction leave alone (19 R373, R375) -/

/-- A host interrupt is held with its partition or delivered, and nothing else changes. -/
theorem raiseIrq_eq (pid v : Nat) (s : State) :
    raiseIrq pid v s = { s with irqs := (raiseIrq pid v s).irqs, parts := (raiseIrq pid v s).parts } := by
  unfold raiseIrq modPart
  split
  · rfl
  · split
    · rfl
    · split <;> rfl

@[simp] theorem raiseIrq_mem (pid v : Nat) (s : State) : (raiseIrq pid v s).mem = s.mem := by rw [raiseIrq_eq]

/-- A fault record moves memory and what its host interrupt moves. -/
theorem writeFault_eq (pid : Nat) (r : FaultRec) (s : State) :
    writeFault pid r s = { s with mem := (writeFault pid r s).mem, irqs := (writeFault pid r s).irqs,
                                  parts := (writeFault pid r s).parts } := by
  unfold writeFault
  split
  · rfl
  · dsimp only
    split
    · rfl
    · rw [raiseIrq_eq]

/-- The launch found under a key, after the launches of that key have been changed by what keeps their keys. -/
theorem launchOf_modLaunch (pid lid : Nat) (f : Launch → Launch) (s : State)
    (hf : ∀ l, (f l).pid = l.pid ∧ (f l).lid = l.lid) :
    launchOf pid lid (modLaunch pid lid f s) = (launchOf pid lid s).map f := by
  have hkey : ((fun l : Launch => l.pid == pid && l.lid == lid) ∘
      fun l => if l.pid == pid && l.lid == lid then f l else l) = fun l => l.pid == pid && l.lid == lid := by
    funext l
    obtain ⟨hp, hl⟩ := hf l
    by_cases h : (l.pid == pid && l.lid == lid) = true
    · simp only [Function.comp, if_pos h, hp, hl]
    · simp only [Function.comp, if_neg h]
  rw [launchOf, modLaunch, modWhere, List.find?_map, hkey]
  refine Option.map_congr fun l hl => ?_
  exact if_pos (List.find?_some hl)

theorem launchOf_killLaunch (pid lid : Nat) (s : State) :
    launchOf pid lid (killLaunch pid lid 3 s) = (launchOf pid lid s).map markedFatal :=
  launchOf_modLaunch pid lid markedFatal s fun l => by unfold markedFatal; split <;> exact ⟨rfl, rfl⟩

/-- A fatal trap ends the thread set and moves launches, memory and what a host interrupt moves. -/
theorem fatalTrap_eq (code detail : Nat) (val : Word) (s : State) :
    fatalTrap code detail val s =
      { s with ts := { s.ts with run := .ended }
               launches := (killLaunch (myPid s) (myLid s) 3 s).launches
               mem := (fatalTrap code detail val s).mem
               irqs := (fatalTrap code detail val s).irqs
               parts := (fatalTrap code detail val s).parts } := by
  unfold fatalTrap
  dsimp only
  rw [writeFault_eq]
  rfl

theorem takeTrap_of_not_canTrap (code detail : Nat) (val : Word) (lit : Bool) (s : State) (h : ¬ CanTrap s) :
    takeTrap code detail val lit s = fatalTrap code detail val s := by
  rw [takeTrap, if_pos (Decidable.byContradiction fun hc => h ((canTrap_iff s).2 hc))]

/-! ## The fault queue in memory (19 R375) -/

theorem leValue_lt (bs : List Byte) : leValue bs < 256 ^ bs.length := by
  induction bs with
  | nil => simp [leValue]
  | cons b bs ih =>
    have := b.isLt
    simp only [leValue, List.length_cons, Nat.pow_succ]
    omega

theorem memValue_lt (m : List Host.Cell) (n k : Nat) : memValue m n k < 256 ^ n := by
  have := leValue_lt (memRead m n k)
  rwa [memRead_length] at this

theorem FaultRec.bytes_length (r : FaultRec) (time : Nat) : (r.bytes time).length = 32 := by
  simp only [FaultRec.bytes, List.length_append, leBytes_length]

/-- Where the ring has room, the record is written at its place and then WRIDX. -/
theorem writeFault_mem_of_room (pid : Nat) (p : Partition) (r : FaultRec) (s : State) (hp : partOf pid s = some p)
    (h : (memValue s.mem 4 p.rcd.faultq + 1 + (2 ^ 32 - memValue s.mem 4 (p.rcd.faultq + 4))) % 2 ^ 32 ≤ 4096) :
    (writeFault pid r s).mem =
      memWrite p.rcd.faultq (leBytes 4 ((memValue s.mem 4 p.rcd.faultq + 1) % 2 ^ 32))
        (memWrite (p.rcd.faultq + 64 + 32 * (memValue s.mem 4 p.rcd.faultq % 4096)) (r.bytes s.time) s.mem) := by
  simp only [writeFault, hp, if_neg (Nat.not_lt.2 h), raiseIrq_mem]

/-- Where the ring is full, LOST is written and nothing else. -/
theorem writeFault_mem_of_full (pid : Nat) (p : Partition) (r : FaultRec) (s : State) (hp : partOf pid s = some p)
    (h : 4096 < (memValue s.mem 4 p.rcd.faultq + 1 + (2 ^ 32 - memValue s.mem 4 (p.rcd.faultq + 4))) % 2 ^ 32) :
    (writeFault pid r s).mem =
      memWrite (p.rcd.faultq + 8) (leBytes 4 (Nat.min (memValue s.mem 4 (p.rcd.faultq + 8) + 1) (2 ^ 32 - 1))) s.mem := by
  simp only [writeFault, hp, if_pos h]

end Sys2Proof.Machine

namespace Sys2Proof.Proofs
open Sys2Proof Sys2Proof.Machine Sys2Proof.Claims

/-! ## The statements of 01 R32 and 19 R373, R375 -/

theorem trapInstruction : TrapInstruction := fun s imm h =>
  ⟨takeTrap 5 0 (zext64 imm) false s, rfl, takeTrap_entered 5 0 _ false s (by decide) (by decide) h⟩

theorem exceptionEntry : ExceptionEntry := fun s code detail val lit hc hd h => takeTrap_entered code detail val lit s hc hd h

theorem fatalTrapEntry : FatalTrapEntry := by
  intro s code detail val lit h
  dsimp only
  rw [takeTrap_of_not_canTrap code detail val lit s h, fatalTrap_eq]
  refine ⟨rfl, rfl, rfl, fun l hl => ?_⟩
  calc launchOf (myPid s) (myLid s) (killLaunch (myPid s) (myLid s) 3 s)
      = (launchOf (myPid s) (myLid s) s).map markedFatal := launchOf_killLaunch _ _ s
    _ = some (markedFatal l) := by rw [hl]; rfl

theorem faultRecordWritten : FaultRecordWritten := by
  intro s pid p r hwf hp
  have hw := memValue_lt s.mem 4 p.rcd.faultq
  have hr := memValue_lt s.mem 4 (p.rcd.faultq + 4)
  refine ⟨fun hn => ?_, fun hn hlast => ?_⟩
  · rw [writeFault_mem_of_room pid p r s hp (by omega)]
    generalize hk : p.rcd.faultq + 64 + 32 * (memValue s.mem 4 p.rcd.faultq % 4096) = k
    have hwf1 := memWrite_wf (r.bytes s.time) k s.mem hwf
    have hread := memRead_memWrite (r.bytes s.time) k s.mem hwf
    rw [FaultRec.bytes_length] at hread
    refine ⟨?_, ?_⟩
    · rw [memRead_memWrite_apart _ _ _ _ _ hwf1 (.inr (by rw [leBytes_length]; omega)), hread]
    · rw [memValue_memWrite _ _ _ _ hwf1]
      exact Nat.mod_eq_of_lt (Nat.mod_lt _ (by decide))
  · rw [writeFault_mem_of_full pid p r s hp (by omega)]
    refine ⟨?_, fun k hk => ?_⟩
    · rw [memValue_memWrite _ _ _ _ hwf]
      exact Nat.mod_eq_of_lt (Nat.lt_of_le_of_lt (Nat.min_le_right _ _) (by decide))
    · rw [memGet_memWrite _ _ _ _ hwf, leBytes_length, if_neg (by omega)]

/-- Settles O7: trap entry (R32) and the frame of a fatal trap (R373), and the fault ring by reads after writes (R375). -/
theorem exceptionsAreTaken : Obligations.ExceptionsAreTaken :=
  ⟨trapInstruction, exceptionEntry, fatalTrapEntry, faultRecordWritten⟩

end Sys2Proof.Proofs
end

section
/-! SUPPORT. Control transfers and returns (01 R26, R27, R32; 05 R121 to R126): what an instruction without bound registers comes
to where it goes on, transfers control or traps, and the STATUS words that returns write. -/
namespace Sys2Proof.Machine
open Sys2Proof.Claims

/-! ## The check of a target (01 R26) -/

theorem targetOk_iff (n : Nat) (s : State) : targetOk n s = true ↔ Legal n s := by
  rw [targetOk, Bool.and_eq_true, decide_eq_true_eq, beq_iff_eq, Legal]

/-- Writing a register moves no limit of a fetch. -/
@[simp] theorem fetchLimit_setS (d : Reg) (x : Word) (s : State) : fetchLimit (setS d x s) = fetchLimit s :=
  fetchLimit_congr _ _ (setS_tid ..) (setS_ts_wsize ..) (by simp [isF])

theorem legal_setS (n : Nat) (d : Reg) (x : Word) (s : State) : Legal n (setS d x s) ↔ Legal n s := by
  rw [Legal, Legal, fetchLimit_setS]

theorem transfer_of_legal (t : State) (target : Word) (h : Legal target.toNat t) : transfer t target = .jump t target.toNat :=
  if_pos ((targetOk_iff _ _).2 h)

theorem transfer_of_not_legal (t : State) (target : Word) (h : ¬ Legal target.toNat t) : transfer t target = .trap 4 0 target :=
  if_neg (mt (targetOk_iff _ _).1 h)

/-! ## What a scalar register write leaves alone -/

/-- A write of a scalar register moves the scalar registers and their shadows. -/
theorem setS_eq (d : Reg) (x : Word) (s : State) :
    setS d x s = { s with ts := { s.ts with s := (setS d x s).ts.s, shS := (setS d x s).ts.shS } } := by
  unfold setS
  split
  · rfl
  · split <;> rfl

theorem writesReg_setS (d : Reg) (x : Word) (s : State) : WritesReg d x s (setS d x s) :=
  ⟨getS_setS_same d x s, fun r hr => getS_setS_ne d r x s hr⟩

/-! ## The outcome of an instruction that names no bound register -/

/-- Only a refusal by the firewall, which is ACCESS, is counted (20 R391). -/
theorem countRefused_trap_of_ne {code : Nat} (detail : Nat) (val : Word) (s : State) (h : code ≠ 0x21) :
    countRefused (.trap code detail val) s = s := by
  rw [countRefused, fwRefused, beq_eq_false_iff_ne.2 h]
  rfl

/-- A cause other than ACCESS is taken in the state in which the instruction issued. -/
theorem execUse_trap (u : Use) (s : State) (body : State → Eff) (code detail : Nat) (val : Word) (hp : plain u s = true)
    (hb : body s = .trap code detail val) (hc : code ≠ 0x21) :
    execUse u s body = takeTrap code detail val (u.len == 8) s := by
  rw [execUse_plain u s body hp, hb, countRefused_trap_of_ne detail val s hc, finish]

theorem execUse_ok (u : Use) (s t : State) (body : State → Eff) (hp : plain u s = true) (hb : body s = .ok t) :
    execUse u s body = finish u s (.ok t) := by
  rw [execUse_plain u s body hp, hb, countRefused_ok]

theorem execUse_jump (u : Use) (s t : State) (body : State → Eff) (target : Nat) (hp : plain u s = true)
    (hl : locked u s = false) (hb : body s = .jump t target) : execUse u s body = jumpTo target (retire u s t) := by
  rw [execUse_plain u s body hp, hb, countRefused_jump, finish, hl]
  rfl

/-- An instruction whose only outcome is a trap takes it. -/
theorem traps_of_takeTrap {i : Instr} {code detail : Nat} {val : Word} {lit : Bool} {s : State}
    (hex : exec i s = .next (takeTrap code detail val lit s)) (hc : code < 256) (hd : detail < 256) :
    Traps i code detail val lit s :=
  fun h => ⟨_, hex, takeTrap_entered code detail val lit s hc hd h⟩

/-- A cause of an instruction of one word, found by its body. -/
theorem traps_of_body {i : Instr} {u : Use} {body : State → Eff} {code detail : Nat} {val : Word} {s : State}
    (hex : exec i s = .next (execUse u s body)) (hp : plain u s = true) (hlen : u.len = 4)
    (hb : body s = .trap code detail val) (hc : code < 0x21) (hd : detail < 256) : Traps i code detail val false s := by
  have htrap := execUse_trap u s body code detail val hp hb (Nat.ne_of_lt hc)
  rw [hlen] at htrap
  exact traps_of_takeTrap (hex.trans (congrArg _ htrap)) (by omega) hd

/-- A transfer to a target that has been checked, with the registers and STATUS of `t`. -/
theorem transfers_of_jump {i : Instr} {u : Use} {target : Nat} {s t : State} {regs : State → Prop}
    (hex : exec i s = .next (jumpTo target (retire u s t)))
    (hframe : t = { s with ts := { s.ts with s := t.ts.s, shS := t.ts.shS, status := t.ts.status } })
    (hregs : regs (jumpTo target (retire u s t))) :
    Transfers i u target t.ts.status s regs := by
  refine ⟨_, hex, rfl, rfl, rfl, rfl, rfl, hregs, ?_, fun k => ?_⟩
  · rw [hframe]; rfl
  · rw [hframe]; rfl

/-- Registers read after a transfer as they did when the effect was done. -/
@[simp] theorem getS_jumpTo_retire (r : Reg) (target : Nat) (u : Use) (o t : State) :
    getS r (jumpTo target (retire u o t)) = getS r t := rfl

/-! ## Branches (05 R121) -/

theorem shiftLeft_two_eq (x : Word) : x <<< 2 = x * 4 := by
  rw [BitVec.shiftLeft_eq_mul_twoPow]; rfl

section
variable {i : Instr} {cond : Word → Word → Bool} {a b : Reg} {off : BitVec 12} {s : State}

/-- What a branch does where its condition does not hold, and where it holds with a target that is legal or not. -/
theorem branch_outcomes (hex : exec i s = .next (branch cond a b off s)) (hp : plain (useAB a b) s = true)
    {target : Word} (ht : s.ts.pc.setWidth 64 + off.signExtend 64 <<< 2 = target) {taken : Bool}
    (hc : cond (getS a s) (getS b s) = taken) :
    (taken = false → s.ts.pc.toNat + 4 < fetchLimit s → FallsThrough i (useAB a b) s) ∧
    (taken = true → Legal target.toNat s → Transfers i (useAB a b) target.toNat s.ts.status s (KeepsRegs s)) ∧
    (taken = true → ¬ Legal target.toNat s → Traps i 4 0 target false s) := by
  subst hc
  have hbranch : exec i s = .next (execUse (useAB a b) s fun t =>
    if cond (getS a t) (getS b t) then transfer t (pcW t + sext64 off * 4) else .ok t) := hex
  have htaken (hy : cond (getS a s) (getS b s) = true) :
      (if cond (getS a s) (getS b s) then transfer s (pcW s + sext64 off * 4) else .ok s) = transfer s target := by
    rw [if_pos hy, ← ht, shiftLeft_two_eq]
    rfl
  refine ⟨fun hn hlim => ?_, fun hy hleg => ?_, fun hy hleg => ?_⟩
  · rw [execUse_ok _ s s _ hp (if_neg (by simp [hn])), finish_ok _ _ _ rfl hlim] at hbranch
    exact ⟨_, hbranch, ⟨rfl, rfl, rfl⟩, rfl, rfl, fun _ => rfl, rfl, fun _ => rfl⟩
  · rw [execUse_jump _ s s _ _ hp rfl ((htaken hy).trans (transfer_of_legal _ _ hleg))] at hbranch
    exact transfers_of_jump hbranch rfl fun _ => rfl
  · exact traps_of_body hbranch hp rfl ((htaken hy).trans (transfer_of_not_legal _ _ hleg)) (by decide) (by decide)

end

/-! ## Jumps that link (05 R122, R123) -/

section
variable {i : Instr} {u : Use} {d : Reg} {target : Word} {body : State → Eff} {s : State}

/-- A transfer that links and may be made. -/
theorem links_of_jump (hex : exec i s = .next (execUse u s body)) (hp : plain u s = true) (hl : locked u s = false)
    (hb : body s = .jump (link d s) target.toNat) : Transfers i u target.toNat s.ts.status s (Links d s) := by
  have hst : (link d s).ts.status = s.ts.status := setS_ts_status ..
  rw [← hst]
  refine transfers_of_jump (hex.trans (congrArg _ (execUse_jump u s _ body _ hp hl hb))) ?_ (writesReg_setS d _ s)
  rw [hst]
  exact setS_eq d _ s

/-- JAL and JALR, by their targets. -/
theorem jumpAndLink_outcomes (hex : exec i s = .next (execUse u s body)) (hp : plain u s = true) (hl : locked u s = false)
    (hlen : u.len = 4) (hb : body s = jumpAndLink d target s) :
    (Legal target.toNat s → Transfers i u target.toNat s.ts.status s (Links d s)) ∧
    (¬ Legal target.toNat s → Traps i 4 0 target false s) := by
  have hlegal : Legal target.toNat (link d s) ↔ Legal target.toNat s := legal_setS ..
  refine ⟨fun h => ?_, fun h => ?_⟩
  · exact links_of_jump hex hp hl (hb.trans (transfer_of_legal _ _ (hlegal.2 h)))
  · exact traps_of_body hex hp hlen (hb.trans (transfer_of_not_legal _ _ (mt hlegal.1 h))) (by decide) (by decide)

end

theorem fjmpTo_of_not_legal (d : Reg) (target : Word) (s : State) (h : ¬ Legal target.toNat s) :
    fjmpTo d target s = .trap 4 0 target := if_neg (mt (targetOk_iff _ _).1 h)

theorem fjmpTo_of_resident (d : Reg) (target : Word) (s : State) (h : Legal target.toNat s)
    (hres : (residency (target.toNat / 4096) s).1 = .resident ∨ isBank s = true) :
    fjmpTo d target s = .jump (link d s) target.toNat :=
  (if_pos ((targetOk_iff _ _).2 h)).trans (if_pos hres)

/-- FJMP to a page that is LANDING or EMPTY. -/
theorem fjmpTo_of_absent (d : Reg) (target : Word) (s : State) (h : Legal target.toNat s)
    (hres : ¬ ((residency (target.toNat / 4096) s).1 = .resident ∨ isBank s = true)) :
    fjmpTo d target s =
      .trap 6 (if (residency (target.toNat / 4096) s).1 = .landing then (residency (target.toNat / 4096) s).2 else 0x40) target :=
  (if_pos ((targetOk_iff _ _).2 h)).trans (if_neg hres)

theorem isBank_iff (s : State) : isBank s = true ↔ s.tid = 4 ∨ s.tid = 5 := by
  rw [isBank, Bool.or_eq_true, beq_iff_eq, beq_iff_eq]

/-! ## Returns (01 R32, 05 R125, R126) -/

theorem getLsbD_six (j : Nat) : (6#64).getLsbD j = (decide (j = 1) || decide (j = 2)) := by
  rw [show 6#64 = BitVec.twoPow 64 1 ||| BitVec.twoPow 64 2 from rfl, BitVec.getLsbD_or, BitVec.getLsbD_twoPow,
    BitVec.getLsbD_twoPow]
  simp [eq_comm]

theorem getLsbD_four (j : Nat) : (4#64).getLsbD j = decide (j = 2) := by
  rw [show 4#64 = BitVec.twoPow 64 2 from rfl, BitVec.getLsbD_twoPow]
  simp [eq_comm]

theorem getLsbD_eight (j : Nat) : (8#64).getLsbD j = decide (j = 3) := by
  rw [show 8#64 = BitVec.twoPow 64 3 from rfl, BitVec.getLsbD_twoPow]
  simp [eq_comm]

/-- ERET writes UXEN and INTRAP and keeps every other bit of STATUS (01 R32). -/
theorem eretStatus_eq (w : Word) : eretStatus w = (w &&& ~~~(6#64)) ||| (if w.getLsbD 4 then 4 else 0) := by
  refine BitVec.eq_of_getLsbD_eq fun j hj => ?_
  have hfour : (if w.getLsbD 4 then (4 : Word) else 0).getLsbD j = (w.getLsbD 4 && decide (j = 2)) := by
    cases w.getLsbD 4
    · simp
    · exact getLsbD_four j
  simp only [eretStatus, getLsbD_setBit _ _ _ _ hj, BitVec.getLsbD_or, BitVec.getLsbD_and, BitVec.getLsbD_not, getLsbD_six, hfour,
    hj, decide_true, Bool.true_and]
  by_cases h1 : j = 1
  · simp [h1]
  · by_cases h2 : j = 2
    · simp [h2]
    · simp [h1, h2]

/-- UXRET clears INUX, sets UXEN and keeps every other bit of STATUS (05 R126). -/
theorem uxretStatus_eq (w : Word) : uxretStatus w = (w &&& ~~~(8#64)) ||| 4 := by
  refine BitVec.eq_of_getLsbD_eq fun j hj => ?_
  simp only [uxretStatus, getLsbD_setBit _ _ _ _ hj, BitVec.getLsbD_or, BitVec.getLsbD_and, BitVec.getLsbD_not, getLsbD_eight,
    hj, decide_true, Bool.true_and]
  rw [show (4 : Word).getLsbD j = decide (j = 2) from getLsbD_four j]
  by_cases h2 : j = 2
  · simp [h2]
  · by_cases h3 : j = 3
    · simp [h3]
    · simp [h2, h3]

/-- ERET moves no bit that says which scalar registers are named. -/
theorem inUx_eret (s : State) : inUx (modStatus eretStatus s) = inUx s := by
  simp only [inUx, modStatus, eretStatus, getLsbD_setBit _ _ _ 3 (by decide)]
  rfl

theorem takeTrap_of_inTrap (code detail : Nat) (val : Word) (lit : Bool) (s : State) (h : s.ts.status.getLsbD 1 = true) :
    takeTrap code detail val lit s = fatalTrap code detail val s := if_pos (.inl h)

/-! ### ERET, case by case -/

theorem exec_eret_of_legal (s : State) (h : s.ts.status.getLsbD 1 = true) (hleg : Legal (s.ts.epc.toNat / 4 * 4) s) :
    exec .eret s = .next (jumpTo (s.ts.epc.toNat / 4 * 4) (retire useNone s (modStatus eretStatus s))) := by
  have hok : targetOk (returnTarget s.ts.epc) s = true := (targetOk_iff _ _).2 hleg
  show execEret s = _
  rw [execEret, inTrap, if_pos h, if_pos hok]
  rfl

theorem exec_eret_of_not_legal (s : State) (h : s.ts.status.getLsbD 1 = true) (hleg : ¬ Legal (s.ts.epc.toNat / 4 * 4) s) :
    exec .eret s = .next (takeTrap 4 0 (BitVec.ofNat 64 (s.ts.epc.toNat / 4 * 4)) false s) := by
  have hok : ¬ targetOk (returnTarget s.ts.epc) s = true := mt (targetOk_iff _ _).1 hleg
  show execEret s = _
  rw [execEret, inTrap, if_pos h, if_neg hok]
  rfl

theorem exec_eret_outside (s : State) (h : s.ts.status.getLsbD 1 = false) :
    exec .eret s = .next (takeTrap 1 0 (Instr.eret.word.setWidth 64) false s) := by
  show execEret s = _
  rw [execEret, inTrap, h, if_neg Bool.false_ne_true]
  rfl

/-! ### UXRET, case by case -/

/-- The cases in which UXRET is an instruction. -/
theorem exec_uxret_inside (s : State) (hux : s.ts.status.getLsbD 3 = true) (htrap : s.ts.status.getLsbD 1 = false) :
    exec .uxret s = .next (finish useNone s
      (if targetOk (returnTarget s.ts.uxepc) s then .jump (modStatus uxretStatus s) (returnTarget s.ts.uxepc)
       else .trap 4 0 (w64 (returnTarget s.ts.uxepc)))) := by
  show execUxret s = _
  rw [execUxret, inUx, inTrap, hux, htrap, if_neg (by decide)]

theorem exec_uxret_of_legal (s : State) (hux : s.ts.status.getLsbD 3 = true) (htrap : s.ts.status.getLsbD 1 = false)
    (hleg : Legal (s.ts.uxepc.toNat / 4 * 4) s) :
    exec .uxret s = .next (jumpTo (s.ts.uxepc.toNat / 4 * 4) (retire useNone s (modStatus uxretStatus s))) := by
  have hok : targetOk (returnTarget s.ts.uxepc) s = true := (targetOk_iff _ _).2 hleg
  rw [exec_uxret_inside s hux htrap, if_pos hok]
  rfl

theorem exec_uxret_of_not_legal (s : State) (hux : s.ts.status.getLsbD 3 = true) (htrap : s.ts.status.getLsbD 1 = false)
    (hleg : ¬ Legal (s.ts.uxepc.toNat / 4 * 4) s) :
    exec .uxret s = .next (takeTrap 4 0 (BitVec.ofNat 64 (s.ts.uxepc.toNat / 4 * 4)) false s) := by
  have hok : ¬ targetOk (returnTarget s.ts.uxepc) s = true := mt (targetOk_iff _ _).1 hleg
  rw [exec_uxret_inside s hux htrap, if_neg hok]
  rfl

theorem exec_uxret_illegal (s : State) (h : s.ts.status.getLsbD 3 = false ∨ s.ts.status.getLsbD 1 = true) :
    exec .uxret s = .next (takeTrap 1 0 (Instr.uxret.word.setWidth 64) false s) := by
  show execUxret s = _
  rw [execUxret, inUx, inTrap, if_pos h]
  rfl

end Sys2Proof.Machine

namespace Sys2Proof.Proofs
open Sys2Proof Sys2Proof.Machine Sys2Proof.Claims

/-! ## The statements of 05 R121 to R123 -/

theorem branches : Branches := by
  intro s a b off hp target
  simp only [branchForms, List.forall_mem_cons]
  refine ⟨?_, ?_, ?_, ?_, ?_, ?_, fun _ h => absurd h List.not_mem_nil⟩
  · exact branch_outcomes (cond := fun x y => x == y) rfl hp rfl rfl
  · exact branch_outcomes (cond := fun x y => x != y) rfl hp rfl decide_not.symm
  · exact branch_outcomes (cond := fun x y => decide (x.toInt < y.toInt)) rfl hp rfl rfl
  · exact branch_outcomes (cond := fun x y => decide (y.toInt ≤ x.toInt)) rfl hp rfl rfl
  · exact branch_outcomes (cond := fun x y => decide (x.toNat < y.toNat)) rfl hp rfl rfl
  · exact branch_outcomes (cond := fun x y => decide (y.toNat ≤ x.toNat)) rfl hp rfl rfl

theorem jumps : Jumps := by
  intro s d a off imm t1 t2
  refine ⟨fun hp => ?_, fun hp => ?_⟩
  · have htarget : pcW s + sext64 off * 4 = t1 := by rw [← shiftLeft_two_eq]; rfl
    exact jumpAndLink_outcomes (i := .jal d off) (body := fun t => jumpAndLink d (pcW t + sext64 off * 4) t) rfl hp rfl rfl
      (congrArg (jumpAndLink d · s) htarget)
  · exact jumpAndLink_outcomes (i := .jalr d a imm) (body := fun t => jumpAndLink d (getS a t + sext64 imm) t) rfl hp rfl rfl rfl

theorem farJump : FarJump := by
  intro s d a imm hp target tag
  have hex : exec (.fjmp d a imm) s = .next (execUse (useAD d a) s fun t => fjmpTo d (getS a t + sext64 imm) t) := rfl
  have hbank (h4 : s.tid ≠ 4) (h5 : s.tid ≠ 5) : ¬ isBank s = true := fun h => ((isBank_iff s).1 h).elim h4 h5
  refine ⟨fun h => ?_, fun h => ⟨fun hres => ?_, fun hland hseg h4 h5 => ?_, fun hempty h4 h5 => ?_⟩⟩
  · exact traps_of_body hex hp rfl (fjmpTo_of_not_legal d target s h) (by decide) (by decide)
  · exact links_of_jump hex hp rfl (fjmpTo_of_resident d target s h (hres.imp_right (isBank_iff s).2))
  · have hres : ¬ (tag.1 = .resident ∨ isBank s = true) := by simp [hland, hbank h4 h5]
    exact traps_of_body hex hp rfl 
      ((fjmpTo_of_absent d target s h hres).trans (congrArg (Eff.trap 6 · target) (if_pos hland))) (by decide) hseg
  · have hres : ¬ (tag.1 = .resident ∨ isBank s = true) := by simp [hempty, hbank h4 h5]
    have hland : ¬ tag.1 = .landing := by simp [hempty]
    exact traps_of_body hex hp rfl 
      ((fjmpTo_of_absent d target s h hres).trans (congrArg (Eff.trap 6 · target) (if_neg hland))) (by decide) (by decide)

/-- Settles O5: what a body of `execUse` comes to where it jumps and where it traps, for branches (R121), JAL and JALR (R122)
and FJMP (R123). -/
theorem controlTransfers : Obligations.ControlTransfers := ⟨branches, jumps, farJump⟩

/-! ## The statements of 05 R125 and R126 -/

theorem returnFromTrap : ReturnFromTrap := by
  intro s target w
  refine ⟨fun h hleg => ?_, fun h hleg => ?_, fun h => ?_⟩
  · rw [show w = (modStatus eretStatus s).ts.status from (eretStatus_eq _).symm]
    refine transfers_of_jump (exec_eret_of_legal s h hleg) rfl fun r => ?_
    rw [getS_jumpTo_retire]
    simp only [getS, inUx_eret, modStatus_ts_s, modStatus_ts_shS]
  · rw [exec_eret_of_not_legal s h hleg, takeTrap_of_inTrap _ _ _ _ s h]
  · exact traps_of_takeTrap (exec_eret_outside s h) (by decide) (by decide)

theorem returnFromUserInterrupt : ReturnFromUserInterrupt := by
  intro s target w
  refine ⟨fun hux htrap hleg => ?_, fun hux htrap hleg => ?_, fun hux => ?_, fun htrap => ?_⟩
  · exact ⟨_, exec_uxret_of_legal s hux htrap hleg, rfl, uxretStatus_eq _, rfl, rfl, rfl, rfl, rfl, fun _ => rfl⟩
  · exact traps_of_takeTrap (exec_uxret_of_not_legal s hux htrap hleg) (by decide) (by decide)
  · exact traps_of_takeTrap (exec_uxret_illegal s (.inl hux)) (by decide) (by decide)
  · rw [exec_uxret_illegal s (.inr htrap), takeTrap_of_inTrap _ _ _ _ s htrap]

/-- Settles O6: the outcomes of ERET (01 R32, 05 R125) and UXRET (R126) case by case, with the bits of STATUS that they write. -/
theorem returnsFromHandlers : Obligations.ReturnsFromHandlers := ⟨returnFromTrap, returnFromUserInterrupt⟩

end Sys2Proof.Proofs
end

section
/-! SUPPORT. Scalar integer instructions (05 R108 to R112): the model's operations on words are those of the statements, and what an
instruction that writes one scalar register changes. -/
namespace Sys2Proof.Machine
open Sys2Proof.Claims

/-! ## Results of 05 R108 and R109 -/

theorem mulhuW_eq (x y : Word) : mulhuW x y = highHalf ((x.toNat * y.toNat : Nat) : Int) :=
  (BitVec.ofInt_natCast 64 _).symm

theorem divuW_eq (x y : Word) : divuW x y = if y = 0 then BitVec.allOnes 64 else x / y := by
  unfold divuW
  congr 1
  exact BitVec.eq_of_toNat_eq (Nat.mod_eq_of_lt (Nat.lt_of_le_of_lt (Nat.div_le_self _ _) x.isLt))

theorem remuW_eq (x y : Word) : remuW x y = if y = 0 then x else x % y := by
  unfold remuW
  congr 1
  exact BitVec.eq_of_toNat_eq (Nat.mod_eq_of_lt (Nat.lt_of_le_of_lt (Nat.mod_le _ _) x.isLt))

/-! ## Bit counts (05 R108) -/

theorem getLsbD_eq_decide (x : Word) (n : Nat) : x.getLsbD n = decide (x.toNat / 2 ^ n % 2 = 1) :=
  Nat.testBit_eq_decide_div_mod_eq

theorem bitLen_le_of_lt {m n : Nat} (h : m < 2 ^ n) : bitLen m ≤ n := by
  unfold bitLen
  split
  · exact Nat.zero_le n
  · next hm => exact (Nat.log2_lt hm).2 h

theorem bitLen_of_le_of_lt {m n : Nat} (hlo : 2 ^ n ≤ m) (hhi : m < 2 ^ (n + 1)) : bitLen m = n + 1 := by
  have hm : m ≠ 0 := fun e => absurd (Nat.two_pow_pos n) (by omega)
  refine Nat.le_antisymm (bitLen_le_of_lt hhi) ?_
  rw [bitLen, if_neg hm]
  exact Nat.succ_le_succ ((Nat.le_log2 hm).2 hlo)

/-- The zero bits above the highest one bit of a number of at most `n` bits. -/
theorem zerosAbove_eq (x : Word) (n : Nat) (h : x.toNat < 2 ^ n) : zerosAbove x n = n - bitLen x.toNat := by
  induction n with
  | zero => exact (Nat.zero_sub _).symm
  | succ n ih =>
    rw [zerosAbove, getLsbD_eq_decide]
    by_cases hx : x.toNat < 2 ^ n
    · have hlen := bitLen_le_of_lt hx
      rw [Nat.div_eq_of_lt hx, ih hx, if_neg (by decide)]
      omega
    · have hdiv : x.toNat / 2 ^ n = 1 := Nat.div_eq_of_lt_le (by omega) (by rw [Nat.pow_succ] at h; omega)
      rw [hdiv, if_pos (by decide), bitLen_of_le_of_lt (by omega) h, Nat.sub_self]

theorem zerosBelow_eq (x : Word) (n k : Nat) : zerosBelow x k n = trailingZeros n (x.toNat / 2 ^ k) := by
  induction n generalizing k with
  | zero => rfl
  | succ n ih =>
    rw [zerosBelow, trailingZeros, ih, getLsbD_eq_decide, Nat.pow_succ, Nat.div_div_eq_div_mul]
    simp only [decide_eq_true_eq]

/-- Counting one bits from the lowest bit on and up to a next bit. -/
theorem popcount_succ (n m : Nat) : popcount (n + 1) m = m / 2 ^ n % 2 + popcount n m := by
  induction n generalizing m with
  | zero => simp [popcount]
  | succ n ih =>
    rw [popcount, ih (m / 2), popcount, Nat.div_div_eq_div_mul, Nat.pow_succ']
    omega

theorem onesBelow_eq (x : Word) (n : Nat) : onesBelow x n = popcount n x.toNat := by
  induction n with
  | zero => rfl
  | succ n ih =>
    rw [onesBelow, popcount_succ, ih, getLsbD_eq_decide]
    rcases Nat.mod_two_eq_zero_or_one (x.toNat / 2 ^ n) with h | h <;> simp [h]

theorem clzW_eq (x : Word) : clzW x = BitVec.ofNat 64 (zerosAbove x 64) := by
  rw [zerosAbove_eq x 64 x.isLt]; rfl

theorem ctzW_eq (x : Word) : ctzW x = BitVec.ofNat 64 (zerosBelow x 0 64) := by
  rw [zerosBelow_eq, Nat.pow_zero, Nat.div_one]; rfl

theorem popcW_eq (x : Word) : popcW x = BitVec.ofNat 64 (onesBelow x 64) := by
  rw [onesBelow_eq]; rfl

/-! ## Immediates and bit fields (02 R43, 05 R110, R111) -/

theorem toInt_sext64 {n : Nat} (x : BitVec n) (h : n ≤ 64) : (sext64 x).toInt = x.toInt := BitVec.toInt_signExtend_of_le h

theorem extzW_eq (x : Word) (w p : BitVec 6) : extzW x w p = (x.extractLsb' p.toNat (w.toNat + 1)).setWidth 64 := by
  refine BitVec.eq_of_toNat_eq ?_
  simp only [extzW, w64, bitsOf, BitVec.toNat_ofNat, BitVec.toNat_setWidth, BitVec.extractLsb'_toNat, Nat.shiftRight_eq_div_pow]

/-- The signed reading of a number's low bits. -/
theorem toInt_ofNat_eq_signedOf (n y : Nat) : (BitVec.ofNat (n + 1) y).toInt = signedOf (n + 1) y := by
  rw [BitVec.toInt_eq_toNat_cond, BitVec.toNat_ofNat, signedOf, Nat.add_sub_cancel]
  have hpow : 2 ^ (n + 1) = 2 * 2 ^ n := Nat.pow_succ'
  simp only [show 2 * (y % 2 ^ (n + 1)) < 2 ^ (n + 1) ↔ y % 2 ^ (n + 1) < 2 ^ n by omega]

theorem extsW_eq (x : Word) (w p : BitVec 6) : extsW x w p = (x.extractLsb' p.toNat (w.toNat + 1)).signExtend 64 := by
  rw [extsW, ← toInt_ofNat_eq_signedOf, ← Nat.shiftRight_eq_div_pow]
  rfl

/-- INS, bit by bit: the field takes the low bits of `x`. -/
theorem insW_eq (old x : Word) (w p : BitVec 6) : insW old x w p = putField old x w p := by
  refine BitVec.eq_of_getLsbD_eq fun j hj => ?_
  have hmask : ((BitVec.allOnes 64 >>> (63 - w.toNat)) <<< p.toNat : Word).getLsbD j =
      decide (p.toNat ≤ j ∧ j < p.toNat + (w.toNat + 1)) := by
    have hw := w.isLt
    simp only [BitVec.getLsbD_shiftLeft, BitVec.getLsbD_ushiftRight, BitVec.getLsbD_allOnes, hj, decide_true, Bool.true_and]
    by_cases hp : j < p.toNat
    · simp [hp, Nat.not_le.2 hp]
    · simp only [hp, decide_false, Bool.not_false, Bool.true_and, Nat.not_lt.1 hp, true_and]
      congr 1
      simp only [eq_iff_iff]
      omega
  rw [insW, getLsbD_setField _ _ _ _ _ hj, putField, BitVec.getLsbD_or, BitVec.getLsbD_and, BitVec.getLsbD_and, BitVec.getLsbD_not,
    hmask, BitVec.getLsbD_shiftLeft]
  by_cases hin : p.toNat ≤ j ∧ j < p.toNat + (w.toNat + 1)
  · simp [hin, hj, Nat.not_lt.2 hin.1, BitVec.getLsbD]
  · simp [hin, hj]

theorem ldhi_eq (imm : BitVec 20) :
    sext64 (BitVec.ofNat 32 (imm.toNat * 4096)) = ((imm.setWidth 32 <<< 12).signExtend 64 : Word) := by
  have himm := imm.isLt
  refine congrArg sext64 (BitVec.eq_of_toNat_eq ?_)
  simp only [BitVec.toNat_ofNat, BitVec.toNat_shiftLeft, BitVec.toNat_setWidth, Nat.shiftLeft_eq]
  omega

/-! ## Retiring with one scalar register written -/

/-- Scalar registers read alike in states with the same thread set in focus. -/
theorem getS_congr (r : Reg) (s t : State) (h : t.ts = s.ts) : getS r t = getS r s := by
  unfold getS inUx
  rw [h]

/-- An instruction that retires with register `d` written in a state that has its thread set as `s` does. -/
theorem computesOn_of_setS {s s0 : State} {i : Instr} {u : Use} {d : Reg} {v : Word}
    (hex : exec i s = .next (finish u s (.ok (setS d v s0)))) (hf : Free u s) (hts : s0.ts = s.ts) (htid : s0.tid = s.tid) :
    ComputesOn s0 i u d v 0 0 s := by
  obtain ⟨-, hl, hp⟩ := hf
  have hlim : fetchLimit s0 = fetchLimit s := fetchLimit_congr s s0 htid (by rw [hts]) (by simp only [isF, hts])
  have hpc : (setS d v s0).ts.pc = s.ts.pc := by rw [setS_ts_pc, hts]
  rw [finish_ok _ _ _ hl (by rw [fetchLimit_setS, hpc, hlim]; exact hp)] at hex
  refine ⟨_, hex, ⟨congrArg (fun n : PcWord => BitVec.ofNat 20 (n.toNat + u.len)) hpc, rfl, rfl⟩,
    ⟨?_, fun r hr => ?_⟩, ⟨?_, ?_⟩, ?_, fun k => ?_⟩
  · exact getS_setS_same d v s0
  · exact (getS_setS_ne d r v s0 hr).trans (getS_congr r s s0 hts)
  · show (setS d v s0).ts.status = s.ts.status ||| 0#64
    rw [setS_ts_status, hts, BitVec.or_zero]
  · show (setS d v s0).ts.srctr = s.ts.srctr + 0#48
    rw [setS_ts_srctr, hts, BitVec.add_zero]
  · rw [setS_eq]; rfl
  · rw [setS_eq]; rfl

section
variable {s : State} {i : Instr} {u : Use} {d a : Reg} {b : OpB} {v : Word}

/-- An instruction whose effect is to write one scalar register. -/
theorem computes_of_execUse {body : State → Eff} (hf : Free u s) (hex : exec i s = .next (execUse u s body))
    (hb : body s = .ok (setS d v s)) : Computes i u d v 0 0 s :=
  computesOn_of_setS (hex.trans (congrArg _ (execUse_ok u s _ body hf.1 hb))) hf rfl rfl

theorem computes_of_alu {f : Word → Word → Word} (hf : Free (useABD d a b) s) (hex : exec i s = .next (alu f d a b s))
    (hv : f (getS a s) (intB b s) = v) : Computes i (useABD d a b) d v 0 0 s :=
  computes_of_execUse hf hex (by rw [hv])

theorem computes_of_alu1 {f : Word → Word} (hf : Free (useAD d a) s) (hex : exec i s = .next (alu1 f d a s))
    (hv : f (getS a s) = v) : Computes i (useAD d a) d v 0 0 s :=
  computes_of_execUse hf hex (by rw [hv])

end

end Sys2Proof.Machine

namespace Sys2Proof.Proofs
open Sys2Proof Sys2Proof.Machine Sys2Proof.Claims

/-! ## The statements of 05 R108 and R109 -/

theorem integerOperations : IntegerOperations := by
  intro s d a b hf
  simp only [integerForms, List.forall_mem_cons]
  refine ⟨?_, ?_, ?_, ?_, ?_, ?_, ?_, ?_, ?_, ?_, ?_, ?_, ?_, ?_, ?_, ?_, ?_, ?_, ?_, ?_, ?_, ?_, ?_, ?_, ?_, ?_,
    fun _ h => absurd h List.not_mem_nil⟩
  · exact computes_of_alu (f := fun x y => x + y) hf rfl rfl
  · exact computes_of_alu (f := fun x y => x - y) hf rfl rfl
  · exact computes_of_alu (f := fun x y => x * y) hf rfl rfl
  · exact computes_of_alu (f := mulhW) hf rfl rfl
  · exact computes_of_alu (f := mulhuW) hf rfl (mulhuW_eq _ _)
  · exact computes_of_alu (f := divW) hf rfl rfl
  · exact computes_of_alu (f := divuW) hf rfl (divuW_eq _ _)
  · exact computes_of_alu (f := remW) hf rfl rfl
  · exact computes_of_alu (f := remuW) hf rfl (remuW_eq _ _)
  · exact computes_of_alu (f := fun x y => x &&& y) hf rfl rfl
  · exact computes_of_alu (f := fun x y => x ||| y) hf rfl rfl
  · exact computes_of_alu (f := fun x y => x ^^^ y) hf rfl rfl
  · exact computes_of_alu (f := fun x y => x <<< shAmt y) hf rfl rfl
  · exact computes_of_alu (f := fun x y => x >>> shAmt y) hf rfl rfl
  · exact computes_of_alu (f := fun x y => sraW x (shAmt y)) hf rfl rfl
  · exact computes_of_alu (f := fun x y => x.rotateLeft (shAmt y)) hf rfl rfl
  · exact computes_of_alu (f := minW) hf rfl rfl
  · exact computes_of_alu (f := maxW) hf rfl rfl
  · exact computes_of_alu (f := minuW) hf rfl rfl
  · exact computes_of_alu (f := maxuW) hf rfl rfl
  · exact computes_of_alu (f := fun x y => boolW (decide (x.toInt < y.toInt))) hf rfl rfl
  · exact computes_of_alu (f := fun x y => boolW (decide (x.toNat < y.toNat))) hf rfl rfl
  · exact computes_of_alu (f := fun x y => x + y * 1) hf rfl (congrArg _ (BitVec.mul_one _))
  · exact computes_of_alu (f := fun x y => x + y * 2) hf rfl (congrArg _ (BitVec.shiftLeft_eq_mul_twoPow _ 1).symm)
  · exact computes_of_alu (f := fun x y => x + y * 4) hf rfl (congrArg _ (BitVec.shiftLeft_eq_mul_twoPow _ 2).symm)
  · exact computes_of_alu (f := fun x y => x + y * 8) hf rfl (congrArg _ (BitVec.shiftLeft_eq_mul_twoPow _ 3).symm)

theorem bitCounts : BitCounts := by
  intro s d a hf
  simp only [countForms, List.forall_mem_cons]
  refine ⟨?_, ?_, ?_, fun _ h => absurd h List.not_mem_nil⟩
  · exact computes_of_alu1 hf rfl (clzW_eq _)
  · exact computes_of_alu1 hf rfl (ctzW_eq _)
  · exact computes_of_alu1 hf rfl (popcW_eq _)

/-- Settles O1: each instruction is a word operation applied by `alu` or `alu1` (R108, R109), whose result the lemmas above give,
and one lemma says what writing one scalar register changes. -/
theorem integerArithmetic : Obligations.IntegerArithmetic := ⟨integerOperations, bitCounts⟩

end Sys2Proof.Proofs
end

section
/-! SUPPORT. Constant-bank reads (01 R15, R24; 05 R112): correcting the words that a read covers leaves the thread set in focus
alone. -/
namespace Sys2Proof.Machine
open Sys2Proof.Claims

/-! ## The thread set in focus -/

/-- The thread set in focus, with its id: what decides the scalar registers and the fetch limit. -/
def focus (s : State) : ThreadSet × Nat := (s.ts, s.tid)

theorem focus_foldl {α : Type} (f : State → α → State) (hf : ∀ s x, focus (f s x) = focus s) (l : List α) (s : State) :
    focus (l.foldl f s) = focus s := by
  induction l generalizing s with
  | nil => rfl
  | cons x l ih => exact (ih (f s x)).trans (hf s x)

/-- The shape of every correction: a fold over what a read meets, where it meets anything. -/
theorem focus_ite_foldl {α : Type} (c : Prop) [Decidable c] (f : State → α → State) (hf : ∀ s x, focus (f s x) = focus s)
    (l : List α) (s t : State) (ht : focus t = focus s) : focus (if c then l.foldl f t else s) = focus s := by
  split
  · exact (focus_foldl f hf l t).trans ht
  · rfl

/-! ## What moves cores, caches and records only -/

@[simp] theorem focus_modCore (c : Nat) (f : Core → Core) (s : State) : focus (modCore c f s) = focus s := by
  unfold modCore; split <;> rfl

@[simp] theorem focus_countAt (i c : Nat) (s : State) : focus (countAt i c s) = focus s := focus_modCore ..

@[simp] theorem focus_dropL1 (line c : Nat) (s : State) : focus (dropL1 line c s) = focus s := focus_modCore ..

@[simp] theorem focus_setDir (line : Nat) (d : Option DirSt) (s : State) : focus (setDir line d s) = focus s := by
  unfold setDir; split <;> rfl

@[simp] theorem focus_hostLoses (line : Nat) (s : State) : focus (hostLoses line s) = focus s := by
  unfold hostLoses; split <;> rfl

@[simp] theorem focus_l2Fresh (line : Nat) (s : State) : focus (l2Fresh line s) = focus s := by
  unfold l2Fresh; split <;> rfl

@[simp] theorem focus_writeFault (pid : Nat) (r : FaultRec) (s : State) : focus (writeFault pid r s) = focus s := by
  rw [writeFault_eq]; rfl

@[simp] theorem focus_killLaunch (pid lid n : Nat) (s : State) : focus (killLaunch pid lid n s) = focus s := rfl

@[simp] theorem focus_lostBack (p : PartRec) (line c : Nat) (s : State) : focus (lostBack p line c s) = focus s := by
  unfold lostBack
  dsimp only
  split <;> simp

/-! ## The L2-mode granules and the L1s -/

theorem focus_l2Room (home set : Nat) (s : State) : ∀ t ∈ l2Room home set s, focus t = focus s := by
  intro t ht
  unfold l2Room at ht
  dsimp only at ht
  split at ht
  · cases ht; rfl
  · split at ht
    · cases ht; rfl
    · split at ht
      · cases ht
      · cases ht; rfl

theorem focus_l2Add (home set line : Nat) (dirty rsv : Bool) (s : State) :
    ∀ t ∈ l2Add home set line dirty rsv s, focus t = focus s := by
  intro t ht
  obtain ⟨u, hu, rfl⟩ := Option.map_eq_some_iff.1 ht
  exact focus_l2Room home set s u hu

@[simp] theorem focus_l2Put (p : PartRec) (line : Nat) (dirty : Bool) (s : State) : focus (l2Put p line dirty s) = focus s := by
  have hfull : focus (if dirty && !hostAway line s then wroteBack line s else s) = focus s := by split <;> rfl
  unfold l2Put
  dsimp only
  split
  · exact hfull
  · split
    · rfl
    · cases hadd : l2Add (homeCore p (linePa line)) (l2SetOf p line) line dirty false s with
      | none => exact hfull
      | some t => exact focus_l2Add _ _ _ _ _ _ t hadd

@[simp] theorem focus_l1WriteBack (p : PartRec) (line c : Nat) (s : State) : focus (l1WriteBack p line c s) = focus s := by
  unfold l1WriteBack
  split
  · have hcount (l : List (Nat × Nat)) (t : State) : focus (l.foldl (fun s _ => countAt 2 c s) t) = focus t :=
      focus_foldl _ (fun s _ => focus_countAt 2 c s) l t
    dsimp only
    split
    · rw [focus_lostBack, hcount]; rfl
    · rw [focus_l2Put, focus_l2Fresh, hcount]; rfl
  · rfl

@[simp] theorem focus_l1Leave (p : PartRec) (line c : Nat) (s : State) : focus (l1Leave p line c s) = focus s := by
  have hdrop : focus (dropL1 line c (l1WriteBack p line c s)) = focus s := by simp
  unfold l1Leave
  dsimp only
  split
  · exact hdrop
  · split
    · rw [focus_setDir, hdrop]
    · exact hdrop
  · rw [focus_setDir, hdrop]
  · rw [focus_setDir, hdrop]
  · exact hdrop

/-! ## Corrections (01 R24, 11 R258) -/

@[simp] theorem focus_countCorrection (k : Nat) (s : State) : focus (countCorrection k s) = focus s := by
  unfold countCorrection
  split
  · simp
  · split
    · simp
    · split <;> simp

@[simp] theorem focus_correctL1 (s : State) (x : Nat × Nat) : focus (correctL1 s x) = focus s := by
  unfold correctL1
  split
  · rfl
  · split
    · simp
    · split
      · simp
      · rfl

@[simp] theorem focus_correctL2 (k n : Nat) (s : State) : focus (correctL2 k n s) = focus s := by
  unfold correctL2
  refine focus_ite_foldl _ _ (fun t x => ?_) _ _ _ rfl
  exact focus_foldl _ (fun u _ => focus_countAt 1 x.home u) _ t

theorem focus_correctBy (rd : Option Nat) (k n : Nat) (s : State) : focus (correctBy rd k n s) = focus s := by
  unfold correctBy
  rw [focus_correctL2]
  refine (focus_ite_foldl _ _ (fun t w => ?_) _ _ _ ?_).trans (focus_ite_foldl _ _ focus_correctL1 _ _ _ ?_)
  · exact focus_countCorrection (w * 8) t
  · rfl
  · rfl

theorem correct_ts (k n : Nat) (s : State) : (correct k n s).ts = s.ts := congrArg Prod.fst (focus_correctBy none k n s)

theorem correct_tid (k n : Nat) (s : State) : (correct k n s).tid = s.tid := congrArg Prod.snd (focus_correctBy none k n s)

/-! ## The constant bank (01 R15, 05 R112; 20 R396) -/

theorem constEntryKey_eq (k : BitVec 10) (s : State) :
    constEntryKey k s = if s.tid = 4 ∨ s.tid = 5 then lmKey s.here (s.ts.wbase + (s.ts.wsize - 4096) + 4 * k.toNat)
      else constKey s.here (4 * k.toNat) := by
  simp only [constEntryKey, isBank_iff]

theorem constEntry_eq (k : BitVec 10) (s : State) :
    constEntry k s = BitVec.ofNat 32 (entryValue (constEntryKey k s) s.mem) := by
  unfold constEntry
  congr 1
  simp only [memValue, memRead, leValue, entryValue]
  omega

section
variable {s : State} {i : Instr} {d a : Reg} {k : BitVec 10} {v : Word} {signed : Bool} {f : Word → Word → Word}

/-- A constant-bank form writes its result where the entry can be read, and else ends in the machine error of the read. -/
theorem aluK_outcomes (hf : Free (useAD d a) s) (hex : exec i s = .next (aluK signed f d a k s))
    (hv : f (getS a s) (if signed then sext64 (constEntry k s) else zext64 (constEntry k s)) = v) :
    (readError (constEntryKey k s) 4 s = none → ComputesOn (correct (constEntryKey k s) 4 s) i (useAD d a) d v 0 0 s) ∧
    (∀ e, readError (constEntryKey k s) 4 s = some e → exec i s = .next (machineError e.1 e.2 s)) := by
  refine ⟨fun hread => ?_, fun e hread => ?_⟩
  · have hts := correct_ts (constEntryKey k s) 4 s
    refine computesOn_of_setS (hex.trans (congrArg _ ?_)) hf hts (correct_tid _ _ _)
    refine execUse_ok _ _ _ _ hf.1 ?_
    simp only [constEff, hread, getS_congr a s _ hts, hv]
  · rw [hex, aluK, execUse_plain _ _ _ hf.1]
    simp only [constEff, hread]
    rfl

end

end Sys2Proof.Machine

namespace Sys2Proof.Proofs
open Sys2Proof Sys2Proof.Machine Sys2Proof.Claims

/-! ## The statements of 02 R43 and 05 R110 to R112 -/

theorem immediateOperations : ImmediateOperations := by
  intro s d a
  refine ⟨fun hf imm n => ?_, fun c b hf => ?_, fun imm hf => ?_⟩
  · simp only [immediateForms, List.forall_mem_cons]
    refine ⟨?_, ?_, ?_, ?_, ?_, ?_, ?_, ?_, fun _ h => absurd h List.not_mem_nil⟩
    · exact computes_of_alu1 (f := fun x => x + sext64 imm) hf rfl rfl
    · exact computes_of_alu1 (f := fun x => x &&& sext64 imm) hf rfl rfl
    · exact computes_of_alu1 (f := fun x => x ||| zext64 imm) hf rfl rfl
    · exact computes_of_alu1 (f := fun x => x ^^^ zext64 imm) hf rfl rfl
    · exact computes_of_alu1 (f := fun x => boolW (decide (x.toInt < (sext64 imm).toInt))) hf rfl
        (by rw [toInt_sext64 imm (by decide)]; rfl)
    · exact computes_of_alu1 (f := fun x => x <<< n.toNat) hf rfl rfl
    · exact computes_of_alu1 (f := fun x => x >>> n.toNat) hf rfl rfl
    · exact computes_of_alu1 (f := fun x => sraW x n.toNat) hf rfl rfl
  · exact computes_of_execUse hf rfl rfl
  · exact computes_of_execUse hf rfl (by rw [ldhi_eq])

theorem bitFieldOperations : BitFieldOperations := by
  intro s d a w p _
  refine ⟨fun hf => ⟨?_, ?_⟩, fun hf => ?_⟩
  · exact computes_of_alu1 (f := fun x => extzW x w p) hf rfl (extzW_eq _ w p)
  · exact computes_of_alu1 (f := fun x => extsW x w p) hf rfl (extsW_eq _ w p)
  · exact computes_of_execUse hf rfl (by rw [insW_eq])

theorem constantOperations : ConstantOperations := by
  intro s d a k hf
  dsimp only
  rw [← constEntryKey_eq k s, ← constEntry_eq k s]
  simp only [constantForms, List.forall_mem_cons]
  refine ⟨?_, ?_, ?_, ?_, ?_, ?_, ?_, ?_, fun _ h => absurd h List.not_mem_nil⟩
  · exact aluK_outcomes (signed := true) (f := fun x y => x + y) hf rfl rfl
  · exact aluK_outcomes (signed := true) (f := fun x y => x - y) hf rfl rfl
  · exact aluK_outcomes (signed := true) (f := fun x y => x * y) hf rfl rfl
  · exact aluK_outcomes (signed := true) (f := fun x y => x &&& y) hf rfl rfl
  · exact aluK_outcomes (signed := false) (f := fun x y => x ||| y) hf rfl rfl
  · exact aluK_outcomes (signed := false) (f := fun x y => x ^^^ y) hf rfl rfl
  · exact aluK_outcomes (signed := true) (f := minW) hf rfl rfl
  · exact aluK_outcomes (signed := true) (f := maxW) hf rfl rfl

/-- Settles O2: immediates, SEL and LDHI (R110, R111) and bit fields (02 R43) as word operations on registers, and the constant-bank
forms (R112) through what a corrected read leaves alone. -/
theorem immediateAndConstantForms : Obligations.ImmediateAndConstantForms :=
  ⟨immediateOperations, bitFieldOperations, constantOperations⟩

end Sys2Proof.Proofs
end
